-- ==== Sys2Proof/Word.lean ====
section
/-! DEFINITION. The word types of the T64. -/

namespace Sys2Proof

/-- One byte of memory. -/
abbrev Byte := BitVec 8

/-- One register, in its widest form (R41: registers are 32 or 64 bits wide). -/
abbrev RegWord := BitVec 64

end Sys2Proof
end

