-- ==== Sys2Proof/Syntax.lean ====
section
/-! DEFINITION. The commands of the T64: one constructor per row of spec/opcode_table.json. Each is one whole and
indivisible step of the spec (95_what_each_step_holds.md). The operands name the unit the step belongs to and what
comes from outside the chip: `perr` lists the lines of the core's RLC in which a soft error breaks the parity before the step
looks them up (R119), `ecc` and `flips` are errors that strike stored words, and port 8 is the chip itself where a link port is
named: the source of what it would send and cannot route (R422), and of the link events of its own ports (R438). -/

namespace Sys2Proof

/-- The operation of a transaction: the opcodes of Table POD-2, and two on-chip ones (a pop request and its answer),
which never cross a link (R253: a pop names a queue of its own chip). -/
inductive Op where
  | read | readData | write | writeAck | atomicAdd | waitNotify | snoopInv | invAck | notHeld | evictNote
  | queuePush | eventMsg | barrierArrive | barrierRelease | timeSync | podMgmt | nakNotReady | epochStale
  | queuePop | popAnswer
deriving DecidableEq, Repr

/-- What writes a doorbell (R302, R303): the PCIe port, the QSPI port, another chip, the steward. -/
inductive WritePort where
  | pcie | qspi | pod | steward
deriving DecidableEq, Repr

/-- A doorbell write (R302, R303): the value written, and by whom. -/
structure Doorbell where
  value : Nat
  port : WritePort
deriving DecidableEq, Repr

/-- The slot that issues a QUEUE_PUSH, and the entry size code (Table QUE-2) of the queue if that is another chip's. -/
structure PushSlot where
  slot : Nat
  esize : Nat := 0
deriving DecidableEq, Repr

/-- A candidate of pod formation (R431): round, serial, distance. -/
structure Cand where
  round : Nat
  serial : Nat
  dist : Nat
deriving DecidableEq, Repr

/-- One link of a chip in a REPORT (Table POD-4): port, its state, the partner's serial, lanes and rate. -/
structure RepLink where
  port : Nat
  state : Nat
  partner : Nat
  lanes : Nat
  rate : Nat
deriving DecidableEq, Repr

/-- One chip of a REPORT (Table POD-4): serial, current number or 0xFF, its links. -/
structure RepChip where
  serial : Nat
  num : Nat
  links : List RepLink
deriving DecidableEq, Repr

/-- A NEW_EPOCH message (Table POD-4): the addressed chip's serial, epoch, round, members as (serial, number), the
addressed chip's ROUTE table as (destination, port, hops), its parent port if it has one, pod time, Aster GEN values as
(barrier, GEN), the root's serial. -/
structure NewEp where
  dest : Nat
  epoch : Nat
  round : Nat
  members : List (Nat × Nat)
  routes : List (Nat × Nat × Nat)
  parent : Option Nat
  podTime : Nat
  asterGen : List (Nat × Nat)
  rootSerial : Nat
deriving DecidableEq, Repr

/-- What a POD_MGMT or TIME_SYNC message carries beside its header (Table POD-4, R441). The spec lays out no bytes of it
but the code of a POD_MGMT in byte 0. -/
inductive Mgmt where
  | candidate (c : Cand) (serial parent : Nat)
  | report (chips : List RepChip)
  | newEpoch (e : NewEp)
  | epochAck (epoch : Nat)
  | linkEvent (port state partner : Nat)
  | leave (serial : Nat)
  | timeRequest (t1 : Nat)
  | timeReply (t1 t2 t3 : Nat)
deriving DecidableEq, Repr

/-- A transaction: the header fields of Table POD-1 and its data. Chip number 255 is this chip (R34). `uncached` and
`fillTag` are the marks of READ_DATA (R122, R123) and the tag of EVICT_NOTE (R118); `acc` names, on this chip, the
access or operation the requester holds for it, and `pos` its part of that access; `base` is the chip address of the
first data byte that an answer carries, which its CONT flits show (R418); `mgmt` is what a POD_MGMT or TIME_SYNC
carries. -/
structure Msg where
  op : Op
  filt : Bool := false
  dup : Bool := false
  loc : Bool := false
  status : Nat := 0
  srcChip : Nat := 255
  dstChip : Nat := 255
  srcCore : Nat := 0
  srcUnit : Nat := 0
  srcSlot : Nat := 0
  addr : Nat := 0
  tid : Nat := 0
  arg : Nat := 0
  len : Nat := 0
  data : List Byte := []
  uncached : Bool := false
  fillTag : Nat := 0
  epoch : Nat := 0
  acc : Nat := 0
  pos : Nat := 0
  base : Nat := 0
  mgmt : Option Mgmt := none
deriving DecidableEq, Repr

/-- Who makes a device-region access (R39): the steward, the PCIe endpoint, the QSPI target, or a request of another
chip that has arrived at the block hub. -/
inductive DevSrc where
  | steward | pcie | qspi
  | remote (msg : Nat)
deriving DecidableEq, Repr

/-- A device-region access: who makes it, its chip address, its bytes, whether it writes, and what it writes. For an access
of another chip the message says all but the first. -/
structure DevAcc where
  src : DevSrc
  addr : Nat
  len : Nat
  write : Bool
  value : Nat
deriving DecidableEq, Repr

/-- A block with staged fields (Table ADR-4): the bank groups of a core, the event controller, Iris, power control, a link
port, routing and pod, the host block, a queue. -/
inductive CfgBlock where
  | bank (core : Nat)
  | events | iris | power
  | link (port : Nat)
  | pod | host
  | queue (q : Nat)
deriving DecidableEq, Repr

/-- How a PMBus transaction ends (R537): with the word read (0 for a write), or failed. -/
inductive PmbEnd where
  | done (v : Nat)
  | nack | pec | timeout
deriving DecidableEq, Repr

/-- One constructor per row of spec/opcode_table.json. -/
inductive Instr where
  /-- RESET_N_ASSERT (R58): Assertion of RESET_N brings every register of the chip to its reset value and holds the logic in reset. -/
  | resetNAssert (ns : Nat)
  /-- RESET_N_RELEASE (R445): Release of RESET_N starts the timebase at 0 and starts the steward in its ROM phase. -/
  | resetNRelease
  /-- PWR_OK_FALL (R546): A fall of PWR_OK during operation acts as an assertion of RESET_N. -/
  | pwrOkFall (ns : Nat)
  /-- REGISTER_WRITE (R14): A write to a register field with no row of its own acts as the field's access code defines. -/
  | registerWrite (acc : DevAcc)
  /-- READ_TO_CLEAR_READ (R14): A read of an RC field returns its value and clears it in the same access. -/
  | readToClearRead (acc : DevAcc)
  /-- SIZE_ERR_ACCESS (R42): A device-region access of unsupported size or alignment reads zero, has no effect and sets DEC_STATUS.SIZE_ERR. -/
  | sizeErrAccess (acc : DevAcc)
  /-- RSVD_ACCESS (R45): An access to a reserved device-region address reads zero, is ignored, sets RSVD_ACCESS and counts in DEC_RSVD_COUNT. -/
  | rsvdAccess (acc : DevAcc)
  /-- PRIV_WRITE (R47): A write to steward-private space is ignored, sets PRIV_WRITE and counts in DEC_PRIV_COUNT. -/
  | privWrite (acc : DevAcc)
  /-- SLEEP_ACCESS (R48): An access to a register of an unpowered Switched block reads zero, is ignored and sets SLEEP_ACCESS. -/
  | sleepAccess (acc : DevAcc)
  /-- DEC_LOG_REARM (R49): A write of 1 to DEC_LOG_ARM.REARM clears LOG_VALID and allows the next capture. -/
  | decLogRearm
  /-- CFG_COMMIT (R54): A write of 1 to CFG_COMMIT.COMMIT copies the staged set, sets PENDING and clears DIRTY. -/
  | cfgCommit (blk : CfgBlock)
  /-- CFG_COMMIT_APPLY (R55): At the block's commit point the copied set is applied as a whole, PENDING clears and GEN increments. -/
  | cfgCommitApply (blk : CfgBlock) (unit : Nat)
  /-- BANK_GRANT (R62): At a bank-cycle boundary a group grants one requester one group access under Priority or Slotted arbitration. -/
  | bankGrant (core : Nat) (grp : Nat)
  /-- WHEEL_ADVANCE (R70): The core's wheel position advances one slot each bank cycle, and an unused Slotted cycle counts in LOST_SLOTS. -/
  | wheelAdvance (core : Nat)
  /-- GROUP_ACCESS_COMPLETE (R63): A granted group access delivers read data or completes its write 2 bank cycles after its grant. -/
  | groupAccessComplete (core : Nat) (grp : Nat) (flips : List (Nat × Nat))
  /-- SCRUB_WRITE (R82): A pending scrub writes the corrected quarter in a bank cycle that no requester is granted. -/
  | scrubWrite (core : Nat) (grp : Nat)
  /-- STARVE_DETECT (R68): A DMA or remote request in a Priority group that waits more than STARVE_LIMIT arbitrated cycles sets STARVED. -/
  | starveDetect (core : Nat) (grp : Nat)
  /-- ARBITER_GRANT (R98): A remote port, mesh entry or link output arbiter grants one eligible class per grant time by force, credit, wait count and tie order. -/
  | arbiterGrant (arb : Nat)
  /-- MESH_HOP (R625): A flit passes from one mesh router into the next along its row-then-column route. -/
  | meshHop (msg : Nat)
  /-- REMOTE_READ_AT_HOME (R111): A remote read reaches the home remote port and is performed or refused with a status of Table COH-1. -/
  | remoteReadAtHome (msg : Nat)
  /-- REMOTE_WRITE_AT_HOME (R124): A write reaches the home, performs its bank write and opens an invalidation record if the line has an entry. -/
  | remoteWriteAtHome (msg : Nat)
  /-- INVALIDATION_RECORD_OPEN (R128): A write or back-invalidation waiting for a record opens it when a record closes and sends SNOOP_INV. -/
  | invalidationRecordOpen (core : Nat)
  /-- ATOMIC_ADD (R110): A remote ATOMIC_ADD adds its operand at the home, returns the old value and counts as a write for coherence. -/
  | atomicAdd (msg : Nat)
  /-- READ_DATA (R116): Read data arrives at the requester, completes its read and is installed in the RLC unless UNCACHED. -/
  | readData (msg : Nat)
  /-- WRITE_ACK (R124): A WRITE_ACK reaches the requester and completes its write. -/
  | writeAck (msg : Nat)
  /-- SNOOP_INV (R627): A SNOOP_INV reaches an RLC, which drops the line and answers INV_ACK or NOT_HELD. -/
  | snoopInv (msg : Nat)
  /-- INV_ACK (R127): An INV_ACK reaches the home and counts as the sharer's answer or is discarded. -/
  | invAck (msg : Nat)
  /-- NOT_HELD (R127): A NOT_HELD reaches the home and counts as the sharer's answer or is discarded. -/
  | notHeld (msg : Nat)
  /-- EVICT_NOTE (R127): An EVICT_NOTE reaches the home and counts as an answer, removes the sharer, or is discarded and counted late. -/
  | evictNote (msg : Nat)
  /-- BROAD_SNOOP_INV (R126): A broad SNOOP_INV reaches a chip's block hub, which passes it to all 64 RLCs. -/
  | broadSnoopInv (msg : Nat)
  /-- BROADCAST_COMPLETE (R126): When all 64 RLCs have answered, the broadcast unit returns one INV_ACK to the home. -/
  | broadcastComplete (bcast : Nat)
  /-- SWEEP_COMPLETE (R131): A sweep ends when every entry of its groups has been back-invalidated, and SWEEP clears. -/
  | sweepComplete (core : Nat)
  /-- RLC_FLUSH (R120): A write of 1 to RLC_CTRL.FLUSH drops every line with EVICT_NOTE. -/
  | rlcFlush (core : Nat)
  /-- RLC_DISABLE (R120): A change of RLC_CTRL.ENABLE from 1 to 0 drops every line with EVICT_NOTE. -/
  | rlcDisable (core : Nat)
  /-- RLC_FLUSH_COMPLETE (R120): The last flush notice has been sent and FLUSHING clears. -/
  | rlcFlushComplete (core : Nat)
  /-- FENCE_COMPLETE (R137): Every earlier access in a fence's scope is complete and the context is ready again. -/
  | fenceComplete (core : Nat) (slot : Nat)
  /-- MX_LOADA (R155): MX_LOADA queues a copy of LEN blocks from a pod address into the activation buffer. -/
  | mxLoada (core : Nat) (slot : Nat)
  /-- MX_LOADW (R155): MX_LOADW queues a copy of LEN blocks from a pod address into the weight buffer. -/
  | mxLoadw (core : Nat) (slot : Nat)
  /-- MX_BIN (R147): MX_BIN queues a binary XNOR-popcount tile into an accumulator set. -/
  | mxBin (core : Nat) (slot : Nat)
  /-- MX_SER (R149): MX_SER queues a bit-serial tile with plane skipping into an accumulator set. -/
  | mxSer (core : Nat) (slot : Nat)
  /-- MX_STORE (R158): MX_STORE queues the writeback of an accumulator set to the core's own LM in a format. -/
  | mxStore (core : Nat) (slot : Nat)
  /-- MX_CLEAR (R248): MX_CLEAR queues the zeroing of an accumulator set in one step. -/
  | mxClear (core : Nat) (slot : Nat)
  /-- MX_WAIT (R164): MX_WAIT deschedules its context until every earlier matrix command of the context has completed. -/
  | mxWait (core : Nat) (slot : Nat)
  /-- MX_UNIT_START (R162): A matrix unit takes its next queued command once the scoreboard dependencies clear. -/
  | mxUnitStart (core : Nat) (unit : Nat) (perr : List Nat)
  /-- MX_COMMAND_COMPLETE (R153): A matrix unit finishes its command after its step count or its last LM access. -/
  | mxCommandComplete (core : Nat) (unit : Nat)
  /-- MX_WAIT_RESUME (R164): The context of an MX_WAIT is ready again after the last awaited matrix command completes. -/
  | mxWaitResume (core : Nat) (slot : Nat)
  /-- VX_OP (R179): VX_OP computes an element-wise operation over LENGTH elements. -/
  | vxOp (core : Nat) (slot : Nat) (perr : List Nat)
  /-- VX_TABLE (R181): VX_TABLE looks up or interpolates each element through a lookup table. -/
  | vxTable (core : Nat) (slot : Nat) (perr : List Nat)
  /-- VX_SCAN (R186): VX_SCAN runs a chunked associative scan over L positions and CH channels from a carry-in. -/
  | vxScan (core : Nat) (slot : Nat) (perr : List Nat)
  /-- VX_CONVERT (R183): VX_CONVERT converts a stream between integer, LNS16 and bit-plane types. -/
  | vxConvert (core : Nat) (slot : Nat) (perr : List Nat)
  /-- VX_REDUCE (R185): VX_REDUCE combines LENGTH elements into one in a fixed lane and tree order. -/
  | vxReduce (core : Nat) (slot : Nat) (perr : List Nat)
  /-- VX_STEP (R192): A vector step starts when its read data are present and ends when its next read and previous writes are granted. -/
  | vxStep (core : Nat) (perr : List Nat)
  /-- VX_COMMAND_COMPLETE (R191): A vector command's last write completes and its context is ready again. -/
  | vxCommandComplete (core : Nat)
  /-- COMMAND_FETCH_COMPLETE (R204): A 128-byte stripe of a command stream arrives in a slot's fetch buffer. -/
  | commandFetchComplete (core : Nat) (slot : Nat)
  /-- MISALIGNED_CP (R227): A context whose CP has a bit of [2:0] set faults ALIGN at the step in which it would issue. -/
  | misalignedCp (core : Nat) (slot : Nat)
  /-- UNKNOWN_OPCODE (R229): A command word with an opcode absent from Table CMD-2 faults ILLEGAL_CMD as a one-word command. -/
  | unknownOpcode (core : Nat) (slot : Nat)
  /-- NOP (R233): NOP does nothing and advances CP. -/
  | nop (core : Nat) (slot : Nat)
  /-- END (R207): END stops an unbound context or sets TAKE on a bound one. -/
  | endCommand (core : Nat) (slot : Nat)
  /-- JUMP (R235): JUMP sets CP to TARGET. -/
  | jump (core : Nat) (slot : Nat)
  /-- CALL (R235): CALL pushes CP + 8 on the call stack and sets CP to TARGET. -/
  | call (core : Nat) (slot : Nat)
  /-- RET (R235): RET starts the read of the return offset at CSP. -/
  | ret (core : Nat) (slot : Nat)
  /-- RET_OFFSET_READ (R235): The return offset arrives, CSP rises by 8 and CP is set from it. -/
  | retOffsetRead (core : Nat) (slot : Nat)
  /-- LOOP (R236): LOOP pushes a loop level, or with COUNT 0 jumps to EXIT. -/
  | loop (core : Nat) (slot : Nat)
  /-- ENDLOOP (R236): ENDLOOP decrements the innermost count and loops or removes the level. -/
  | endloop (core : Nat) (slot : Nat)
  /-- YIELD (R203): YIELD holds its context until every other ready context has issued once. -/
  | yield (core : Nat) (slot : Nat)
  /-- SETREG (R237): SETREG sets, adds, copies, ANDs, loads or stores a scratch value. -/
  | setreg (core : Nat) (slot : Nat)
  /-- SETREG_LOAD_DATA (R237): The data of a SETREG LOAD arrives and is written to its scratch value. -/
  | setregLoadData (core : Nat) (slot : Nat)
  /-- BRANCH_IF (R238): BRANCH_IF sets CP to TARGET when its condition holds. -/
  | branchIf (core : Nat) (slot : Nat)
  /-- SIGNAL (R239): SIGNAL sends an add of AMOUNT to a local or chip sync counter. -/
  | signal (core : Nat) (slot : Nat)
  /-- WAIT (R240): WAIT deschedules its context until a counter reaches TARGET. -/
  | wait (core : Nat) (slot : Nat)
  /-- FENCE (R241): FENCE makes its context not ready until its scope is complete. -/
  | fence (core : Nat) (slot : Nat)
  /-- BLOOM_ARRIVE (R242): BLOOM_ARRIVE records the core's arrival at a Bloom line. -/
  | bloomArrive (core : Nat) (slot : Nat)
  /-- ASTER_ARRIVE (R242): ASTER_ARRIVE records the core's arrival at an Aster barrier. -/
  | asterArrive (core : Nat) (slot : Nat)
  /-- WAIT_BARRIER (R243): WAIT_BARRIER deschedules its context until a line phase or barrier generation completes. -/
  | waitBarrier (core : Nat) (slot : Nat)
  /-- DMA_POST (R251): DMA_POST pushes a descriptor into a channel's DMA queue and increments DMA_OUT. -/
  | dmaPost (core : Nat) (slot : Nat)
  /-- DMA_WAIT (R252): DMA_WAIT deschedules its context until its earlier descriptors have finished. -/
  | dmaWait (core : Nat) (slot : Nat)
  /-- QUEUE_PUSH (R253): QUEUE_PUSH reads an entry from LM and sends it to a queue of any chip. -/
  | queuePush (core : Nat) (slot : PushSlot)
  /-- QUEUE_POP (R253): QUEUE_POP requests the head entry of a queue of this chip for DST. -/
  | queuePop (core : Nat) (slot : Nat)
  /-- EVENT_RAISE (R255): EVENT_RAISE presents one event with a payload on a source of a chip. -/
  | eventRaise (core : Nat) (slot : Nat)
  /-- DEADLINE_SET (R256): DEADLINE_SET arms an absolute or relative deadline, raising any pending CONTINUE miss first. -/
  | deadlineSet (core : Nat) (slot : Nat)
  /-- DEADLINE_CLEAR (R256): DEADLINE_CLEAR disarms the deadline, raising any pending CONTINUE miss first. -/
  | deadlineClear (core : Nat) (slot : Nat)
  /-- TIMESTAMP (R257): TIMESTAMP writes the timebase value to a scratch value. -/
  | timestamp (core : Nat) (slot : Nat)
  /-- CONTEXT_TAKE (R206): A bound context with TAKE set takes one entry of its COMMAND queue and sets CP and S[7]. -/
  | contextTake (core : Nat) (slot : Nat)
  /-- WAIT_SATISFIED (R205): A waiting context's condition becomes true and it is ready again. -/
  | waitSatisfied (core : Nat) (slot : Nat)
  /-- SEQ_OP_START (R211): A GO with OP START makes a stopped or faulted slot ACTIVE. -/
  | seqOpStart (core : Nat) (slot : Nat)
  /-- SEQ_OP_STOP (R211): A GO with OP STOP quiesces a slot and then stops it. -/
  | seqOpStop (core : Nat) (slot : Nat)
  /-- SEQ_OP_SAVE (R214): A GO with OP SAVE quiesces a slot, waits for DMA and writes its image. -/
  | seqOpSave (core : Nat) (slot : Nat)
  /-- SEQ_OP_RESTORE (R215): A GO with OP RESTORE reads an image into an EMPTY slot. -/
  | seqOpRestore (core : Nat) (slot : Nat)
  /-- SEQ_OP_CLEAR (R211): A GO with OP CLEAR empties a stopped or faulted slot. -/
  | seqOpClear (core : Nat) (slot : Nat)
  /-- QUIESCE_COMPLETE (R212): The slot's vector, matrix and remote work has completed and the quiescing operation proceeds. -/
  | quiesceComplete (core : Nat) (slot : Nat)
  /-- SAVE_IMAGE_WRITE (R214): Once DMA_OUT is 0 the image is written at CSA and the slot becomes EMPTY when the writes complete. -/
  | saveImageWrite (core : Nat) (slot : Nat)
  /-- RESTORE_IMAGE_READ (R215): The restore's image read completes and the slot takes its fields or the RESTORE ends BAD_IMAGE. -/
  | restoreImageRead (core : Nat) (slot : Nat)
  /-- DEADLINE_MISS (R217): The timebase passes an armed deadline, setting DL_MISSED and raising the deadline source. -/
  | deadlineMiss (core : Nat) (slot : Nat)
  /-- ASYNC_FAULT_RAISE (R628): An asynchronous fault is raised at the context's next command boundary. -/
  | asyncFaultRaise (core : Nat) (slot : Nat)
  /-- LOCAL_COUNTER_ADD (R262): A signal reaches a local sync counter and adds its amount or is refused. -/
  | localCounterAdd (msg : Nat)
  /-- COUNTER_ADD (R263): The chip counter block applies one add to a chip counter, checking pair bounds and testing registrations. -/
  | counterAdd (msg : Nat) (ecc : Nat)
  /-- COUNTER_SIGNAL_WRITE (R263): A host write to a chip counter's SIGNAL register adds AMOUNT as a signal. -/
  | counterSignalWrite (counter : Nat) (amount : Nat)
  /-- LCNT_SIGNAL_WRITE (R262): A write to LCNT_SIGNAL adds AMOUNT to a local counter or is refused. -/
  | lcntSignalWrite (core : Nat) (counter : Nat) (amount : Nat)
  /-- COUNTER_VALUE_WRITE (R270): A software write to a counter's VALUE, mode or pair fields re-tests every wait on it. -/
  | counterValueWrite (counter : Nat) (cfg : Bool) (value : Nat)
  /-- WAIT_REGISTER (R266): A wait registration reaches the counter's chip, which notifies at once or holds it. -/
  | waitRegister (msg : Nat)
  /-- REGISTRATION_RESEND (R268): 256 ticks after a FULL answer the waiting core resends its registration. -/
  | registrationResend (core : Nat) (slot : Nat)
  /-- WAIT_NOTIFY (R266): A WAIT_NOTIFY reaches the waiting core and makes the wait's condition true. -/
  | waitNotify (msg : Nat)
  /-- WAIT_CANCEL (R269): A context leaving WAITING other than by its condition cancels its registration. -/
  | waitCancel (core : Nat) (slot : Nat)
  /-- BLOOM_ARRIVAL_APPLY (R274): A Bloom line applies an arrival and completes when ARRIVED covers MASK. -/
  | bloomArrivalApply (msg : Nat)
  /-- BARRIER_MASK_WRITE (R277): A write to a line or barrier MASK clears ARRIVED bits outside it and may complete it. -/
  | barrierMaskWrite (aster : Bool) (index : Nat) (mask : Nat) (kids : List Nat)
  /-- ASTER_ARRIVAL_APPLY (R280): An Aster barrier applies a core's arrival and sends BARRIER_ARRIVE when its subtree is complete. -/
  | asterArrivalApply (msg : Nat) (kids : List Nat)
  /-- BARRIER_ARRIVE (R280): A BARRIER_ARRIVE from a child reaches its parent, and the root completes the generation. -/
  | barrierArrive (msg : Nat) (kids : List Nat)
  /-- BARRIER_RELEASE (R280): A BARRIER_RELEASE sets GEN, clears ARRIVED, releases waiters and is relayed down. -/
  | barrierRelease (msg : Nat)
  /-- WAIT_TIMEOUT (R286): A covered wait lasting past WD_LIMIT faults WAIT_TIMEOUT and cancels its registration. -/
  | waitTimeout (core : Nat) (slot : Nat)
  /-- QUEUE_PUSH_PERFORM (R299): The queue engine performs a push, writing the entry at PROD or refusing it. -/
  | queuePushPerform (msg : Nat) (ecc : Nat)
  /-- QUEUE_PUSH_COMMIT (R299): When a push's entry write completes, PROD advances and commits the entry. -/
  | queuePushCommit (queue : Nat)
  /-- QUEUE_POP_PERFORM (R300): The queue engine performs a pop, reading and delivering the entry at CONS or refusing it. -/
  | queuePopPerform (msg : Nat)
  /-- QUEUE_POP_DELIVERED (R300): When a pop, take or fetch delivery completes, CONS advances. -/
  | queuePopDelivered (queue : Nat)
  /-- DB_PROD_WRITE (R302): A write to DB_PROD commits entries up to V or is ignored with DB_BAD. -/
  | dbProdWrite (queue : Nat) (value : Doorbell)
  /-- DB_CONS_WRITE (R302): A write to DB_CONS releases entries up to V or is ignored with DB_BAD. -/
  | dbConsWrite (queue : Nat) (value : Doorbell)
  /-- QUEUE_HOLD_SET (R310): Setting CTRL.HOLD makes the queue engine place new operations in the hold list. -/
  | queueHoldSet (queue : Nat)
  /-- QUEUE_HOLD_RELEASE (R311): Clearing CTRL.HOLD performs the queue's held operations in arrival order. -/
  | queueHoldRelease (queue : Nat)
  /-- DMA_DESCRIPTOR_FETCH (R314): A channel with room fetches the entry at the consumer index of its DMA queue. -/
  | dmaDescriptorFetch (core : Nat) (chan : Nat)
  /-- DMA_DESCRIPTOR_START (R318): A channel starts a descriptor and checks its fields, halting on an invalid one. -/
  | dmaDescriptorStart (core : Nat) (chan : Nat)
  /-- DMA_TRANSACTION_ISSUE (R321): A channel issues its next transaction of at most 4 KiB in row-major order. -/
  | dmaTransactionIssue (core : Nat) (chan : Nat)
  /-- DMA_TRANSACTION_COMPLETE (R320): A DMA transaction's reads and writes complete. -/
  | dmaTransactionComplete (core : Nat) (chan : Nat) (txn : Nat)
  /-- DMA_COMPLETION_ACTION (R322): After every write of a descriptor completes, its signal and then its event take place. -/
  | dmaCompletionAction (core : Nat) (chan : Nat)
  /-- DMA_HALT (R336): After a fault and the drain of outstanding transactions the channel is HALTED with progress saved. -/
  | dmaHalt (core : Nat) (chan : Nat)
  /-- DMA_RESUME (R339): A write of 1 to CH_CTRL.RESUME restarts a halted descriptor from CH_PROG. -/
  | dmaResume (core : Nat) (chan : Nat)
  /-- DMA_SKIP (R339): A write of 1 to CH_CTRL.SKIP drops a halted descriptor without its completion action. -/
  | dmaSkip (core : Nat) (chan : Nat)
  /-- TRANSLATION_WALK (R331): A TLB miss starts a three-level walk of the translation tables. -/
  | translationWalk (page : Nat)
  /-- TRANSLATION_WALK_COMPLETE (R331): A walk ends, installing its leaf in the TLB or faulting DMA_WALK_FAULT or DMA_WALK_DEVREG. -/
  | translationWalkComplete (page : Nat)
  /-- HT_INV_ALL (R334): A GO with MODE 1 drops every TLB entry. -/
  | htInvAll
  /-- HT_INV_PAGE (R334): A GO with MODE 2 drops the TLB entries of HT_INV_ADDR. -/
  | htInvPage
  /-- HT_INV_COMPLETE (R334): Every access that used a dropped translation completes and BUSY clears. -/
  | htInvComplete
  /-- HOST_READ_COMPLETION (R325): A PCIe completion for a host read arrives, good or with an error status. -/
  | hostReadCompletion (tag : Nat) (status : Nat) (pos : Nat) (data : List Byte)
  /-- COMPLETION_TIMEOUT (R514): A host read with no completion after the timeout fails with DMA_HOST_ERROR TIMEOUT. -/
  | completionTimeout (tag : Nat)
  /-- SOURCE_INPUT_CHANGE (R346): An event source input changes and is sensed as an edge event or level request. -/
  | sourceInputChange (source : Nat)
  /-- EVT_RAISE (R369): A write to EVT_RAISE presents one edge event on a software source. -/
  | evtRaise (source : Nat) (payload : Nat)
  /-- PEND_SET (R371): A write to a PEND SET bit makes an idle source PENDING as an edge request. -/
  | pendSet (source : Nat)
  /-- PEND_CLR (R357): A write to a PEND CLR bit withdraws the source's request. -/
  | pendClr (source : Nat)
  /-- EVT_MASK_WRITE (R349): A write to a MASK SET or CLR address masks or unmasks sources at once. -/
  | evtMaskWrite (group : Nat) (set : Bool) (value : Nat)
  /-- EVENT_SELECT (R354): The controller selects the next selectable source and starts writing its record. -/
  | eventSelect
  /-- RECORD_CLAIM (R356): A record commits into its target's EVENT queue, making the source IN_SERVICE and starting hold-off. -/
  | recordClaim (queue : Nat) (ecc : Nat)
  /-- EVT_COMPLETE (R359): A write of a source number to EVT_COMPLETE completes a WRITE source and re-samples it. -/
  | evtComplete (source : Nat)
  /-- HOLDOFF_EXPIRY (R363): A group's hold-off of HOLDOFF ticks ends and its sources may be selected again. -/
  | holdoffExpiry (group : Nat)
  /-- COALESCE_TIMER_EXPIRY (R364): COAL_T ticks after the first commit to an empty queue INT rises. -/
  | coalesceTimerExpiry (target : Nat)
  /-- EVENT_MSG (R370): An EVENT_MSG from another chip presents one raise exactly once. -/
  | eventMsg (msg : Nat)
  /-- CODEWORD_RECEIVE (R379): A receiver decodes one RS(272,256) codeword and passes or discards its two flits. -/
  | codewordReceive (port : Nat) (units : List (List Nat))
  /-- FLIT_RECEIVE (R389): A flit with a good CRC is accepted in sequence, discarded as duplicate or lost, and its ACK and CRET fields used. -/
  | flitReceive (port : Nat)
  /-- REPLAY_TIMEOUT (R391): The oldest unacknowledged flit unacknowledged for REPLAY_TIMEOUT starts a replay. -/
  | replayTimeout (port : Nat)
  /-- FLIT_TRANSMIT (R387): A port transmits a flit, giving a new sequenced flit its SEQ and keeping it in the replay buffer. -/
  | flitTransmit (port : Nat)
  /-- CREDIT_INIT (R399): A CREDIT_INIT message carries the partner's VC offers. -/
  | creditInit (port : Nat)
  /-- CREDIT_INIT_ACK (R399): A CREDIT_INIT_ACK ends the sender's CREDIT_INIT repetition. -/
  | creditInitAck (port : Nat)
  /-- REMAP (R406): A REMAP message makes the transmitter switch to the new lane map at the next codeword boundary. -/
  | remap (port : Nat)
  /-- RETRAIN (R399): A RETRAIN message makes the port enter TRAIN. -/
  | retrain (port : Nat)
  /-- TRAINING_SET_RECEIVED (R400): A training set is received and advances the port through its training stages. -/
  | trainingSetReceived (port : Nat) (sets : List (Nat × List Byte))
  /-- TRAINING_STAGE_TIMEOUT (R400): A training stage that exceeds its limit fails the training and sets TRAIN_FAIL. -/
  | trainingStageTimeout (port : Nat)
  /-- LOCK_ACHIEVED (R400): Eight consecutive correctable codewords give lock at a training, remap or resume. -/
  | lockAchieved (port : Nat)
  /-- LISTEN_BACKOFF_EXPIRY (R430): A port's listen backoff ends and it starts transmitting training sets. -/
  | listenBackoffExpiry (port : Nat)
  /-- LOSS_OF_SIGNAL (R404): Loss of signal on a lane marks it failed and starts a remap. -/
  | lossOfSignal (port : Nat) (lane : Nat)
  /-- LANE_FAIL_WINDOW (R404): At the end of a 1 ms window a lane whose corrected-symbol count exceeds LANE_FAIL_THRESH is marked failed. -/
  | laneFailWindow (port : Nat)
  /-- REMAP_TIMEOUT (R407): A remap without lock 2.0 µs after the lane failure ends in a retrain. -/
  | remapTimeout (port : Nat)
  /-- QUAR_HOLD_EXPIRY (R412): After QUAR_HOLD a port leaves QUARANTINE for DOWN. -/
  | quarHoldExpiry (port : Nat)
  /-- LNK_RETRAIN_WRITE (R409): A write of 1 to LNK_CTRL.RETRAIN makes the port enter TRAIN and send RETRAIN. -/
  | lnkRetrainWrite (port : Nat)
  /-- LNK_RELEASE_WRITE (R412): A write of 1 to LNK_CTRL.RELEASE moves a quarantined port to DOWN. -/
  | lnkReleaseWrite (port : Nat)
  /-- LNK_DISABLE_WRITE (R410): A write to LNK_CTRL.DISABLE holds the port in DOWN or lets it listen. -/
  | lnkDisableWrite (port : Nat) (on : Bool)
  /-- TRANSACTION_ARRIVAL (R436): A transaction's HEAD reaches its destination chip, which checks epoch, filter and readiness and performs it. -/
  | transactionArrival (port : Nat) (vc : Nat) (core : Nat) (mark : Nat)
  /-- NAK_NOT_READY (R429): A NAK_NOT_READY answer reaches the requester, which backs off the request. -/
  | nakNotReady (port : Nat)
  /-- NOT_READY_RETRY (R429): After max(hint, B) µs the requester sends the request again with its TID. -/
  | notReadyRetry (req : Nat)
  /-- EPOCH_STALE (R437): An EPOCH_STALE answer reaches the requester, which resends once it adopts a newer epoch. -/
  | epochStale (port : Nat)
  /-- RESPONSE_ARRIVAL (R419): A response for an outstanding TID completes it, and later or unknown ones are discarded. -/
  | responseArrival (port : Nat) (vc : Nat) (uncached : Bool) (fillTag : Nat)
  /-- FLIT_FORWARD (R422): A chip forwards a flit for another chip through its port crossbar, or discards an unroutable request. -/
  | flitForward (port : Nat) (vc : Nat)
  /-- CANDIDATE (R431): A CANDIDATE message arrives and the chip adopts it if better. -/
  | candidate (port : Nat) (cand : Cand) (serial : Nat) (parent : Nat)
  /-- CANDIDATE_PERIODIC_SEND (R431): Every 1 ms a chip sends its candidate to every neighbour. -/
  | candidatePeriodicSend
  /-- ROOT_DECLARE (R432): A chip whose own candidate has been unchanged for 20 ms becomes root. -/
  | rootDeclare
  /-- REPORT_SEND (R432): A chip whose candidate is stable for 10 ms and whose children reported sends REPORT to its parent. -/
  | reportSend
  /-- REPORT (R432): A REPORT reaches the parent with its subtree's topology. -/
  | report (port : Nat) (chips : List RepChip)
  /-- NEW_EPOCH (R434): A NEW_EPOCH message is adopted by a commit of the routing and pod block and relayed down. -/
  | newEpoch (port : Nat) (e : NewEp)
  /-- EPOCH_ACK (R434): An EPOCH_ACK from a child reaches its parent. -/
  | epochAck (port : Nat) (epoch : Nat)
  /-- LINK_EVENT (R438): A LINK_EVENT reaches the root, which starts a new epoch. -/
  | linkEvent (port : Nat) (evPort : Nat) (st : Nat) (partner : Nat)
  /-- LEAVE (R439): A LEAVE message reaches the root, which starts an epoch without the chip. -/
  | leave (port : Nat) (serial : Nat)
  /-- TIME_SYNC_TIMER (R441): Every 1 ms a non-root member sends TIME_SYNC REQUEST to its parent. -/
  | timeSyncTimer
  /-- TIME_SYNC_REQUEST (R441): A TIME_SYNC REQUEST arrives and the parent answers REPLY. -/
  | timeSyncRequest (port : Nat) (t1 : Nat)
  /-- TIME_SYNC_REPLY (R441): A TIME_SYNC REPLY arrives and the child steers its timebase rate. -/
  | timeSyncReply (port : Nat) (t1 : Nat) (t2 : Nat) (t3 : Nat)
  /-- BOOT_SEL_READ (R446): 5 ms after RESET_N release the boot ROM reads BOOT_SEL and loads flash, waits for a host or fails. -/
  | bootSelRead (sel : Nat)
  /-- BOOT_CTRL_GO (R448): A GO write in WAIT_HOST starts loading the host-written image. -/
  | bootCtrlGo (length : Nat)
  /-- IMAGE_CHECK_COMPLETE (R449): The loaded image is checked and run, or rejected to the other slot, WAIT_HOST or BOOT_FAIL. -/
  | imageCheckComplete (slotA : List Byte) (slotB : List Byte)
  /-- STEWARD_READY (R450): Once init is done the steward enters READY and opens POD_MGMT. -/
  | stewardReady
  /-- MAILBOX_DOORBELL (R453): A write to DOORBELL.RING latches the request and posts the channel, or is dropped. -/
  | mailboxDoorbell (chan : Nat) (origin : Nat)
  /-- MAILBOX_COMMAND_START (R454): The steward takes a posted channel in round-robin order and starts its command. -/
  | mailboxCommandStart
  /-- MAILBOX_COMMAND_DONE (R455): The steward writes the response slot and sets the channel DONE in one step. -/
  | mailboxCommandDone (chan : Nat)
  /-- MAILBOX_COMMAND_TIMEOUT (R479): A command still in progress when its limit expires is answered TIMEOUT. -/
  | mailboxCommandTimeout (chan : Nat)
  /-- STEWARD_EXCEPTION (R467): An unresumable steward exception writes STW_HALT, journals if it can and halts the steward. -/
  | stewardException (cause : Nat) (spValid : Bool) (dump : List Byte)
  /-- GET_INFO (R470): GET_INFO returns serial, versions, resources and the timebase. -/
  | getInfo (chan : Nat)
  /-- GET_STATUS (R482): GET_STATUS returns phase, pod state, power, temperature and link states. -/
  | getStatus (chan : Nat)
  /-- RESET_CHIP (R482): RESET_CHIP records itself completed, discards posted commands and resets the chip. -/
  | resetChip (chan : Nat)
  /-- LOAD_IMAGE (R483): LOAD_IMAGE writes bytes into a core's LM from bulk input, host or pod memory. -/
  | loadImage (chan : Nat)
  /-- VERIFY_IMAGE (R483): VERIFY_IMAGE reads LM bytes and compares their CRC with EXPECT. -/
  | verifyImage (chan : Nat)
  /-- CONTEXT_CREATE (R484): CONTEXT_CREATE writes a new image at CSA and restores it into an EMPTY slot. -/
  | contextCreate (chan : Nat)
  /-- CONTEXT_START (R485): CONTEXT_START performs SEQ_OP START on a slot. -/
  | contextStart (chan : Nat)
  /-- CONTEXT_STOP (R485): CONTEXT_STOP performs SEQ_OP STOP on a slot. -/
  | contextStop (chan : Nat)
  /-- CONTEXT_SAVE (R485): CONTEXT_SAVE performs SEQ_OP SAVE and optionally copies the image. -/
  | contextSave (chan : Nat)
  /-- CONTEXT_RESTORE (R485): CONTEXT_RESTORE stages an image if needed and performs SEQ_OP RESTORE. -/
  | contextRestore (chan : Nat)
  /-- CONTEXT_QUERY (R486): CONTEXT_QUERY returns the live registers of a slot. -/
  | contextQuery (chan : Nat)
  /-- QUEUE_CREATE (R487): QUEUE_CREATE writes and commits a descriptor for a queue of TYPE NONE. -/
  | queueCreate (chan : Nat)
  /-- QUEUE_DESTROY (R488): QUEUE_DESTROY holds a queue and commits TYPE NONE. -/
  | queueDestroy (chan : Nat)
  /-- QUEUE_RESIZE (R488): QUEUE_RESIZE holds, copies live entries and commits a new ring geometry. -/
  | queueResize (chan : Nat)
  /-- MEM_CONFIG (R489): MEM_CONFIG commits new group modes and RLC settings for a core, or queries them. -/
  | memConfig (chan : Nat)
  /-- SLOT_TABLE_SET (R489): SLOT_TABLE_SET commits new slot wheels for a core's groups, or queries them. -/
  | slotTableSet (chan : Nat)
  /-- SYNC_CONFIG (R490): SYNC_CONFIG sets a counter's value, configuration, pairing and status. -/
  | syncConfig (chan : Nat)
  /-- BARRIER_CONFIG (R491): BARRIER_CONFIG writes the MASK of a Bloom line or Aster barrier. -/
  | barrierConfig (chan : Nat) (kids : List Nat)
  /-- EVENT_ROUTE (R492): EVENT_ROUTE sets a source's sensing, completion, routing and mask. -/
  | eventRoute (chan : Nat)
  /-- EVENT_MODERATE (R492): EVENT_MODERATE sets a target's coalescing and a group's hold-off. -/
  | eventModerate (chan : Nat)
  /-- HOST_MAP (R493): HOST_MAP sets up the translation area or maps a range of pages. -/
  | hostMap (chan : Nat)
  /-- HOST_UNMAP (R494): HOST_UNMAP clears leaves of a range and invalidates the TLB. -/
  | hostUnmap (chan : Nat)
  /-- POD_STATUS (R494): POD_STATUS returns pod state, membership and per-port link states. -/
  | podStatus (chan : Nat)
  /-- POD_JOIN (R495): POD_JOIN enables ports and optionally waits for membership. -/
  | podJoin (chan : Nat)
  /-- POD_LEAVE (R495): POD_LEAVE sends LEAVE, disables ports and waits until the chip is ALONE. -/
  | podLeave (chan : Nat)
  /-- LINK_CONFIG (R496): LINK_CONFIG commits LNK_CFG and performs RELEASE and RETRAIN on a port. -/
  | linkConfig (chan : Nat)
  /-- POWER_SET (R497): POWER_SET sends fixed setpoints or engages adaptive control. -/
  | powerSet (chan : Nat)
  /-- SLEEP_ENTER (R564): SLEEP_ENTER leaves the pod, stops cores 1–63, flushes and sweeps and gates the Switched blocks. -/
  | sleepEnter (chan : Nat)
  /-- SLEEP_DRAIN_TIMEOUT (R564): 100 µs after stopping issue the steward abandons the remaining work of cores 1–63. -/
  | sleepDrainTimeout
  /-- CORE_POWER (R499): CORE_POWER powers cores up or down. -/
  | corePower (chan : Nat)
  /-- MONITOR_CONFIG (R500): MONITOR_CONFIG sets an Iris unit's probe, binning and selection. -/
  | monitorConfig (chan : Nat)
  /-- MONITOR_READ (R500): MONITOR_READ snapshots named Iris units at one boundary and returns them. -/
  | monitorRead (chan : Nat)
  /-- DEADLINE_POLICY (R486): DEADLINE_POLICY writes a slot's policy and watchdog limit. -/
  | deadlinePolicy (chan : Nat)
  /-- FAULT_LOG_READ (R501): FAULT_LOG_READ writes journal entries to the bulk output queue. -/
  | faultLogRead (chan : Nat)
  /-- FAULT_LOG_CLEAR (R502): FAULT_LOG_CLEAR erases the journal sector and keeps the entry count. -/
  | faultLogClear (chan : Nat)
  /-- AUDIO_CONFIG (R504): AUDIO_CONFIG checks and commits an audio port's configuration. -/
  | audioConfig (chan : Nat)
  /-- FIRMWARE_UPDATE (R505): FIRMWARE_UPDATE writes one chunk of a new image into the other flash slot. -/
  | firmwareUpdate (chan : Nat)
  /-- WATCHDOG_SET (R503): WATCHDOG_SET sets the chip watchdog period and feeding mode, or feeds it. -/
  | watchdogSet (chan : Nat)
  /-- WINDOW_0_ACCESS (R507): A host access through Window 0 reaches the mailbox block or the MSI-X structures. -/
  | window0Access (write : Bool) (off : Nat) (len : Nat) (value : Nat)
  /-- LM_APERTURE_ACCESS (R508): A host access through the LM aperture is performed as DMR or DMW of the owning core. -/
  | lmApertureAccess (write : Bool) (off : Nat) (data : List Byte) (en : List Bool)
  /-- POD_APERTURE_ACCESS (R509): A host access through the pod aperture is performed as a remote access with requester code 65. -/
  | podApertureAccess (write : Bool) (off : Nat) (data : List Byte)
  /-- MSI_X_UNMASK (R513): Unmasking a vector with its pending bit and INT still 1 sends one message. -/
  | msiXUnmask (vec : Nat)
  /-- PCIE_D3HOT_ENTRY (R512): The endpoint enters D3hot and stops host accesses and MSI-X messages. -/
  | pcieD3hotEntry
  /-- PERST_N_ASSERT (R515): PERST_N resets the endpoint alone and fails host accesses in progress. -/
  | perstNAssert
  /-- PCIE_LINK_DOWN (R515): Loss of the PCIe link resets the endpoint alone and sets LINK_DOWN. -/
  | pcieLinkDown
  /-- QSPI_READ (R519): A QSPI READ frame fetches chip data from an address until QT_CS_N rises. -/
  | qspiRead (addr : Nat) (bytes : Nat) (late : List Nat)
  /-- QSPI_WRITE (R520): A QSPI WRITE frame writes data to chip addresses in 4- or 8-byte accesses. -/
  | qspiWrite (addr : Nat) (data : List Byte)
  /-- QSPI_READ_STATUS (R517): A READ_STATUS frame returns the target's status byte. -/
  | qspiReadStatus
  /-- QSPI_SET_LINES (R518): A SET_LINES frame sets the data lines from the next frame. -/
  | qspiSetLines (value : Nat)
  /-- QSPI_INVALID_COMMAND (R517): A frame with an unknown command byte is ignored and sets CMD_ERR. -/
  | qspiInvalidCommand (cmd : Nat)
  /-- AUDIO_FRAME (R525): An audio frame completes and its samples are placed in the buffer at its frame position. -/
  | audioFrame (port : Nat) (periods : Nat) (samples : List Nat) (late : Bool)
  /-- AUDIO_LINE_WRITE_COMPLETE (R524): An audio port's 64-byte line write into core 0's LM completes. -/
  | audioLineWriteComplete (port : Nat)
  /-- PMBUS_POLL (R536): Every 1 ms the I2C controller reads READ_VOUT, READ_IOUT and STATUS_WORD of each rail. -/
  | pmbusPoll
  /-- PMBUS_TRANSACTION_END (R537): A PMBus transaction ends, succeeding or being retried or failing with NACK, PEC or TIMEOUT. -/
  | pmbusTransactionEnd (how : PmbEnd)
  /-- I2C_TARGET_WRITE (R538): A board controller's write transaction sets the status-file pointer. -/
  | i2cTargetWrite (data : List Byte)
  /-- I2C_TARGET_READ (R538): A read transaction latches the status file and returns bytes from the pointer. -/
  | i2cTargetRead (bytes : Nat)
  /-- GPIO_PIN_CHANGE (R539): A GPIO pin level changes and reaches GPIO_IN at once or after the filter. -/
  | gpioPinChange (pin : Nat) (level : Bool)
  /-- GPIO_FILTER_EXPIRY (R540): A pin level held for FILTER µs reaches GPIO_IN. -/
  | gpioFilterExpiry (pin : Nat)
  /-- JTAG_EXTEST (R541): EXTEST drives the boundary-scan register onto the pins. -/
  | jtagExtest (bsr : Nat)
  /-- JTAG_IDCODE (R541): IDCODE selects the identification register. -/
  | jtagIdcode
  /-- JTAG_SAMPLE_PRELOAD (R541): SAMPLE/PRELOAD samples and preloads the boundary-scan register. -/
  | jtagSamplePreload (levels : Nat) (bsr : Nat)
  /-- JTAG_BYPASS (R541): BYPASS selects the one-bit bypass register. -/
  | jtagBypass (code : Nat)
  /-- SPEED_INDEX_UPDATE (R552): Every 1 µs the tempo sensors update SPX and SPX_FLOOR. -/
  | speedIndexUpdate (core : List Nat) (sepal : List Nat) (low : Nat)
  /-- ADAPTIVE_STEP (R557): Every 1 ms adaptive control compares SPX.CORE with SPX_TARGET and moves VCORE by 5 mV. -/
  | adaptiveStep
  /-- THERMAL_SAMPLE (R559): Every 10 µs the temperature sensors update TJ.MAX and TJ_PEAK. -/
  | thermalSample (temps : List Int)
  /-- THERMAL_CEILING_STEP (R560): The steward lowers or raises the thermal ceiling by 10 mV on its period. -/
  | thermalCeilingStep
  /-- THERMAL_TRIP (R561): A sensor at 115 °C or more forces Sleep and sets TRIPPED. -/
  | thermalTrip
  /-- BROWNOUT (R562): VCORE below 0.42 V for more than 1 µs forces Sleep and sets BROWNOUT. -/
  | brownout
  /-- WAKE_ACCEPT (R565): The steward accepts a wake request and starts the wake sequence. -/
  | wakeAccept
  /-- VCORE_OK (R566): The on-die monitor reports VCORE in range and the power gates start closing. -/
  | vcoreOk
  /-- VCORE_OK_TIMEOUT (R567): Without VCORE_OK within 20 µs the wake is abandoned and VCORE_LOST set. -/
  | vcoreOkTimeout
  /-- POWER_GATE_STAGE (R566): Each 0.8 µs one stage of power gates closes. -/
  | powerGateStage
  /-- WAKE_LM_ZERO_COMPLETE (R566): The LM of cores 1–63 has been zeroed and the Switched registers hold reset values. -/
  | wakeLmZeroComplete
  /-- WAKE_RESTORE_COMPLETE (R566): The recorded configuration is restored and PWR_STATE becomes AWAKE. -/
  | wakeRestoreComplete
  /-- REGULATOR_UPDATE (R555): The power control step sends setpoints and applies committed power configuration. -/
  | regulatorUpdate
  /-- SPX_FLOOR_REARM (R552): A write of 1 to SPX_FLOOR.REARM sets both floors to 0xFF. -/
  | spxFloorRearm
  /-- TJ_PEAK_REARM (R559): A write of 1 to TJ_PEAK.REARM sets PEAK to 0x8000. -/
  | tjPeakRearm
  /-- REFCLK_LOSS (R575): REFCLK stops or leaves ±500 ppm and the PLL enters holdover. -/
  | refclkLoss
  /-- HOLDOVER_END (R575): 1 ms after REFCLK returns to range holdover ends without a step. -/
  | holdoverEnd
  /-- SNAPSHOT_BOUNDARY (R583): At each multiple of 1,000 ticks a requested snapshot copies and optionally clears units. -/
  | snapshotBoundary
  /-- IRIS_SNAP_GO (R583): A write of 1 to IRIS_SNAP.GO requests a snapshot at the next boundary. -/
  | irisSnapGo
  /-- WATCHDOG_FEED (R587): The steward feeds the chip watchdog every quarter period. -/
  | watchdogFeed
  /-- WATCHDOG_EXPIRY (R588): The chip watchdog expires and the chip freezes. -/
  | watchdogExpiry
  /-- WATCHDOG_SNAPSHOT (R588): Once every sequencer has stopped the snapshot is captured or LOST counted. -/
  | watchdogSnapshot
  /-- WD_RELEASE (R591): A write of 1 to WD_CTRL.RELEASE resets a frozen chip. -/
  | wdRelease (ramOk : Bool)
  /-- JOURNAL_ENTRY_WRITE (R595): The steward journals an observed occurrence, or SUPPRESSED counts it. -/
  | journalEntryWrite
  /-- PWR_OK_RISE (R546): PWR_OK rises and the T64 stops holding its logic in reset. -/
  | pwrOkRise
  /-- PCIE_LINK_UP (R542): The PCIe link comes up after training, setting PCIE_STATUS.LINK_UP and raising source 0x910. -/
  | pcieLinkUp (speed : Nat) (width : Nat)
  /-- PCIE_CONFIG_WRITE (R327): A host configuration write sets or clears Bus Master Enable, Memory Space Enable or the MSI-X Function Mask, or returns the endpoint from D3hot to D0. -/
  | pcieConfigWrite (item : Nat) (value : Nat)
  /-- WATCHDOG_WARNING (R587): The chip watchdog's LEFT_MS falls below a quarter of the period and source 0xA81 rises. -/
  | watchdogWarning
deriving DecidableEq, Repr

end Sys2Proof
end

