-- ==== Sys2Proof/Decode.lean ====
section
/-! DEFINITION. The words of spec/opcode_table.json: its rows give no bits, so that no word spells a command. -/

namespace Sys2Proof

/-- The command that the low `nbits` bits of `w` spell by the bits of spec/opcode_table.json: none, since every row is given
without bits. -/
def decodeTableWord (nbits w : Nat) : Option Instr :=
  match nbits, w with
  | _, _ => none

end Sys2Proof
end

