-- ==== Sys2Proof/Config.lean ====
section
/-! DEFINITION. What one T64 has fixed at manufacture, and the free values: constants with no body, which nothing
in Lean can evaluate. A statement about a free value holds whatever it is. -/

namespace Sys2Proof.Config

/-- The fused 64-bit chip serial (R16, Table POD-8: "fused"). Log entry 9. -/
opaque chipSerial : BitVec 64

/-- The temperature grade (Table SCO-4): true for Industrial, false for Commercial. Log entry 9. -/
opaque industrial : Bool

/-- The frequency of the board's AUD_MCLK in Hz, as the steward knows it for the TDM ports (R535). Log entry 18. -/
opaque audMclkHz : BitVec 32

/-- The free value of the `k`-th value the spec leaves open, of width `w` bits at most; `k` is the machine's count of
open values drawn so far. Log entry 3. -/
opaque freeValue : Nat → BitVec 64

/-- The choices that give the 72 bits of a quarter their distinct syndromes: the spec does not publish the check matrix
(R85). Log entry 4. -/
opaque eccPick : Nat → Nat

/-- The syndrome of each set of bits in error that is not one bit (R85). Log entry 4. -/
opaque eccSyndrome : Nat → BitVec 8

/-- What becomes of a read of each set of three or more bits in error (R623). Log entry 4. -/
opaque eccOutcome : Nat → BitVec 16

end Sys2Proof.Config
end

