-- ==== Sys2Proof/Machine/Catalogue.lean ====
section
/-! DEFINITION. The register catalogue: every register of the spec's register tables, with its chip
address (base and strides), its width, and the position, access code (Table SCO-2) and reset value of each
field. `Addr` names the address of each register, `F` the position of each field; both are written from the
register tables of spec/ named beside each row. -/

namespace Sys2Proof

/-- Access codes of Table SCO-2 (R14); the suffixes /H and /S are not part of the code, `staged` below is /S. -/
inductive Access where
  | rw | ro | wo | w1s | w1c | rc
deriving DecidableEq, Repr

/-- A bit range [hi:lo] of a register (R5). -/
structure Fld where
  hi : Nat
  lo : Nat
deriving DecidableEq, Repr

/-- One field of a register: position, access code, whether it carries /S, and its reset value. -/
structure RegField where
  pos : Fld
  acc : Access
  staged : Bool
  reset : Nat
deriving DecidableEq, Repr

/-- One row of the catalogue: a register, or a family of registers at `base + i * stride + ...`. `wide` marks
a 64-bit register; `triple` one with SET and CLR addresses (R52). -/
structure RegRow where
  name : String
  base : Nat
  dims : List (Nat × Nat)
  wide : Bool
  triple : Bool
  fields : List RegField
deriving DecidableEq, Repr

namespace Addr

/-- DEC_STATUS (02_addressing_and_registers.md R49, Table ADR-8 to ADR-10). -/
def decStatus : Nat := 0x427F000
/-- DEC_LOG (02_addressing_and_registers.md R49, Table ADR-8 to ADR-10). -/
def decLog : Nat := 0x427F008
/-- DEC_PRIV_COUNT (02_addressing_and_registers.md R49, Table ADR-8 to ADR-10). -/
def decPrivCount : Nat := 0x427F010
/-- DEC_RSVD_COUNT (02_addressing_and_registers.md R49, Table ADR-8 to ADR-10). -/
def decRsvdCount : Nat := 0x427F014
/-- DEC_LOG_ARM (02_addressing_and_registers.md R49, Table ADR-8 to ADR-10). -/
def decLogArm : Nat := 0x427F018
/-- BG.MODE (03_local_memory.md R86-R89, Table MEM-7 to MEM-11). -/
def bgMode (i j : Nat) : Nat := 0x5007000 + i * 0x40000 + j * 0x100
/-- BG.WHEEL (03_local_memory.md R86-R89, Table MEM-7 to MEM-11). -/
def bgWheel (i j : Nat) : Nat := 0x5007008 + i * 0x40000 + j * 0x100
/-- BG.STATUS (03_local_memory.md R86-R89, Table MEM-7 to MEM-11). -/
def bgStatus (i j : Nat) : Nat := 0x5007010 + i * 0x40000 + j * 0x100
/-- BG.STARVE_LIMIT (03_local_memory.md R86-R89, Table MEM-7 to MEM-11). -/
def bgStarveLimit (i j : Nat) : Nat := 0x5007018 + i * 0x40000 + j * 0x100
/-- BG.CE_COUNT (03_local_memory.md R86-R89, Table MEM-7 to MEM-11). -/
def bgCeCount (i j : Nat) : Nat := 0x5007020 + i * 0x40000 + j * 0x100
/-- BG.UE_COUNT (03_local_memory.md R86-R89, Table MEM-7 to MEM-11). -/
def bgUeCount (i j : Nat) : Nat := 0x5007024 + i * 0x40000 + j * 0x100
/-- BG.ECC_LOG (03_local_memory.md R86-R89, Table MEM-7 to MEM-11). -/
def bgEccLog (i j : Nat) : Nat := 0x5007028 + i * 0x40000 + j * 0x100
/-- BG.STARVE_CYCLES (03_local_memory.md R86-R89, Table MEM-7 to MEM-11). -/
def bgStarveCycles (i j : Nat) : Nat := 0x5007030 + i * 0x40000 + j * 0x100
/-- BG.LOST_SLOTS (03_local_memory.md R86-R89, Table MEM-7 to MEM-11). -/
def bgLostSlots (i j : Nat) : Nat := 0x5007034 + i * 0x40000 + j * 0x100
/-- WHEEL_POS (03_local_memory.md R86-R89, Table MEM-7 to MEM-11). -/
def wheelPos (i : Nat) : Nat := 0x5007400 + i * 0x40000
/-- BG.CFG_COMMIT (02_addressing_and_registers.md R57, Table ADR-4). -/
def bgCfgCommit (i : Nat) : Nat := 0x5007FF0 + i * 0x40000
/-- BG.CFG_STATE (02_addressing_and_registers.md R57, Table ADR-4). -/
def bgCfgState (i : Nat) : Nat := 0x5007FF8 + i * 0x40000
/-- RLC_CTRL (05_remote_access_and_coherence.md R141, Table COH-5). -/
def rlcCtrl (i : Nat) : Nat := 0x5008000 + i * 0x40000
/-- RLC_STATUS (05_remote_access_and_coherence.md R141, Table COH-5). -/
def rlcStatus (i : Nat) : Nat := 0x5008008 + i * 0x40000
/-- RLC_HITS (05_remote_access_and_coherence.md R141, Table COH-5). -/
def rlcHits (i : Nat) : Nat := 0x5008010 + i * 0x40000
/-- RLC_MISSES (05_remote_access_and_coherence.md R141, Table COH-5). -/
def rlcMisses (i : Nat) : Nat := 0x5008014 + i * 0x40000
/-- RLC_EVICTS (05_remote_access_and_coherence.md R141, Table COH-5). -/
def rlcEvicts (i : Nat) : Nat := 0x5008018 + i * 0x40000
/-- RLC_SNOOP_HITS (05_remote_access_and_coherence.md R141, Table COH-5). -/
def rlcSnoopHits (i : Nat) : Nat := 0x500801C + i * 0x40000
/-- RLC_SNOOP_MISSES (05_remote_access_and_coherence.md R141, Table COH-5). -/
def rlcSnoopMisses (i : Nat) : Nat := 0x5008020 + i * 0x40000
/-- RLC_PERR_COUNT (05_remote_access_and_coherence.md R141, Table COH-5). -/
def rlcPerrCount (i : Nat) : Nat := 0x5008024 + i * 0x40000
/-- SF_STATUS (05_remote_access_and_coherence.md R141, Table COH-6). -/
def sfStatus (i : Nat) : Nat := 0x5009000 + i * 0x40000
/-- SF_OCCUPANCY (05_remote_access_and_coherence.md R141, Table COH-6). -/
def sfOccupancy (i : Nat) : Nat := 0x5009008 + i * 0x40000
/-- SF_OUTSTANDING (05_remote_access_and_coherence.md R141, Table COH-6). -/
def sfOutstanding (i : Nat) : Nat := 0x500900C + i * 0x40000
/-- SF_INV_SENT (05_remote_access_and_coherence.md R141, Table COH-6). -/
def sfInvSent (i : Nat) : Nat := 0x5009010 + i * 0x40000
/-- SF_BROAD_INV (05_remote_access_and_coherence.md R141, Table COH-6). -/
def sfBroadInv (i : Nat) : Nat := 0x5009014 + i * 0x40000
/-- SF_NOFILL_COUNT (05_remote_access_and_coherence.md R141, Table COH-6). -/
def sfNofillCount (i : Nat) : Nat := 0x5009018 + i * 0x40000
/-- SF_BACK_INV (05_remote_access_and_coherence.md R141, Table COH-6). -/
def sfBackInv (i : Nat) : Nat := 0x500901C + i * 0x40000
/-- SF_LATE_COUNT (05_remote_access_and_coherence.md R141, Table COH-6). -/
def sfLateCount (i : Nat) : Nat := 0x5009020 + i * 0x40000
/-- MX_STATUS (06_matrix_engine.md R171, Table MTX-4 to MTX-6). -/
def mxStatus (i : Nat) : Nat := 0x5002000 + i * 0x40000
/-- MX_STEPS (06_matrix_engine.md R171, Table MTX-4 to MTX-6). -/
def mxSteps (i : Nat) : Nat := 0x5002008 + i * 0x40000
/-- MX_SKIPPED (06_matrix_engine.md R171, Table MTX-4 to MTX-6). -/
def mxSkipped (i : Nat) : Nat := 0x5002010 + i * 0x40000
/-- MX_LAST (06_matrix_engine.md R171, Table MTX-4 to MTX-6). -/
def mxLast (i : Nat) : Nat := 0x5002018 + i * 0x40000
/-- MX_CMD_COUNT (06_matrix_engine.md R171, Table MTX-4 to MTX-6). -/
def mxCmdCount (i : Nat) : Nat := 0x500201C + i * 0x40000
/-- MX_SAT_COUNT (06_matrix_engine.md R171, Table MTX-4 to MTX-6). -/
def mxSatCount (i : Nat) : Nat := 0x5002020 + i * 0x40000
/-- MX_ERR_LOG (06_matrix_engine.md R171, Table MTX-4 to MTX-6). -/
def mxErrLog (i : Nat) : Nat := 0x5002028 + i * 0x40000
/-- MX_CTX_STEPS (06_matrix_engine.md R171, Table MTX-4 to MTX-6). -/
def mxCtxSteps (i j : Nat) : Nat := 0x5002040 + i * 0x40000 + j * 0x8
/-- VX_STATUS (07_vector_engine.md R197, Table VEC-6). -/
def vxStatus (i : Nat) : Nat := 0x5003000 + i * 0x40000
/-- VX_STEPS (07_vector_engine.md R197, Table VEC-6). -/
def vxSteps (i : Nat) : Nat := 0x5003008 + i * 0x40000
/-- VX_CMD_COUNT (07_vector_engine.md R197, Table VEC-6). -/
def vxCmdCount (i : Nat) : Nat := 0x5003010 + i * 0x40000
/-- VX_SAT_COUNT (07_vector_engine.md R197, Table VEC-6). -/
def vxSatCount (i : Nat) : Nat := 0x5003014 + i * 0x40000
/-- VX_LNS_OVF_COUNT (07_vector_engine.md R197, Table VEC-6). -/
def vxLnsOvfCount (i : Nat) : Nat := 0x5003018 + i * 0x40000
/-- VX_LNS_UNF_COUNT (07_vector_engine.md R197, Table VEC-6). -/
def vxLnsUnfCount (i : Nat) : Nat := 0x500301C + i * 0x40000
/-- VX_POS (07_vector_engine.md R197, Table VEC-6). -/
def vxPos (i : Nat) : Nat := 0x5003020 + i * 0x40000
/-- VX_ERR_LOG (07_vector_engine.md R197, Table VEC-6). -/
def vxErrLog (i : Nat) : Nat := 0x5003028 + i * 0x40000
/-- VX_TABLE (07_vector_engine.md R182, Registers). -/
def vxTable (i j k : Nat) : Nat := 0x5004000 + i * 0x40000 + j * 0x400 + k * 0x4
/-- CTX.HDR (08_sequencer_and_contexts.md R209, Table SEQ-3). -/
def ctxHdr (i j : Nat) : Nat := 0x5001000 + i * 0x40000 + j * 0x400
/-- CTX.CP (08_sequencer_and_contexts.md R209, Table SEQ-3). -/
def ctxCp (i j : Nat) : Nat := 0x5001008 + i * 0x40000 + j * 0x400
/-- CTX.QBIND (08_sequencer_and_contexts.md R209, Table SEQ-3). -/
def ctxQbind (i j : Nat) : Nat := 0x5001010 + i * 0x40000 + j * 0x400
/-- CTX.CSTACK (08_sequencer_and_contexts.md R209, Table SEQ-3). -/
def ctxCstack (i j : Nat) : Nat := 0x5001018 + i * 0x40000 + j * 0x400
/-- CTX.FSP (08_sequencer_and_contexts.md R209, Table SEQ-3). -/
def ctxFsp (i j : Nat) : Nat := 0x5001020 + i * 0x40000 + j * 0x400
/-- CTX.FSP_LIMIT (08_sequencer_and_contexts.md R209, Table SEQ-3). -/
def ctxFspLimit (i j : Nat) : Nat := 0x5001028 + i * 0x40000 + j * 0x400
/-- CTX.CSA (08_sequencer_and_contexts.md R209, Table SEQ-3). -/
def ctxCsa (i j : Nat) : Nat := 0x5001030 + i * 0x40000 + j * 0x400
/-- CTX.SCHED (08_sequencer_and_contexts.md R209, Table SEQ-3). -/
def ctxSched (i j : Nat) : Nat := 0x5001038 + i * 0x40000 + j * 0x400
/-- CTX.DEADLINE (08_sequencer_and_contexts.md R209, Table SEQ-3). -/
def ctxDeadline (i j : Nat) : Nat := 0x5001040 + i * 0x40000 + j * 0x400
/-- CTX.WAIT_ARG (08_sequencer_and_contexts.md R209, Table SEQ-3). -/
def ctxWaitArg (i j : Nat) : Nat := 0x5001048 + i * 0x40000 + j * 0x400
/-- CTX.WAIT_TARGET (08_sequencer_and_contexts.md R209, Table SEQ-3). -/
def ctxWaitTarget (i j : Nat) : Nat := 0x5001050 + i * 0x40000 + j * 0x400
/-- CTX.WD_LIMIT (08_sequencer_and_contexts.md R209, Table SEQ-3). -/
def ctxWdLimit (i j : Nat) : Nat := 0x5001058 + i * 0x40000 + j * 0x400
/-- CTX.LOOP (08_sequencer_and_contexts.md R209, Table SEQ-3). -/
def ctxLoop (i j k : Nat) : Nat := 0x5001060 + i * 0x40000 + j * 0x400 + k * 0x8
/-- CTX.S (08_sequencer_and_contexts.md R209, Table SEQ-3). -/
def ctxS (i j k : Nat) : Nat := 0x5001080 + i * 0x40000 + j * 0x400 + k * 0x8
/-- CTX.LC (08_sequencer_and_contexts.md R209, Table SEQ-3). -/
def ctxLc (i j k : Nat) : Nat := 0x50010C0 + i * 0x40000 + j * 0x400 + k * 0x8
/-- CTX.ISSUED (08_sequencer_and_contexts.md R209, Table SEQ-3). -/
def ctxIssued (i j : Nat) : Nat := 0x50010E0 + i * 0x40000 + j * 0x400
/-- CTX.LAST_OVERRUN (08_sequencer_and_contexts.md R209, Table SEQ-3). -/
def ctxLastOverrun (i j : Nat) : Nat := 0x50010E8 + i * 0x40000 + j * 0x400
/-- CTX.STATUS (08_sequencer_and_contexts.md R209, Table SEQ-4). -/
def ctxStatus (i j : Nat) : Nat := 0x5001100 + i * 0x40000 + j * 0x400
/-- CTX.FAULT_COUNT (08_sequencer_and_contexts.md R209, Table SEQ-4). -/
def ctxFaultCount (i j : Nat) : Nat := 0x5001108 + i * 0x40000 + j * 0x400
/-- SEQ_OP (08_sequencer_and_contexts.md R211, Table SEQ-8). -/
def seqOp (i : Nat) : Nat := 0x5000000 + i * 0x40000
/-- SEQ_OP_ADDR (08_sequencer_and_contexts.md R211, Table SEQ-8). -/
def seqOpAddr (i : Nat) : Nat := 0x5000008 + i * 0x40000
/-- SEQ_STATUS (08_sequencer_and_contexts.md R211, Table SEQ-8). -/
def seqStatus (i : Nat) : Nat := 0x5000010 + i * 0x40000
/-- SEQ_STEPS (08_sequencer_and_contexts.md R211, Table SEQ-8). -/
def seqSteps (i : Nat) : Nat := 0x5000018 + i * 0x40000
/-- SEQ_SIG_REFUSED (08_sequencer_and_contexts.md R211, Table SEQ-8). -/
def seqSigRefused (i : Nat) : Nat := 0x5000020 + i * 0x40000
/-- FSNAP.INFO (08_sequencer_and_contexts.md R223, Table SEQ-9). -/
def fsnapInfo (i : Nat) : Nat := 0x500A000 + i * 0x40000
/-- FSNAP.CP (08_sequencer_and_contexts.md R223, Table SEQ-9). -/
def fsnapCp (i : Nat) : Nat := 0x500A008 + i * 0x40000
/-- FSNAP.FSP (08_sequencer_and_contexts.md R223, Table SEQ-9). -/
def fsnapFsp (i : Nat) : Nat := 0x500A010 + i * 0x40000
/-- FSNAP.TIME (08_sequencer_and_contexts.md R223, Table SEQ-9). -/
def fsnapTime (i : Nat) : Nat := 0x500A018 + i * 0x40000
/-- FSNAP.ADDR (08_sequencer_and_contexts.md R223, Table SEQ-9). -/
def fsnapAddr (i : Nat) : Nat := 0x500A020 + i * 0x40000
/-- FSNAP.LOST (08_sequencer_and_contexts.md R223, Table SEQ-9). -/
def fsnapLost (i : Nat) : Nat := 0x500A028 + i * 0x40000
/-- CC.VALUE (10_synchronisation.md R291, Table SYN-4). -/
def ccValue (i : Nat) : Nat := 0x4200000 + i * 0x80
/-- CC.SIGNAL (10_synchronisation.md R291, Table SYN-4). -/
def ccSignal (i : Nat) : Nat := 0x4200008 + i * 0x80
/-- CC.CFG (10_synchronisation.md R291, Table SYN-4). -/
def ccCfg (i : Nat) : Nat := 0x4200010 + i * 0x80
/-- CC.STATUS (10_synchronisation.md R291, Table SYN-4). -/
def ccStatus (i : Nat) : Nat := 0x4200018 + i * 0x80
/-- CC.REFUSED_COUNT (10_synchronisation.md R291, Table SYN-4). -/
def ccRefusedCount (i : Nat) : Nat := 0x420001C + i * 0x80
/-- LCNT (10_synchronisation.md R262, Table SYN-5). -/
def lcnt (i j : Nat) : Nat := 0x500B000 + i * 0x40000 + j * 0x20
/-- LCNT_SIGNAL (10_synchronisation.md R262, Table SYN-5). -/
def lcntSignal (i j : Nat) : Nat := 0x500B008 + i * 0x40000 + j * 0x20
/-- BLOOM.MASK (10_synchronisation.md R274-R284, Table SYN-6). -/
def bloomMask (i : Nat) : Nat := 0x4210000 + i * 0x40
/-- BLOOM.ARRIVED (10_synchronisation.md R274-R284, Table SYN-6). -/
def bloomArrived (i : Nat) : Nat := 0x4210008 + i * 0x40
/-- BLOOM.STATE (10_synchronisation.md R274-R284, Table SYN-6). -/
def bloomState (i : Nat) : Nat := 0x4210010 + i * 0x40
/-- BLOOM.COMPLETIONS (10_synchronisation.md R274-R284, Table SYN-6). -/
def bloomCompletions (i : Nat) : Nat := 0x4210014 + i * 0x40
/-- ASTER.MASK (10_synchronisation.md R274-R284, Table SYN-6). -/
def asterMask (i : Nat) : Nat := 0x4211000 + i * 0x40
/-- ASTER.ARRIVED (10_synchronisation.md R274-R284, Table SYN-6). -/
def asterArrived (i : Nat) : Nat := 0x4211008 + i * 0x40
/-- ASTER.STATE (10_synchronisation.md R274-R284, Table SYN-6). -/
def asterState (i : Nat) : Nat := 0x4211010 + i * 0x40
/-- SYNC_WT_FULL_COUNT (10_synchronisation.md R274-R284, Table SYN-6). -/
def syncWtFullCount : Nat := 0x421F000
/-- Q.RING_ADDR (11_queue_engine.md R295-R313, Table QUE-2). -/
def qRingAddr (i : Nat) : Nat := 0x4000000 + i * 0x40
/-- Q.QCFG (11_queue_engine.md R295-R313, Table QUE-2). -/
def qQcfg (i : Nat) : Nat := 0x4000008 + i * 0x40
/-- Q.THR (11_queue_engine.md R295-R313, Table QUE-2). -/
def qThr (i : Nat) : Nat := 0x4000010 + i * 0x40
/-- Q.INDEX (11_queue_engine.md R295-R313, Table QUE-2). -/
def qIndex (i : Nat) : Nat := 0x4000018 + i * 0x40
/-- DB_PROD (11_queue_engine.md R302-R311, Table QUE-3). -/
def dbProd (i : Nat) : Nat := 0x4100000 + i * 0x40
/-- DB_CONS (11_queue_engine.md R302-R311, Table QUE-3). -/
def dbCons (i : Nat) : Nat := 0x4100008 + i * 0x40
/-- Q_STATUS (11_queue_engine.md R302-R311, Table QUE-3). -/
def qStatus (i : Nat) : Nat := 0x4100010 + i * 0x40
/-- Q.REFUSED_COUNT (11_queue_engine.md R302-R311, Table QUE-3). -/
def qRefusedCount (i : Nat) : Nat := 0x4100018 + i * 0x40
/-- Q.DB_BAD_COUNT (11_queue_engine.md R302-R311, Table QUE-3). -/
def qDbBadCount (i : Nat) : Nat := 0x410001C + i * 0x40
/-- Q.CTRL (11_queue_engine.md R302-R311, Table QUE-3). -/
def qCtrl (i : Nat) : Nat := 0x4100020 + i * 0x40
/-- Q_ERR_LOG (11_queue_engine.md R302-R311, Table QUE-3). -/
def qErrLog (i : Nat) : Nat := 0x4100028 + i * 0x40
/-- Q.CFG_COMMIT (11_queue_engine.md R309, Table QUE-3). -/
def qCfgCommit (i : Nat) : Nat := 0x4100030 + i * 0x40
/-- Q.CFG_STATE (11_queue_engine.md R309, Table QUE-3). -/
def qCfgState (i : Nat) : Nat := 0x4100038 + i * 0x40
/-- CH_STATUS (12_dma_and_host_translation.md R336-R341, Table DMA-4). -/
def chStatus (i j : Nat) : Nat := 0x5006000 + i * 0x40000 + j * 0x100
/-- CH_CTRL (12_dma_and_host_translation.md R336-R341, Table DMA-4). -/
def chCtrl (i j : Nat) : Nat := 0x5006008 + i * 0x40000 + j * 0x100
/-- CH_CFG (12_dma_and_host_translation.md R336-R341, Table DMA-4). -/
def chCfg (i j : Nat) : Nat := 0x5006010 + i * 0x40000 + j * 0x100
/-- CH_PROG (12_dma_and_host_translation.md R336-R341, Table DMA-4). -/
def chProg (i j : Nat) : Nat := 0x5006018 + i * 0x40000 + j * 0x100
/-- CH_ERR_ADDR (12_dma_and_host_translation.md R336-R341, Table DMA-4). -/
def chErrAddr (i j : Nat) : Nat := 0x5006020 + i * 0x40000 + j * 0x100
/-- CH_ERR_INFO (12_dma_and_host_translation.md R336-R341, Table DMA-4). -/
def chErrInfo (i j : Nat) : Nat := 0x5006028 + i * 0x40000 + j * 0x100
/-- CH_TAG (12_dma_and_host_translation.md R336-R341, Table DMA-4). -/
def chTag (i j : Nat) : Nat := 0x5006030 + i * 0x40000 + j * 0x100
/-- CH_BYTES (12_dma_and_host_translation.md R336-R341, Table DMA-4). -/
def chBytes (i j : Nat) : Nat := 0x5006038 + i * 0x40000 + j * 0x100
/-- CH_DESC (12_dma_and_host_translation.md R336-R341, Table DMA-4). -/
def chDesc (i j k : Nat) : Nat := 0x5006040 + i * 0x40000 + j * 0x100 + k * 0x8
/-- HT_CTRL (12_dma_and_host_translation.md R328-R335, Table DMA-5). -/
def htCtrl : Nat := 0x431C000
/-- HT_ROOT (12_dma_and_host_translation.md R328-R335, Table DMA-5). -/
def htRoot : Nat := 0x431C008
/-- HT_INV (12_dma_and_host_translation.md R328-R335, Table DMA-5). -/
def htInv : Nat := 0x431C010
/-- HT_INV_ADDR (12_dma_and_host_translation.md R328-R335, Table DMA-5). -/
def htInvAddr : Nat := 0x431C018
/-- HT_STATUS (12_dma_and_host_translation.md R328-R335, Table DMA-5). -/
def htStatus : Nat := 0x431C020
/-- HT_HITS (12_dma_and_host_translation.md R328-R335, Table DMA-5). -/
def htHits : Nat := 0x431C028
/-- HT_MISSES (12_dma_and_host_translation.md R328-R335, Table DMA-5). -/
def htMisses : Nat := 0x431C02C
/-- HT_FAULTS (12_dma_and_host_translation.md R328-R335, Table DMA-5). -/
def htFaults : Nat := 0x431C030
/-- EVT.MASK (13_event_controller.md R346-R374, Table EVT-5 to EVT-8). -/
def evtMask (i : Nat) : Nat := 0x4220000 + i * 0x20
/-- EVT.PEND (13_event_controller.md R346-R374, Table EVT-5 to EVT-8). -/
def evtPend (i : Nat) : Nat := 0x4220800 + i * 0x20
/-- EVT.INSVC (13_event_controller.md R346-R374, Table EVT-5 to EVT-8). -/
def evtInsvc (i : Nat) : Nat := 0x4221000 + i * 0x8
/-- EVT.INPUT (13_event_controller.md R346-R374, Table EVT-5 to EVT-8). -/
def evtInput (i : Nat) : Nat := 0x4221200 + i * 0x8
/-- EVT_COMPLETE (13_event_controller.md R346-R374, Table EVT-5 to EVT-8). -/
def evtComplete : Nat := 0x4221400
/-- EVT_RAISE (13_event_controller.md R346-R374, Table EVT-5 to EVT-8). -/
def evtRaise : Nat := 0x4221408
/-- EVT_STATUS (13_event_controller.md R346-R374, Table EVT-5 to EVT-8). -/
def evtStatus : Nat := 0x4221410
/-- EVT_DELIVERED (13_event_controller.md R346-R374, Table EVT-5 to EVT-8). -/
def evtDelivered : Nat := 0x4221418
/-- EVT_SPURIOUS (13_event_controller.md R346-R374, Table EVT-5 to EVT-8). -/
def evtSpurious : Nat := 0x422141C
/-- EVT_REPLAYS (13_event_controller.md R346-R374, Table EVT-5 to EVT-8). -/
def evtReplays : Nat := 0x4221420
/-- EVT.HOLDOFF (13_event_controller.md R346-R374, Table EVT-5 to EVT-8). -/
def evtHoldoff (i : Nat) : Nat := 0x4222000 + i * 0x8
/-- TGT_CFG (13_event_controller.md R346-R374, Table EVT-5 to EVT-8). -/
def tgtCfg (i : Nat) : Nat := 0x4223000 + i * 0x20
/-- TGT_STATUS (13_event_controller.md R346-R374, Table EVT-5 to EVT-8). -/
def tgtStatus (i : Nat) : Nat := 0x4223008 + i * 0x20
/-- TGT_RECORDS (13_event_controller.md R346-R374, Table EVT-5 to EVT-8). -/
def tgtRecords (i : Nat) : Nat := 0x4223010 + i * 0x20
/-- TGT_STALLS (13_event_controller.md R346-R374, Table EVT-5 to EVT-8). -/
def tgtStalls (i : Nat) : Nat := 0x4223014 + i * 0x20
/-- SRC_CFG (13_event_controller.md R346-R374, Table EVT-5 to EVT-8). -/
def srcCfg (i : Nat) : Nat := 0x4228000 + i * 0x10
/-- SRC_STATE (13_event_controller.md R346-R374, Table EVT-5 to EVT-8). -/
def srcState (i : Nat) : Nat := 0x4228004 + i * 0x10
/-- SRC_ROUTE (13_event_controller.md R346-R374, Table EVT-5 to EVT-8). -/
def srcRoute (i : Nat) : Nat := 0x4228008 + i * 0x10
/-- EVT.CFG_COMMIT (13_event_controller.md R372, Table EVT-5). -/
def evtCfgCommit : Nat := 0x423FFF0
/-- EVT.CFG_STATE (13_event_controller.md R372, Table EVT-5). -/
def evtCfgState : Nat := 0x423FFF8
/-- LNK_STATE (14_link_physical_and_link_layers.md R416, Table LNK-12 and LNK-13). -/
def lnkState (i : Nat) : Nat := 0x4280000 + i * 0x10000
/-- LNK_CFG (14_link_physical_and_link_layers.md R416, Table LNK-12 and LNK-13). -/
def lnkCfg (i : Nat) : Nat := 0x4280008 + i * 0x10000
/-- LNK_CTRL (14_link_physical_and_link_layers.md R416, Table LNK-12 and LNK-13). -/
def lnkCtrl (i : Nat) : Nat := 0x4280010 + i * 0x10000
/-- LNK_ERR (14_link_physical_and_link_layers.md R416, Table LNK-12 and LNK-13). -/
def lnkErr (i : Nat) : Nat := 0x4280018 + i * 0x10000
/-- PARTNER_SERIAL (14_link_physical_and_link_layers.md R416, Table LNK-12 and LNK-13). -/
def partnerSerial (i : Nat) : Nat := 0x4280020 + i * 0x10000
/-- PARTNER_INFO (14_link_physical_and_link_layers.md R416, Table LNK-12 and LNK-13). -/
def partnerInfo (i : Nat) : Nat := 0x4280028 + i * 0x10000
/-- PARTNER_OFFER (14_link_physical_and_link_layers.md R416, Table LNK-12 and LNK-13). -/
def partnerOffer (i : Nat) : Nat := 0x4280030 + i * 0x10000
/-- LNK.FEC_CORR (14_link_physical_and_link_layers.md R416, Table LNK-12 and LNK-13). -/
def lnkFecCorr (i : Nat) : Nat := 0x4280040 + i * 0x10000
/-- LNK.FEC_UNCORR (14_link_physical_and_link_layers.md R416, Table LNK-12 and LNK-13). -/
def lnkFecUncorr (i : Nat) : Nat := 0x4280044 + i * 0x10000
/-- LNK.CRC_ERR (14_link_physical_and_link_layers.md R416, Table LNK-12 and LNK-13). -/
def lnkCrcErr (i : Nat) : Nat := 0x4280048 + i * 0x10000
/-- LNK.REPLAYS (14_link_physical_and_link_layers.md R416, Table LNK-12 and LNK-13). -/
def lnkReplays (i : Nat) : Nat := 0x428004C + i * 0x10000
/-- LNK.NAKS_SENT (14_link_physical_and_link_layers.md R416, Table LNK-12 and LNK-13). -/
def lnkNaksSent (i : Nat) : Nat := 0x4280050 + i * 0x10000
/-- LNK.TRAININGS (14_link_physical_and_link_layers.md R416, Table LNK-12 and LNK-13). -/
def lnkTrainings (i : Nat) : Nat := 0x4280054 + i * 0x10000
/-- LNK.REMAPS (14_link_physical_and_link_layers.md R416, Table LNK-12 and LNK-13). -/
def lnkRemaps (i : Nat) : Nat := 0x4280058 + i * 0x10000
/-- LANE_CORR (14_link_physical_and_link_layers.md R416, Table LNK-12 and LNK-13). -/
def laneCorr (i j : Nat) : Nat := 0x4280080 + i * 0x10000 + j * 0x4
/-- LNK.CFG_COMMIT (14_link_physical_and_link_layers.md, Table ADR-4). -/
def lnkCfgCommit (i : Nat) : Nat := 0x428FFF0 + i * 0x10000
/-- LNK.CFG_STATE (14_link_physical_and_link_layers.md, Table ADR-4). -/
def lnkCfgState (i : Nat) : Nat := 0x428FFF8 + i * 0x10000
/-- POD_STATE (15_link_transactions_and_pod.md R443, Table POD-8). -/
def podState : Nat := 0x4300000
/-- CHIP_SERIAL (15_link_transactions_and_pod.md R443, Table POD-8). -/
def chipSerial : Nat := 0x4300008
/-- ROOT_SERIAL (15_link_transactions_and_pod.md R443, Table POD-8). -/
def rootSerial : Nat := 0x4300010
/-- POD_CTRL (15_link_transactions_and_pod.md R443, Table POD-8). -/
def podCtrl : Nat := 0x4300018
/-- MEMBER (15_link_transactions_and_pod.md R443, Table POD-8). -/
def member (i : Nat) : Nat := 0x4300020 + i * 0x8
/-- TB_OFFSET (15_link_transactions_and_pod.md R443, Table POD-8). -/
def tbOffset : Nat := 0x4300040
/-- TB_STEP (15_link_transactions_and_pod.md R443, Table POD-8). -/
def tbStep : Nat := 0x4300048
/-- POD_ERR (15_link_transactions_and_pod.md R443, Table POD-8). -/
def podErr : Nat := 0x4300050
/-- POD.DUP_ANSWERED (15_link_transactions_and_pod.md R443, Table POD-8). -/
def podDupAnswered : Nat := 0x4300058
/-- POD.STALE_SENT (15_link_transactions_and_pod.md R443, Table POD-8). -/
def podStaleSent : Nat := 0x430005C
/-- POD.STALE_RECEIVED (15_link_transactions_and_pod.md R443, Table POD-8). -/
def podStaleReceived : Nat := 0x4300060
/-- POD.NR_SENT (15_link_transactions_and_pod.md R443, Table POD-8). -/
def podNrSent : Nat := 0x4300064
/-- POD.NR_RECEIVED (15_link_transactions_and_pod.md R443, Table POD-8). -/
def podNrReceived : Nat := 0x4300068
/-- POD.RESENT (15_link_transactions_and_pod.md R443, Table POD-8). -/
def podResent : Nat := 0x430006C
/-- POD.ROUTE_ERR (15_link_transactions_and_pod.md R443, Table POD-8). -/
def podRouteErr : Nat := 0x4300070
/-- ROUTE (15_link_transactions_and_pod.md R443, Table POD-8). -/
def route (i : Nat) : Nat := 0x4300100 + i * 0x4
/-- POD.CFG_COMMIT (15_link_transactions_and_pod.md, Table ADR-4). -/
def podCfgCommit : Nat := 0x430FFF0
/-- POD.CFG_STATE (15_link_transactions_and_pod.md, Table ADR-4). -/
def podCfgState : Nat := 0x430FFF8
/-- STW_STATUS (16_steward_and_mailboxes.md R445-R468, Table STW-4). -/
def stwStatus : Nat := 0x424F000
/-- STW_VERSION (16_steward_and_mailboxes.md R445-R468, Table STW-4). -/
def stwVersion : Nat := 0x424F008
/-- EARLY_DROP (16_steward_and_mailboxes.md R445-R468, Table STW-4). -/
def earlyDrop : Nat := 0x424F010
/-- BOOT_CTRL (16_steward_and_mailboxes.md R445-R468, Table STW-4). -/
def bootCtrl : Nat := 0x424F018
/-- STW_HALT (16_steward_and_mailboxes.md R445-R468, Table STW-4). -/
def stwHalt : Nat := 0x424F020
/-- STW_HALT_TIME (16_steward_and_mailboxes.md R445-R468, Table STW-4). -/
def stwHaltTime : Nat := 0x424F028
/-- MB.REQ (16_steward_and_mailboxes.md R451-R463, Table STW-5). -/
def mbReq (i j : Nat) : Nat := 0x4240000 + i * 0x100 + j * 0x8
/-- MB.RSP (16_steward_and_mailboxes.md R451-R463, Table STW-5). -/
def mbRsp (i j : Nat) : Nat := 0x4240040 + i * 0x100 + j * 0x8
/-- MB.DOORBELL (16_steward_and_mailboxes.md R451-R463, Table STW-5). -/
def mbDoorbell (i : Nat) : Nat := 0x4240080 + i * 0x100
/-- MB.STATE (16_steward_and_mailboxes.md R451-R463, Table STW-5). -/
def mbState (i : Nat) : Nat := 0x4240088 + i * 0x100
/-- MB.BULK (16_steward_and_mailboxes.md R451-R463, Table STW-5). -/
def mbBulk (i : Nat) : Nat := 0x4240090 + i * 0x100
/-- MB.DOORBELLS (16_steward_and_mailboxes.md R451-R463, Table STW-5). -/
def mbDoorbells (i : Nat) : Nat := 0x4240098 + i * 0x100
/-- PCIE_STATUS (18_host_and_audio_ports.md R507-R543, Table HIO-9 and HIO-10). -/
def pcieStatus : Nat := 0x4310000
/-- APT (18_host_and_audio_ports.md R507-R543, Table HIO-9 and HIO-10). -/
def apt : Nat := 0x4310008
/-- HOST_STATUS (18_host_and_audio_ports.md R507-R543, Table HIO-9 and HIO-10). -/
def hostStatus : Nat := 0x4310010
/-- HOST_ERR_LOG (18_host_and_audio_ports.md R507-R543, Table HIO-9 and HIO-10). -/
def hostErrLog : Nat := 0x4310018
/-- QT_CFG (18_host_and_audio_ports.md R507-R543, Table HIO-9 and HIO-10). -/
def qtCfg : Nat := 0x4311000
/-- QT_STATUS (18_host_and_audio_ports.md R507-R543, Table HIO-9 and HIO-10). -/
def qtStatus : Nat := 0x4311008
/-- QT_ERR_LOG (18_host_and_audio_ports.md R507-R543, Table HIO-9 and HIO-10). -/
def qtErrLog : Nat := 0x4311010
/-- AUD_CFG0 (18_host_and_audio_ports.md R507-R543, Table HIO-9 and HIO-10). -/
def audCfg0 (i : Nat) : Nat := 0x4312000 + i * 0x1000
/-- AUD_CFG1_TDM (18_host_and_audio_ports.md R507-R543, Table HIO-9 and HIO-10). -/
def audCfg1Tdm (i : Nat) : Nat := 0x4312008 + i * 0x1000
/-- AUD_CFG1_PDM (18_host_and_audio_ports.md R507-R543, Table HIO-9 and HIO-10). -/
def audCfg1Pdm : Nat := 0x4314008
/-- AUD_CFG2_TDM (18_host_and_audio_ports.md R507-R543, Table HIO-9 and HIO-10). -/
def audCfg2Tdm (i : Nat) : Nat := 0x4312010 + i * 0x1000
/-- AUD_CFG2_PDM (18_host_and_audio_ports.md R507-R543, Table HIO-9 and HIO-10). -/
def audCfg2Pdm : Nat := 0x4314010
/-- AUD_CTRL (18_host_and_audio_ports.md R507-R543, Table HIO-9 and HIO-10). -/
def audCtrl (i : Nat) : Nat := 0x4312018 + i * 0x1000
/-- AUD_STATUS (18_host_and_audio_ports.md R507-R543, Table HIO-9 and HIO-10). -/
def audStatus (i : Nat) : Nat := 0x4312020 + i * 0x1000
/-- AUD.BLOCKS (18_host_and_audio_ports.md R507-R543, Table HIO-9 and HIO-10). -/
def audBlocks (i : Nat) : Nat := 0x4312028 + i * 0x1000
/-- AUD.BLOCK_TIME (18_host_and_audio_ports.md R507-R543, Table HIO-9 and HIO-10). -/
def audBlockTime (i : Nat) : Nat := 0x4312030 + i * 0x1000
/-- AUD.DROPPED (18_host_and_audio_ports.md R507-R543, Table HIO-9 and HIO-10). -/
def audDropped (i : Nat) : Nat := 0x4312038 + i * 0x1000
/-- AUD.SAT_COUNT (18_host_and_audio_ports.md R507-R543, Table HIO-9 and HIO-10). -/
def audSatCount (i : Nat) : Nat := 0x431203C + i * 0x1000
/-- PMB (18_host_and_audio_ports.md R507-R543, Table HIO-9 and HIO-10). -/
def pmb (i : Nat) : Nat := 0x4315000 + i * 0x10
/-- PMB_STATUS (18_host_and_audio_ports.md R507-R543, Table HIO-9 and HIO-10). -/
def pmbStatus : Nat := 0x4315040
/-- PMB_ERRS (18_host_and_audio_ports.md R507-R543, Table HIO-9 and HIO-10). -/
def pmbErrs : Nat := 0x4315044
/-- I2CT (18_host_and_audio_ports.md R507-R543, Table HIO-9 and HIO-10). -/
def i2ct : Nat := 0x4316000
/-- GPIO_OUT (18_host_and_audio_ports.md R507-R543, Table HIO-9 and HIO-10). -/
def gpioOut : Nat := 0x4317000
/-- GPIO_OE (18_host_and_audio_ports.md R507-R543, Table HIO-9 and HIO-10). -/
def gpioOe : Nat := 0x4317018
/-- GPIO_IN (18_host_and_audio_ports.md R507-R543, Table HIO-9 and HIO-10). -/
def gpioIn : Nat := 0x4317020
/-- GPIO_CFG (18_host_and_audio_ports.md R507-R543, Table HIO-9 and HIO-10). -/
def gpioCfg (i : Nat) : Nat := 0x4317040 + i * 0x4
/-- HOST.CFG_COMMIT (18_host_and_audio_ports.md, Table ADR-4). -/
def hostCfgCommit : Nat := 0x431FFF0
/-- HOST.CFG_STATE (18_host_and_audio_ports.md, Table ADR-4). -/
def hostCfgState : Nat := 0x431FFF8
/-- PWR_STATE (19_power_timing_and_sleep.md R552-R571, Table PWR-6). -/
def pwrState : Nat := 0x4270000
/-- CORE_PWR (19_power_timing_and_sleep.md R552-R571, Table PWR-6). -/
def corePwr : Nat := 0x4270008
/-- SPX (19_power_timing_and_sleep.md R552-R571, Table PWR-6). -/
def spx : Nat := 0x4270010
/-- SPX_FLOOR (19_power_timing_and_sleep.md R552-R571, Table PWR-6). -/
def spxFloor : Nat := 0x4270018
/-- TJ (19_power_timing_and_sleep.md R552-R571, Table PWR-6). -/
def tj : Nat := 0x4270020
/-- TJ_PEAK (19_power_timing_and_sleep.md R552-R571, Table PWR-6). -/
def tjPeak : Nat := 0x4270028
/-- THERM_CFG (19_power_timing_and_sleep.md R552-R571, Table PWR-6). -/
def thermCfg : Nat := 0x4270030
/-- VCORE_STATUS (19_power_timing_and_sleep.md R552-R571, Table PWR-6). -/
def vcoreStatus : Nat := 0x4270038
/-- PWR_STATUS (19_power_timing_and_sleep.md R552-R571, Table PWR-6). -/
def pwrStatus : Nat := 0x4270040
/-- WAKE_SRC (19_power_timing_and_sleep.md R552-R571, Table PWR-6). -/
def wakeSrc (i : Nat) : Nat := 0x4270048 + i * 0x4
/-- SLEEP_COUNT (19_power_timing_and_sleep.md R552-R571, Table PWR-6). -/
def sleepCount : Nat := 0x4270068
/-- WAKE_COUNT (19_power_timing_and_sleep.md R552-R571, Table PWR-6). -/
def wakeCount : Nat := 0x427006C
/-- LAST_SLEEP_TIME (19_power_timing_and_sleep.md R552-R571, Table PWR-6). -/
def lastSleepTime : Nat := 0x4270070
/-- LAST_WAKE_TIME (19_power_timing_and_sleep.md R552-R571, Table PWR-6). -/
def lastWakeTime : Nat := 0x4270078
/-- RAIL_OK (19_power_timing_and_sleep.md R552-R571, Table PWR-6). -/
def railOk : Nat := 0x4270080
/-- PWR.CFG_COMMIT (19_power_timing_and_sleep.md, Table ADR-4). -/
def pwrCfgCommit : Nat := 0x427FFF0
/-- PWR.CFG_STATE (19_power_timing_and_sleep.md, Table ADR-4). -/
def pwrCfgState : Nat := 0x427FFF8
/-- TB_VALUE (20_deadlines_monitors_and_faults.md R572-R601, Table FLT-6). -/
def tbValue : Nat := 0x4250000
/-- TB_STATUS (20_deadlines_monitors_and_faults.md R572-R601, Table FLT-6). -/
def tbStatus : Nat := 0x4250008
/-- WD_STATUS (20_deadlines_monitors_and_faults.md R572-R601, Table FLT-6). -/
def wdStatus : Nat := 0x4250010
/-- WD_CFG (20_deadlines_monitors_and_faults.md R572-R601, Table FLT-6). -/
def wdCfg : Nat := 0x4250018
/-- WD_CTRL (20_deadlines_monitors_and_faults.md R572-R601, Table FLT-6). -/
def wdCtrl : Nat := 0x4250020
/-- WD_FIRED (20_deadlines_monitors_and_faults.md R572-R601, Table FLT-6). -/
def wdFired : Nat := 0x4250028
/-- CHIP_ECC (20_deadlines_monitors_and_faults.md R572-R601, Table FLT-6). -/
def chipEcc : Nat := 0x4250030
/-- CHIP_ECC_LOG (20_deadlines_monitors_and_faults.md R572-R601, Table FLT-6). -/
def chipEccLog : Nat := 0x4250038
/-- JRNL_STATUS (20_deadlines_monitors_and_faults.md R572-R601, Table FLT-6). -/
def jrnlStatus : Nat := 0x4250040
/-- SNAP.INFO (20_deadlines_monitors_and_faults.md R588-R592, Table FLT-2). -/
def snapInfo : Nat := 0x425A000
/-- SNAP.HDR (20_deadlines_monitors_and_faults.md R588-R592, Table FLT-2). -/
def snapHdr (i : Nat) : Nat := 0x425A008 + i * 0x8
/-- SNAP.SLOT (20_deadlines_monitors_and_faults.md R588, Table FLT-3). -/
def snapSlot (i j : Nat) : Nat := 0x4258000 + i * 0x20 + j * 0x8
/-- IRIS.CFG (20_deadlines_monitors_and_faults.md R579-R586, Table FLT-7). -/
def irisCfg (i : Nat) : Nat := 0x4260000 + i * 0x100
/-- IRIS.SELECT (20_deadlines_monitors_and_faults.md R579-R586, Table FLT-7). -/
def irisSelect (i : Nat) : Nat := 0x4260008 + i * 0x100
/-- IRIS.ALARM_HI (20_deadlines_monitors_and_faults.md R579-R586, Table FLT-7). -/
def irisAlarmHi (i : Nat) : Nat := 0x4260010 + i * 0x100
/-- IRIS.STATUS (20_deadlines_monitors_and_faults.md R579-R586, Table FLT-7). -/
def irisStatus (i : Nat) : Nat := 0x4260018 + i * 0x100
/-- IRIS.MIN (20_deadlines_monitors_and_faults.md R579-R586, Table FLT-7). -/
def irisMin (i : Nat) : Nat := 0x4260020 + i * 0x100
/-- IRIS.MAX (20_deadlines_monitors_and_faults.md R579-R586, Table FLT-7). -/
def irisMax (i : Nat) : Nat := 0x4260028 + i * 0x100
/-- IRIS.COUNT (20_deadlines_monitors_and_faults.md R579-R586, Table FLT-7). -/
def irisCount (i : Nat) : Nat := 0x4260030 + i * 0x100
/-- IRIS.SUM (20_deadlines_monitors_and_faults.md R579-R586, Table FLT-7). -/
def irisSum (i : Nat) : Nat := 0x4260038 + i * 0x100
/-- IRIS.BIN (20_deadlines_monitors_and_faults.md R579-R586, Table FLT-7). -/
def irisBin (i j : Nat) : Nat := 0x4260040 + i * 0x100 + j * 0x4
/-- IRIS_SNAP (20_deadlines_monitors_and_faults.md R579-R586, Table FLT-7). -/
def irisSnap : Nat := 0x426F000
/-- IRIS_SNAP_TIME (20_deadlines_monitors_and_faults.md R579-R586, Table FLT-7). -/
def irisSnapTime : Nat := 0x426F008
/-- IRIS.CFG_COMMIT (20_deadlines_monitors_and_faults.md, Table ADR-4). -/
def irisCfgCommit : Nat := 0x426FFF0
/-- IRIS.CFG_STATE (20_deadlines_monitors_and_faults.md, Table ADR-4). -/
def irisCfgState : Nat := 0x426FFF8

end Addr

namespace F

-- DEC_STATUS
def decStatus_PRIV_WRITE : Fld := ⟨0, 0⟩
def decStatus_RSVD_ACCESS : Fld := ⟨1, 1⟩
def decStatus_SIZE_ERR : Fld := ⟨2, 2⟩
def decStatus_SLEEP_ACCESS : Fld := ⟨3, 3⟩
def decStatus_LOG_VALID : Fld := ⟨8, 8⟩
-- DEC_LOG
def decLog_ADDR : Fld := ⟨31, 0⟩
def decLog_SRC_CHIP : Fld := ⟨39, 32⟩
def decLog_KIND : Fld := ⟨43, 40⟩
def decLog_WRITE : Fld := ⟨44, 44⟩
def decLog_SRC : Fld := ⟨55, 48⟩
-- DEC_PRIV_COUNT
def decPrivCount_COUNT : Fld := ⟨31, 0⟩
-- DEC_RSVD_COUNT
def decRsvdCount_COUNT : Fld := ⟨31, 0⟩
-- DEC_LOG_ARM
def decLogArm_REARM : Fld := ⟨0, 0⟩
-- BG.MODE
def bgMode_SHARED : Fld := ⟨0, 0⟩
def bgMode_SLOTTED : Fld := ⟨1, 1⟩
-- BG.WHEEL
def bgWheel_SLOT : Fld := ⟨31, 0⟩
-- BG.STATUS
def bgStatus_STARVED : Fld := ⟨0, 0⟩
def bgStatus_NOSLOT : Fld := ⟨1, 1⟩
def bgStatus_CE : Fld := ⟨2, 2⟩
def bgStatus_UE : Fld := ⟨3, 3⟩
def bgStatus_SCRUB_DROP : Fld := ⟨4, 4⟩
-- BG.STARVE_LIMIT
def bgStarveLimit_LIMIT : Fld := ⟨15, 0⟩
-- BG.CE_COUNT
def bgCeCount_COUNT : Fld := ⟨31, 0⟩
-- BG.UE_COUNT
def bgUeCount_COUNT : Fld := ⟨31, 0⟩
-- BG.ECC_LOG
def bgEccLog_OFFSET : Fld := ⟨19, 0⟩
def bgEccLog_SYNDROME : Fld := ⟨27, 20⟩
def bgEccLog_KIND : Fld := ⟨29, 28⟩
def bgEccLog_VALID : Fld := ⟨31, 31⟩
def bgEccLog_REQ : Fld := ⟨35, 32⟩
-- BG.STARVE_CYCLES
def bgStarveCycles_COUNT : Fld := ⟨31, 0⟩
-- BG.LOST_SLOTS
def bgLostSlots_COUNT : Fld := ⟨31, 0⟩
-- WHEEL_POS
def wheelPos_POS : Fld := ⟨2, 0⟩
-- BG.CFG_COMMIT
def bgCfgCommit_COMMIT : Fld := ⟨0, 0⟩
-- BG.CFG_STATE
def bgCfgState_PENDING : Fld := ⟨0, 0⟩
def bgCfgState_DIRTY : Fld := ⟨1, 1⟩
def bgCfgState_LOST_COMMIT : Fld := ⟨2, 2⟩
def bgCfgState_GEN : Fld := ⟨31, 16⟩
-- RLC_CTRL
def rlcCtrl_ENABLE : Fld := ⟨0, 0⟩
def rlcCtrl_FLUSH : Fld := ⟨1, 1⟩
-- RLC_STATUS
def rlcStatus_PERR : Fld := ⟨0, 0⟩
def rlcStatus_FLUSHING : Fld := ⟨1, 1⟩
-- RLC_HITS
def rlcHits_COUNT : Fld := ⟨31, 0⟩
-- RLC_MISSES
def rlcMisses_COUNT : Fld := ⟨31, 0⟩
-- RLC_EVICTS
def rlcEvicts_COUNT : Fld := ⟨31, 0⟩
-- RLC_SNOOP_HITS
def rlcSnoopHits_COUNT : Fld := ⟨31, 0⟩
-- RLC_SNOOP_MISSES
def rlcSnoopMisses_COUNT : Fld := ⟨31, 0⟩
-- RLC_PERR_COUNT
def rlcPerrCount_COUNT : Fld := ⟨31, 0⟩
-- SF_STATUS
def sfStatus_SWEEP : Fld := ⟨0, 0⟩
def sfStatus_TRACKER_FULL : Fld := ⟨1, 1⟩
-- SF_OCCUPANCY
def sfOccupancy_EXACT : Fld := ⟨12, 0⟩
def sfOccupancy_BROAD : Fld := ⟨28, 16⟩
-- SF_OUTSTANDING
def sfOutstanding_COUNT : Fld := ⟨4, 0⟩
-- SF_INV_SENT
def sfInvSent_COUNT : Fld := ⟨31, 0⟩
-- SF_BROAD_INV
def sfBroadInv_COUNT : Fld := ⟨31, 0⟩
-- SF_NOFILL_COUNT
def sfNofillCount_COUNT : Fld := ⟨31, 0⟩
-- SF_BACK_INV
def sfBackInv_COUNT : Fld := ⟨31, 0⟩
-- SF_LATE_COUNT
def sfLateCount_COUNT : Fld := ⟨31, 0⟩
-- MX_STATUS
def mxStatus_LA_BUSY : Fld := ⟨0, 0⟩
def mxStatus_LW_BUSY : Fld := ⟨1, 1⟩
def mxStatus_CMP_BUSY : Fld := ⟨2, 2⟩
def mxStatus_ST_BUSY : Fld := ⟨3, 3⟩
def mxStatus_QUEUE : Fld := ⟨7, 4⟩
def mxStatus_ERR : Fld := ⟨8, 8⟩
-- MX_STEPS
def mxSteps_COUNT : Fld := ⟨63, 0⟩
-- MX_SKIPPED
def mxSkipped_COUNT : Fld := ⟨63, 0⟩
-- MX_LAST
def mxLast_STEPS : Fld := ⟨23, 0⟩
def mxLast_CTX : Fld := ⟨25, 24⟩
-- MX_CMD_COUNT
def mxCmdCount_COUNT : Fld := ⟨31, 0⟩
-- MX_SAT_COUNT
def mxSatCount_COUNT : Fld := ⟨31, 0⟩
-- MX_ERR_LOG
def mxErrLog_CODE : Fld := ⟨7, 0⟩
def mxErrLog_CTX : Fld := ⟨9, 8⟩
def mxErrLog_UNIT : Fld := ⟨11, 10⟩
def mxErrLog_VALID : Fld := ⟨12, 12⟩
def mxErrLog_ADDR : Fld := ⟨63, 24⟩
-- MX_CTX_STEPS
def mxCtxSteps_COUNT : Fld := ⟨63, 0⟩
-- VX_STATUS
def vxStatus_BUSY : Fld := ⟨0, 0⟩
def vxStatus_CTX : Fld := ⟨2, 1⟩
def vxStatus_ERR : Fld := ⟨8, 8⟩
-- VX_STEPS
def vxSteps_COUNT : Fld := ⟨63, 0⟩
-- VX_CMD_COUNT
def vxCmdCount_COUNT : Fld := ⟨31, 0⟩
-- VX_SAT_COUNT
def vxSatCount_COUNT : Fld := ⟨31, 0⟩
-- VX_LNS_OVF_COUNT
def vxLnsOvfCount_COUNT : Fld := ⟨31, 0⟩
-- VX_LNS_UNF_COUNT
def vxLnsUnfCount_COUNT : Fld := ⟨31, 0⟩
-- VX_POS
def vxPos_LAST : Fld := ⟨23, 0⟩
-- VX_ERR_LOG
def vxErrLog_CODE : Fld := ⟨7, 0⟩
def vxErrLog_CTX : Fld := ⟨9, 8⟩
def vxErrLog_VALID : Fld := ⟨12, 12⟩
def vxErrLog_ADDR : Fld := ⟨63, 24⟩
-- VX_TABLE
def vxTable_ENTRY : Fld := ⟨31, 0⟩
-- CTX.HDR
def ctxHdr_IMG_VER : Fld := ⟨7, 0⟩
def ctxHdr_STATE : Fld := ⟨11, 8⟩
def ctxHdr_STOP_CAUSE : Fld := ⟨15, 12⟩
def ctxHdr_CTX_ID : Fld := ⟨31, 16⟩
-- CTX.CP
def ctxCp_CP : Fld := ⟨19, 0⟩
-- CTX.QBIND
def ctxQbind_QUEUE : Fld := ⟨13, 0⟩
def ctxQbind_TAKE : Fld := ⟨14, 14⟩
def ctxQbind_BOUND : Fld := ⟨15, 15⟩
-- CTX.CSTACK
def ctxCstack_CSP : Fld := ⟨19, 0⟩
def ctxCstack_CSP_LIMIT : Fld := ⟨39, 20⟩
def ctxCstack_CSP_TOP : Fld := ⟨59, 40⟩
-- CTX.FSP
def ctxFsp_FSP : Fld := ⟨39, 0⟩
-- CTX.FSP_LIMIT
def ctxFspLimit_FSP_LIMIT : Fld := ⟨39, 0⟩
-- CTX.CSA
def ctxCsa_CSA : Fld := ⟨19, 0⟩
-- CTX.SCHED
def ctxSched_PRIORITY : Fld := ⟨0, 0⟩
def ctxSched_POLICY : Fld := ⟨1, 1⟩
def ctxSched_DL_ARMED : Fld := ⟨2, 2⟩
def ctxSched_DL_MISSED : Fld := ⟨3, 3⟩
def ctxSched_LOOP_DEPTH : Fld := ⟨6, 4⟩
def ctxSched_WAIT_KIND : Fld := ⟨11, 8⟩
-- CTX.DEADLINE
def ctxDeadline_DEADLINE : Fld := ⟨63, 0⟩
-- CTX.WAIT_ARG
def ctxWaitArg_WAIT_ARG : Fld := ⟨63, 0⟩
-- CTX.WAIT_TARGET
def ctxWaitTarget_WAIT_TARGET : Fld := ⟨63, 0⟩
-- CTX.WD_LIMIT
def ctxWdLimit_WD_LIMIT : Fld := ⟨31, 0⟩
-- CTX.LOOP
def ctxLoop_START : Fld := ⟨19, 0⟩
def ctxLoop_COUNT : Fld := ⟨63, 32⟩
-- CTX.S
def ctxS_S : Fld := ⟨63, 0⟩
-- CTX.LC
def ctxLc_VALUE : Fld := ⟨47, 0⟩
def ctxLc_MODE : Fld := ⟨48, 48⟩
def ctxLc_SAT : Fld := ⟨49, 49⟩
-- CTX.ISSUED
def ctxIssued_ISSUED : Fld := ⟨63, 0⟩
-- CTX.LAST_OVERRUN
def ctxLastOverrun_LAST_OVERRUN : Fld := ⟨63, 0⟩
-- CTX.STATUS
def ctxStatus_BLOCK : Fld := ⟨3, 0⟩
def ctxStatus_WR_IGNORED : Fld := ⟨8, 8⟩
def ctxStatus_DMA_OUT : Fld := ⟨31, 16⟩
-- CTX.FAULT_COUNT
def ctxFaultCount_COUNT : Fld := ⟨31, 0⟩
-- SEQ_OP
def seqOp_OP : Fld := ⟨2, 0⟩
def seqOp_SLOT : Fld := ⟨5, 4⟩
def seqOp_GO : Fld := ⟨8, 8⟩
def seqOp_BUSY : Fld := ⟨9, 9⟩
def seqOp_RESULT : Fld := ⟨12, 10⟩
def seqOp_OP_LOST : Fld := ⟨13, 13⟩
-- SEQ_OP_ADDR
def seqOpAddr_OFFSET : Fld := ⟨19, 0⟩
-- SEQ_STATUS
def seqStatus_READY : Fld := ⟨3, 0⟩
def seqStatus_WAITING : Fld := ⟨7, 4⟩
def seqStatus_LAST : Fld := ⟨9, 8⟩
-- SEQ_STEPS
def seqSteps_COUNT : Fld := ⟨63, 0⟩
-- SEQ_SIG_REFUSED
def seqSigRefused_COUNT : Fld := ⟨31, 0⟩
-- FSNAP.INFO
def fsnapInfo_VALID : Fld := ⟨0, 0⟩
def fsnapInfo_SLOT : Fld := ⟨2, 1⟩
def fsnapInfo_REASON : Fld := ⟨6, 4⟩
def fsnapInfo_CODE : Fld := ⟨15, 8⟩
-- FSNAP.CP
def fsnapCp_OFFSET : Fld := ⟨19, 0⟩
-- FSNAP.FSP
def fsnapFsp_ADDR : Fld := ⟨39, 0⟩
-- FSNAP.TIME
def fsnapTime_VALUE : Fld := ⟨63, 0⟩
-- FSNAP.ADDR
def fsnapAddr_VALUE : Fld := ⟨39, 0⟩
-- FSNAP.LOST
def fsnapLost_COUNT : Fld := ⟨7, 0⟩
-- CC.VALUE
def ccValue_VALUE : Fld := ⟨47, 0⟩
-- CC.SIGNAL
def ccSignal_AMOUNT : Fld := ⟨31, 0⟩
-- CC.CFG
def ccCfg_MODE : Fld := ⟨0, 0⟩
def ccCfg_PAIR_EN : Fld := ⟨1, 1⟩
def ccCfg_ROLE : Fld := ⟨2, 2⟩
def ccCfg_PARTNER : Fld := ⟨24, 16⟩
def ccCfg_BOUND : Fld := ⟨47, 32⟩
-- CC.STATUS
def ccStatus_SAT : Fld := ⟨0, 0⟩
def ccStatus_OVER : Fld := ⟨1, 1⟩
def ccStatus_UNDER : Fld := ⟨2, 2⟩
def ccStatus_PAIR_BAD : Fld := ⟨3, 3⟩
-- CC.REFUSED_COUNT
def ccRefusedCount_COUNT : Fld := ⟨31, 0⟩
-- LCNT
def lcnt_VALUE : Fld := ⟨47, 0⟩
def lcnt_MODE : Fld := ⟨48, 48⟩
def lcnt_SAT : Fld := ⟨49, 49⟩
-- LCNT_SIGNAL
def lcntSignal_AMOUNT : Fld := ⟨31, 0⟩
-- BLOOM.MASK
def bloomMask_CORES : Fld := ⟨63, 0⟩
-- BLOOM.ARRIVED
def bloomArrived_CORES : Fld := ⟨63, 0⟩
-- BLOOM.STATE
def bloomState_PHASE : Fld := ⟨0, 0⟩
def bloomState_PD_STALL : Fld := ⟨1, 1⟩
-- BLOOM.COMPLETIONS
def bloomCompletions_COUNT : Fld := ⟨31, 0⟩
-- ASTER.MASK
def asterMask_CORES : Fld := ⟨63, 0⟩
-- ASTER.ARRIVED
def asterArrived_CORES : Fld := ⟨63, 0⟩
-- ASTER.STATE
def asterState_GEN : Fld := ⟨15, 0⟩
def asterState_ABORTED : Fld := ⟨16, 16⟩
def asterState_PARTICIPATING : Fld := ⟨17, 17⟩
def asterState_ROOT : Fld := ⟨18, 18⟩
-- SYNC_WT_FULL_COUNT
def syncWtFullCount_COUNT : Fld := ⟨31, 0⟩
-- Q.RING_ADDR
def qRingAddr_ADDR : Fld := ⟨63, 0⟩
-- Q.QCFG
def qQcfg_TYPE : Fld := ⟨2, 0⟩
def qQcfg_ESIZE : Fld := ⟨5, 4⟩
def qQcfg_LOG : Fld := ⟨12, 8⟩
def qQcfg_SPACE : Fld := ⟨16, 16⟩
def qQcfg_PMODE : Fld := ⟨17, 17⟩
def qQcfg_CMODE : Fld := ⟨18, 18⟩
def qQcfg_BIND : Fld := ⟨47, 32⟩
-- Q.THR
def qThr_LEVEL : Fld := ⟨20, 0⟩
def qThr_MODE : Fld := ⟨25, 24⟩
def qThr_SRC : Fld := ⟨40, 32⟩
-- Q.INDEX
def qIndex_PROD : Fld := ⟨31, 0⟩
def qIndex_CONS : Fld := ⟨63, 32⟩
-- DB_PROD
def dbProd_INDEX : Fld := ⟨31, 0⟩
-- DB_CONS
def dbCons_INDEX : Fld := ⟨31, 0⟩
-- Q_STATUS
def qStatus_DB_BAD : Fld := ⟨0, 0⟩
def qStatus_RING_ERR : Fld := ⟨1, 1⟩
def qStatus_CFG_BAD : Fld := ⟨2, 2⟩
def qStatus_RING_LOST : Fld := ⟨3, 3⟩
def qStatus_HELD_REFUSED : Fld := ⟨4, 4⟩
def qStatus_QUIET : Fld := ⟨8, 8⟩
def qStatus_DEPTH : Fld := ⟨31, 11⟩
-- Q.REFUSED_COUNT
def qRefusedCount_COUNT : Fld := ⟨31, 0⟩
-- Q.DB_BAD_COUNT
def qDbBadCount_COUNT : Fld := ⟨31, 0⟩
-- Q.CTRL
def qCtrl_HOLD : Fld := ⟨0, 0⟩
-- Q_ERR_LOG
def qErrLog_CODE : Fld := ⟨7, 0⟩
def qErrLog_OP : Fld := ⟨10, 8⟩
def qErrLog_VALID : Fld := ⟨16, 16⟩
def qErrLog_INDEX : Fld := ⟨63, 32⟩
-- Q.CFG_COMMIT
def qCfgCommit_COMMIT : Fld := ⟨0, 0⟩
-- Q.CFG_STATE
def qCfgState_PENDING : Fld := ⟨0, 0⟩
def qCfgState_DIRTY : Fld := ⟨1, 1⟩
def qCfgState_LOST_COMMIT : Fld := ⟨2, 2⟩
def qCfgState_GEN : Fld := ⟨31, 16⟩
-- CH_STATUS
def chStatus_STATE : Fld := ⟨2, 0⟩
def chStatus_OUTSTANDING : Fld := ⟨7, 4⟩
def chStatus_CAUSE : Fld := ⟨15, 8⟩
def chStatus_NEXT_HELD : Fld := ⟨16, 16⟩
-- CH_CTRL
def chCtrl_RESUME : Fld := ⟨0, 0⟩
def chCtrl_SKIP : Fld := ⟨1, 1⟩
-- CH_CFG
def chCfg_HALT_SRC : Fld := ⟨11, 0⟩
def chCfg_HALT_EN : Fld := ⟨12, 12⟩
def chCfg_NOTIFY_CTX : Fld := ⟨13, 13⟩
-- CH_PROG
def chProg_XOFF : Fld := ⟨15, 0⟩
def chProg_Y : Fld := ⟨31, 16⟩
def chProg_Z : Fld := ⟨47, 32⟩
def chProg_ACT : Fld := ⟨49, 48⟩
-- CH_ERR_ADDR
def chErrAddr_ADDR : Fld := ⟨63, 0⟩
-- CH_ERR_INFO
def chErrInfo_DETAIL : Fld := ⟨31, 0⟩
def chErrInfo_SIDE : Fld := ⟨32, 32⟩
def chErrInfo_INDET : Fld := ⟨33, 33⟩
def chErrInfo_SLOT : Fld := ⟨41, 40⟩
def chErrInfo_CTX_ID : Fld := ⟨63, 48⟩
-- CH_TAG
def chTag_TAG : Fld := ⟨31, 0⟩
-- CH_BYTES
def chBytes_COUNT : Fld := ⟨63, 0⟩
-- CH_DESC
def chDesc_WORD : Fld := ⟨63, 0⟩
-- HT_CTRL
def htCtrl_BYPASS : Fld := ⟨0, 0⟩
-- HT_ROOT
def htRoot_VALID : Fld := ⟨0, 0⟩
def htRoot_SPACE : Fld := ⟨1, 1⟩
def htRoot_ADDR : Fld := ⟨51, 12⟩
-- HT_INV
def htInv_MODE : Fld := ⟨1, 0⟩
def htInv_GO : Fld := ⟨8, 8⟩
def htInv_BUSY : Fld := ⟨9, 9⟩
-- HT_INV_ADDR
def htInvAddr_PAGE : Fld := ⟨38, 12⟩
-- HT_STATUS
def htStatus_INV_LOST : Fld := ⟨0, 0⟩
def htStatus_WALK_ERR : Fld := ⟨1, 1⟩
-- HT_HITS
def htHits_COUNT : Fld := ⟨31, 0⟩
-- HT_MISSES
def htMisses_COUNT : Fld := ⟨31, 0⟩
-- HT_FAULTS
def htFaults_COUNT : Fld := ⟨31, 0⟩
-- EVT.MASK
def evtMask_BITS : Fld := ⟨63, 0⟩
-- EVT.PEND
def evtPend_BITS : Fld := ⟨63, 0⟩
-- EVT.INSVC
def evtInsvc_BITS : Fld := ⟨63, 0⟩
-- EVT.INPUT
def evtInput_BITS : Fld := ⟨63, 0⟩
-- EVT_COMPLETE
def evtComplete_SOURCE : Fld := ⟨11, 0⟩
-- EVT_RAISE
def evtRaise_SOURCE : Fld := ⟨11, 0⟩
def evtRaise_PAYLOAD : Fld := ⟨63, 32⟩
-- EVT_STATUS
def evtStatus_BAD_COMPLETE : Fld := ⟨0, 0⟩
def evtStatus_BAD_RAISE : Fld := ⟨1, 1⟩
def evtStatus_CFG_ERR : Fld := ⟨2, 2⟩
def evtStatus_WRITE_ERR : Fld := ⟨3, 3⟩
-- EVT_DELIVERED
def evtDelivered_COUNT : Fld := ⟨31, 0⟩
-- EVT_SPURIOUS
def evtSpurious_COUNT : Fld := ⟨31, 0⟩
-- EVT_REPLAYS
def evtReplays_COUNT : Fld := ⟨31, 0⟩
-- EVT.HOLDOFF
def evtHoldoff_TICKS : Fld := ⟨23, 0⟩
-- TGT_CFG
def tgtCfg_COAL_N : Fld := ⟨7, 0⟩
def tgtCfg_COAL_T : Fld := ⟨31, 8⟩
def tgtCfg_SIG_EN : Fld := ⟨32, 32⟩
def tgtCfg_SIG_LC : Fld := ⟨36, 33⟩
def tgtCfg_IRQ : Fld := ⟨37, 37⟩
-- TGT_STATUS
def tgtStatus_INT : Fld := ⟨0, 0⟩
def tgtStatus_ERR : Fld := ⟨1, 1⟩
def tgtStatus_NO_QUEUE : Fld := ⟨2, 2⟩
def tgtStatus_STALL : Fld := ⟨3, 3⟩
def tgtStatus_SIG_REFUSED : Fld := ⟨4, 4⟩
def tgtStatus_QUEUE : Fld := ⟨29, 16⟩
-- TGT_RECORDS
def tgtRecords_COUNT : Fld := ⟨31, 0⟩
-- TGT_STALLS
def tgtStalls_COUNT : Fld := ⟨31, 0⟩
-- SRC_CFG
def srcCfg_SENSE : Fld := ⟨2, 0⟩
def srcCfg_COMP : Fld := ⟨3, 3⟩
-- SRC_STATE
def srcState_STATE : Fld := ⟨1, 0⟩
def srcState_SLOT_NEXT : Fld := ⟨5, 4⟩
def srcState_REP : Fld := ⟨15, 8⟩
def srcState_SAT : Fld := ⟨16, 16⟩
-- SRC_ROUTE
def srcRoute_TARGET_0 : Fld := ⟨7, 0⟩
def srcRoute_EN_0 : Fld := ⟨15, 15⟩
def srcRoute_TARGET_1 : Fld := ⟨23, 16⟩
def srcRoute_EN_1 : Fld := ⟨31, 31⟩
def srcRoute_TARGET_2 : Fld := ⟨39, 32⟩
def srcRoute_EN_2 : Fld := ⟨47, 47⟩
def srcRoute_TARGET_3 : Fld := ⟨55, 48⟩
def srcRoute_EN_3 : Fld := ⟨63, 63⟩
-- EVT.CFG_COMMIT
def evtCfgCommit_COMMIT : Fld := ⟨0, 0⟩
-- EVT.CFG_STATE
def evtCfgState_PENDING : Fld := ⟨0, 0⟩
def evtCfgState_DIRTY : Fld := ⟨1, 1⟩
def evtCfgState_LOST_COMMIT : Fld := ⟨2, 2⟩
def evtCfgState_GEN : Fld := ⟨31, 16⟩
-- LNK_STATE
def lnkState_STATE : Fld := ⟨2, 0⟩
def lnkState_RATE : Fld := ⟨5, 4⟩
def lnkState_TX_MAP : Fld := ⟨15, 8⟩
def lnkState_RX_MAP : Fld := ⟨23, 16⟩
-- LNK_CFG
def lnkCfg_RATE_MAX : Fld := ⟨1, 0⟩
def lnkCfg_LANE_EN : Fld := ⟨15, 8⟩
def lnkCfg_REPLAY_TIMEOUT : Fld := ⟨31, 16⟩
def lnkCfg_LANE_FAIL_THRESH : Fld := ⟨47, 32⟩
def lnkCfg_QUAR_HOLD : Fld := ⟨55, 48⟩
-- LNK_CTRL
def lnkCtrl_RETRAIN : Fld := ⟨0, 0⟩
def lnkCtrl_RELEASE : Fld := ⟨1, 1⟩
def lnkCtrl_DISABLE : Fld := ⟨2, 2⟩
-- LNK_ERR
def lnkErr_CRC : Fld := ⟨0, 0⟩
def lnkErr_FEC_UNCORR : Fld := ⟨1, 1⟩
def lnkErr_REPLAY : Fld := ⟨2, 2⟩
def lnkErr_LANE_FAIL : Fld := ⟨3, 3⟩
def lnkErr_TRAIN_FAIL : Fld := ⟨4, 4⟩
def lnkErr_CREDIT_ERR : Fld := ⟨5, 5⟩
def lnkErr_PROTO : Fld := ⟨6, 6⟩
def lnkErr_QUARANTINED : Fld := ⟨7, 7⟩
-- PARTNER_SERIAL
def partnerSerial_SERIAL : Fld := ⟨63, 0⟩
-- PARTNER_INFO
def partnerInfo_PORT : Fld := ⟨2, 0⟩
-- PARTNER_OFFER
def partnerOffer_VC0 : Fld := ⟨15, 0⟩
def partnerOffer_VC1 : Fld := ⟨31, 16⟩
def partnerOffer_VC2 : Fld := ⟨47, 32⟩
def partnerOffer_VC3 : Fld := ⟨63, 48⟩
-- LNK.FEC_CORR
def lnkFecCorr_COUNT : Fld := ⟨31, 0⟩
-- LNK.FEC_UNCORR
def lnkFecUncorr_COUNT : Fld := ⟨31, 0⟩
-- LNK.CRC_ERR
def lnkCrcErr_COUNT : Fld := ⟨31, 0⟩
-- LNK.REPLAYS
def lnkReplays_COUNT : Fld := ⟨31, 0⟩
-- LNK.NAKS_SENT
def lnkNaksSent_COUNT : Fld := ⟨31, 0⟩
-- LNK.TRAININGS
def lnkTrainings_COUNT : Fld := ⟨31, 0⟩
-- LNK.REMAPS
def lnkRemaps_COUNT : Fld := ⟨31, 0⟩
-- LANE_CORR
def laneCorr_COUNT : Fld := ⟨31, 0⟩
-- LNK.CFG_COMMIT
def lnkCfgCommit_COMMIT : Fld := ⟨0, 0⟩
-- LNK.CFG_STATE
def lnkCfgState_PENDING : Fld := ⟨0, 0⟩
def lnkCfgState_DIRTY : Fld := ⟨1, 1⟩
def lnkCfgState_LOST_COMMIT : Fld := ⟨2, 2⟩
def lnkCfgState_GEN : Fld := ⟨31, 16⟩
-- POD_STATE
def podState_STATE : Fld := ⟨1, 0⟩
def podState_NUM_VALID : Fld := ⟨2, 2⟩
def podState_ROOT : Fld := ⟨3, 3⟩
def podState_CHIP_NUM : Fld := ⟨15, 8⟩
def podState_EPOCH : Fld := ⟨23, 16⟩
def podState_PARENT_PORT : Fld := ⟨26, 24⟩
def podState_PARENT_VALID : Fld := ⟨27, 27⟩
def podState_TB_LOCKED : Fld := ⟨28, 28⟩
-- CHIP_SERIAL
def chipSerial_SERIAL : Fld := ⟨63, 0⟩
-- ROOT_SERIAL
def rootSerial_SERIAL : Fld := ⟨63, 0⟩
-- POD_CTRL
def podCtrl_MGMT_OPEN : Fld := ⟨0, 0⟩
def podCtrl_NR_HINT : Fld := ⟨31, 16⟩
-- MEMBER
def member_CHIPS : Fld := ⟨63, 0⟩
-- TB_OFFSET
def tbOffset_NS : Fld := ⟨31, 0⟩
-- TB_STEP
def tbStep_NS : Fld := ⟨63, 0⟩
-- POD_ERR
def podErr_PROTO : Fld := ⟨0, 0⟩
-- POD.DUP_ANSWERED
def podDupAnswered_COUNT : Fld := ⟨31, 0⟩
-- POD.STALE_SENT
def podStaleSent_COUNT : Fld := ⟨31, 0⟩
-- POD.STALE_RECEIVED
def podStaleReceived_COUNT : Fld := ⟨31, 0⟩
-- POD.NR_SENT
def podNrSent_COUNT : Fld := ⟨31, 0⟩
-- POD.NR_RECEIVED
def podNrReceived_COUNT : Fld := ⟨31, 0⟩
-- POD.RESENT
def podResent_COUNT : Fld := ⟨31, 0⟩
-- POD.ROUTE_ERR
def podRouteErr_COUNT : Fld := ⟨31, 0⟩
-- ROUTE
def route_PORT : Fld := ⟨2, 0⟩
def route_VALID : Fld := ⟨7, 7⟩
def route_HOPS : Fld := ⟨11, 8⟩
-- POD.CFG_COMMIT
def podCfgCommit_COMMIT : Fld := ⟨0, 0⟩
-- POD.CFG_STATE
def podCfgState_PENDING : Fld := ⟨0, 0⟩
def podCfgState_DIRTY : Fld := ⟨1, 1⟩
def podCfgState_LOST_COMMIT : Fld := ⟨2, 2⟩
def podCfgState_GEN : Fld := ⟨31, 16⟩
-- STW_STATUS
def stwStatus_PHASE : Fld := ⟨3, 0⟩
def stwStatus_READY : Fld := ⟨8, 8⟩
def stwStatus_IMG_BAD : Fld := ⟨9, 9⟩
def stwStatus_BOOT_SRC : Fld := ⟨13, 12⟩
def stwStatus_SLOT : Fld := ⟨16, 16⟩
-- STW_VERSION
def stwVersion_PROTO : Fld := ⟨7, 0⟩
def stwVersion_FW_PATCH : Fld := ⟨15, 8⟩
def stwVersion_FW_MINOR : Fld := ⟨23, 16⟩
def stwVersion_FW_MAJOR : Fld := ⟨31, 24⟩
def stwVersion_ROM_VER : Fld := ⟨39, 32⟩
-- EARLY_DROP
def earlyDrop_COUNT : Fld := ⟨31, 0⟩
-- BOOT_CTRL
def bootCtrl_LENGTH : Fld := ⟨17, 0⟩
def bootCtrl_GO : Fld := ⟨31, 31⟩
-- STW_HALT
def stwHalt_CAUSE : Fld := ⟨7, 0⟩
def stwHalt_EMERG : Fld := ⟨8, 8⟩
-- STW_HALT_TIME
def stwHaltTime_VALUE : Fld := ⟨63, 0⟩
-- MB.REQ
def mbReq_WORD : Fld := ⟨63, 0⟩
-- MB.RSP
def mbRsp_WORD : Fld := ⟨63, 0⟩
-- MB.DOORBELL
def mbDoorbell_RING : Fld := ⟨0, 0⟩
-- MB.STATE
def mbState_STATE : Fld := ⟨1, 0⟩
def mbState_DB_LOST : Fld := ⟨8, 8⟩
def mbState_LAST_VALID : Fld := ⟨9, 9⟩
def mbState_ORIGIN : Fld := ⟨13, 12⟩
def mbState_LAST_SEQ : Fld := ⟨31, 16⟩
-- MB.BULK
def mbBulk_IN_Q : Fld := ⟨13, 0⟩
def mbBulk_IN_EN : Fld := ⟨15, 15⟩
def mbBulk_OUT_Q : Fld := ⟨29, 16⟩
def mbBulk_OUT_EN : Fld := ⟨31, 31⟩
-- MB.DOORBELLS
def mbDoorbells_COUNT : Fld := ⟨31, 0⟩
-- PCIE_STATUS
def pcieStatus_LINK_UP : Fld := ⟨0, 0⟩
def pcieStatus_SPEED : Fld := ⟨3, 1⟩
def pcieStatus_WIDTH : Fld := ⟨7, 4⟩
def pcieStatus_BME : Fld := ⟨8, 8⟩
def pcieStatus_MSE : Fld := ⟨9, 9⟩
def pcieStatus_DSTATE : Fld := ⟨11, 10⟩
-- APT
def apt_CHIP : Fld := ⟨7, 0⟩
-- HOST_STATUS
def hostStatus_ACCESS_ERR : Fld := ⟨0, 0⟩
def hostStatus_PERST : Fld := ⟨1, 1⟩
def hostStatus_LINK_DOWN : Fld := ⟨2, 2⟩
-- HOST_ERR_LOG
def hostErrLog_OFFSET : Fld := ⟨32, 0⟩
def hostErrLog_WINDOW : Fld := ⟨35, 33⟩
def hostErrLog_WRITE : Fld := ⟨36, 36⟩
def hostErrLog_CODE : Fld := ⟨47, 40⟩
def hostErrLog_VALID : Fld := ⟨48, 48⟩
-- QT_CFG
def qtCfg_LINES : Fld := ⟨2, 0⟩
def qtCfg_DUMMY : Fld := ⟨12, 8⟩
def qtCfg_WIDE : Fld := ⟨16, 16⟩
-- QT_STATUS
def qtStatus_UNDERRUN : Fld := ⟨0, 0⟩
def qtStatus_ERR : Fld := ⟨1, 1⟩
def qtStatus_CMD_ERR : Fld := ⟨2, 2⟩
-- QT_ERR_LOG
def qtErrLog_ADDR : Fld := ⟨31, 0⟩
def qtErrLog_CODE : Fld := ⟨39, 32⟩
def qtErrLog_VALID : Fld := ⟨40, 40⟩
-- AUD_CFG0
def audCfg0_BUF_BASE : Fld := ⟨19, 0⟩
def audCfg0_BUF_BLOCKS : Fld := ⟨31, 24⟩
def audCfg0_BLOCK_FRAMES : Fld := ⟨47, 32⟩
def audCfg0_SIG_CTR : Fld := ⟨56, 48⟩
def audCfg0_SIG_EN : Fld := ⟨57, 57⟩
-- AUD_CFG1_TDM
def audCfg1Tdm_FORMAT : Fld := ⟨1, 0⟩
def audCfg1Tdm_CONTROLLER : Fld := ⟨2, 2⟩
def audCfg1Tdm_SLOTS_M1 : Fld := ⟨7, 4⟩
def audCfg1Tdm_SLOT_BITS : Fld := ⟨9, 8⟩
def audCfg1Tdm_SIZE32 : Fld := ⟨10, 10⟩
def audCfg1Tdm_BCLK_DIV : Fld := ⟨23, 16⟩
def audCfg1Tdm_RX_SLOTS : Fld := ⟨47, 32⟩
def audCfg1Tdm_TX_SLOTS : Fld := ⟨63, 48⟩
-- AUD_CFG1_PDM
def audCfg1Pdm_CLK_DIV : Fld := ⟨7, 0⟩
def audCfg1Pdm_DEC_R : Fld := ⟨24, 16⟩
def audCfg1Pdm_SHIFT : Fld := ⟨29, 25⟩
def audCfg1Pdm_SIZE32 : Fld := ⟨30, 30⟩
def audCfg1Pdm_CLK_EN : Fld := ⟨35, 32⟩
def audCfg1Pdm_CH_EN : Fld := ⟨63, 48⟩
-- AUD_CFG2_TDM
def audCfg2Tdm_TX_BASE : Fld := ⟨19, 0⟩
-- AUD_CFG2_PDM
def audCfg2Pdm_AUD_MCLK_HZ : Fld := ⟨31, 0⟩
-- AUD_CTRL
def audCtrl_ENABLE : Fld := ⟨0, 0⟩
-- AUD_STATUS
def audStatus_RUNNING : Fld := ⟨0, 0⟩
def audStatus_OVERRUN : Fld := ⟨1, 1⟩
def audStatus_FRAMING : Fld := ⟨2, 2⟩
-- AUD.BLOCKS
def audBlocks_COUNT : Fld := ⟨63, 0⟩
-- AUD.BLOCK_TIME
def audBlockTime_VALUE : Fld := ⟨63, 0⟩
-- AUD.DROPPED
def audDropped_COUNT : Fld := ⟨31, 0⟩
-- AUD.SAT_COUNT
def audSatCount_COUNT : Fld := ⟨31, 0⟩
-- PMB
def pmb_VOUT : Fld := ⟨15, 0⟩
def pmb_IOUT : Fld := ⟨31, 16⟩
def pmb_STATUS : Fld := ⟨47, 32⟩
-- PMB_STATUS
def pmbStatus_NACK : Fld := ⟨0, 0⟩
def pmbStatus_PEC : Fld := ⟨1, 1⟩
def pmbStatus_TIMEOUT : Fld := ⟨2, 2⟩
-- PMB_ERRS
def pmbErrs_COUNT : Fld := ⟨31, 0⟩
-- I2CT
def i2ct_ADDR : Fld := ⟨6, 0⟩
def i2ct_EN : Fld := ⟨7, 7⟩
-- GPIO_OUT
def gpioOut_BITS : Fld := ⟨15, 0⟩
-- GPIO_OE
def gpioOe_BITS : Fld := ⟨15, 0⟩
-- GPIO_IN
def gpioIn_BITS : Fld := ⟨15, 0⟩
-- GPIO_CFG
def gpioCfg_OD : Fld := ⟨0, 0⟩
def gpioCfg_PULL : Fld := ⟨2, 1⟩
def gpioCfg_FILTER : Fld := ⟨15, 8⟩
-- HOST.CFG_COMMIT
def hostCfgCommit_COMMIT : Fld := ⟨0, 0⟩
-- HOST.CFG_STATE
def hostCfgState_PENDING : Fld := ⟨0, 0⟩
def hostCfgState_DIRTY : Fld := ⟨1, 1⟩
def hostCfgState_LOST_COMMIT : Fld := ⟨2, 2⟩
def hostCfgState_GEN : Fld := ⟨31, 16⟩
-- PWR_STATE
def pwrState_STATE : Fld := ⟨1, 0⟩
def pwrState_VCORE_EN : Fld := ⟨4, 4⟩
def pwrState_VCORE_OK : Fld := ⟨5, 5⟩
def pwrState_FORCED : Fld := ⟨6, 6⟩
-- CORE_PWR
def corePwr_CORES : Fld := ⟨63, 0⟩
-- SPX
def spx_CORE : Fld := ⟨7, 0⟩
def spx_SEPAL : Fld := ⟨15, 8⟩
-- SPX_FLOOR
def spxFloor_CORE : Fld := ⟨7, 0⟩
def spxFloor_SEPAL : Fld := ⟨15, 8⟩
def spxFloor_REARM : Fld := ⟨31, 31⟩
-- TJ
def tj_MAX : Fld := ⟨15, 0⟩
def tj_SENSOR : Fld := ⟨18, 16⟩
-- TJ_PEAK
def tjPeak_PEAK : Fld := ⟨15, 0⟩
def tjPeak_REARM : Fld := ⟨31, 31⟩
-- THERM_CFG
def thermCfg_THERM_LIMIT : Fld := ⟨7, 0⟩
def thermCfg_TJ_ALARM : Fld := ⟨15, 8⟩
def thermCfg_SPX_ALARM : Fld := ⟨23, 16⟩
-- VCORE_STATUS
def vcoreStatus_REQ_MV : Fld := ⟨9, 0⟩
def vcoreStatus_CEILING_MV : Fld := ⟨25, 16⟩
def vcoreStatus_ADAPT : Fld := ⟨28, 28⟩
def vcoreStatus_SPX_TARGET : Fld := ⟨39, 32⟩
def vcoreStatus_VSEPAL_MV : Fld := ⟨57, 48⟩
-- PWR_STATUS
def pwrStatus_TRIPPED : Fld := ⟨0, 0⟩
def pwrStatus_BROWNOUT : Fld := ⟨1, 1⟩
def pwrStatus_VCORE_LOST : Fld := ⟨2, 2⟩
def pwrStatus_WAKE_REFUSED : Fld := ⟨3, 3⟩
-- WAKE_SRC
def wakeSrc_SOURCE : Fld := ⟨11, 0⟩
def wakeSrc_EN : Fld := ⟨15, 15⟩
-- SLEEP_COUNT
def sleepCount_COUNT : Fld := ⟨31, 0⟩
-- WAKE_COUNT
def wakeCount_COUNT : Fld := ⟨31, 0⟩
-- LAST_SLEEP_TIME
def lastSleepTime_VALUE : Fld := ⟨63, 0⟩
-- LAST_WAKE_TIME
def lastWakeTime_VALUE : Fld := ⟨63, 0⟩
-- RAIL_OK
def railOk_RAILS : Fld := ⟨6, 0⟩
/-- The bit of VCORE in RAIL_OK.RAILS (Table PWR-6). -/
def railOk_VCORE : Fld := ⟨3, 3⟩
-- PWR.CFG_COMMIT
def pwrCfgCommit_COMMIT : Fld := ⟨0, 0⟩
-- PWR.CFG_STATE
def pwrCfgState_PENDING : Fld := ⟨0, 0⟩
def pwrCfgState_DIRTY : Fld := ⟨1, 1⟩
def pwrCfgState_LOST_COMMIT : Fld := ⟨2, 2⟩
def pwrCfgState_GEN : Fld := ⟨31, 16⟩
-- TB_VALUE
def tbValue_VALUE : Fld := ⟨63, 0⟩
-- TB_STATUS
def tbStatus_LOCKED : Fld := ⟨0, 0⟩
def tbStatus_HOLDOVER : Fld := ⟨1, 1⟩
def tbStatus_REF_LOST : Fld := ⟨2, 2⟩
-- WD_STATUS
def wdStatus_LEFT_MS : Fld := ⟨31, 0⟩
def wdStatus_FROZEN : Fld := ⟨32, 32⟩
-- WD_CFG
def wdCfg_PERIOD_MS : Fld := ⟨15, 0⟩
def wdCfg_HOST_FEED : Fld := ⟨16, 16⟩
-- WD_CTRL
def wdCtrl_AUTO_RESET : Fld := ⟨0, 0⟩
def wdCtrl_RELEASE : Fld := ⟨1, 1⟩
-- WD_FIRED
def wdFired_COUNT : Fld := ⟨31, 0⟩
-- CHIP_ECC
def chipEcc_CE_COUNT : Fld := ⟨15, 0⟩
def chipEcc_UE_COUNT : Fld := ⟨23, 16⟩
def chipEcc_CE : Fld := ⟨24, 24⟩
-- CHIP_ECC_LOG
def chipEccLog_RAM : Fld := ⟨3, 0⟩
def chipEccLog_KIND : Fld := ⟨5, 4⟩
def chipEccLog_VALID : Fld := ⟨6, 6⟩
def chipEccLog_WORD : Fld := ⟨31, 8⟩
-- JRNL_STATUS
def jrnlStatus_SUPPRESSED : Fld := ⟨31, 0⟩
def jrnlStatus_TAP_LOST : Fld := ⟨47, 32⟩
-- SNAP.INFO
def snapInfo_VALID : Fld := ⟨0, 0⟩
def snapInfo_JOURNALED : Fld := ⟨1, 1⟩
def snapInfo_CAUSE : Fld := ⟨15, 8⟩
def snapInfo_LOST : Fld := ⟨23, 16⟩
-- SNAP.HDR
def snapHdr_WORD : Fld := ⟨63, 0⟩
-- SNAP.SLOT
def snapSlot_WORD : Fld := ⟨63, 0⟩
-- IRIS.CFG
def irisCfg_ENABLE : Fld := ⟨0, 0⟩
def irisCfg_PROBE : Fld := ⟨15, 8⟩
def irisCfg_LOG : Fld := ⟨16, 16⟩
def irisCfg_K : Fld := ⟨21, 17⟩
def irisCfg_ALARM_EN : Fld := ⟨24, 24⟩
-- IRIS.SELECT
def irisSelect_SELECT : Fld := ⟨63, 0⟩
-- IRIS.ALARM_HI
def irisAlarmHi_ALARM_HI : Fld := ⟨63, 0⟩
-- IRIS.STATUS
def irisStatus_ALARM : Fld := ⟨0, 0⟩
def irisStatus_SUM_OVF : Fld := ⟨1, 1⟩
def irisStatus_CFG_BAD : Fld := ⟨2, 2⟩
-- IRIS.MIN
def irisMin_VALUE : Fld := ⟨63, 0⟩
-- IRIS.MAX
def irisMax_VALUE : Fld := ⟨63, 0⟩
-- IRIS.COUNT
def irisCount_VALUE : Fld := ⟨63, 0⟩
-- IRIS.SUM
def irisSum_VALUE : Fld := ⟨63, 0⟩
-- IRIS.BIN
def irisBin_COUNT : Fld := ⟨31, 0⟩
-- IRIS_SNAP
def irisSnap_UNITS : Fld := ⟨31, 0⟩
def irisSnap_RESET : Fld := ⟨32, 32⟩
def irisSnap_GO : Fld := ⟨40, 40⟩
def irisSnap_BUSY : Fld := ⟨41, 41⟩
-- IRIS_SNAP_TIME
def irisSnapTime_VALUE : Fld := ⟨63, 0⟩
-- IRIS.CFG_COMMIT
def irisCfgCommit_COMMIT : Fld := ⟨0, 0⟩
-- IRIS.CFG_STATE
def irisCfgState_PENDING : Fld := ⟨0, 0⟩
def irisCfgState_DIRTY : Fld := ⟨1, 1⟩
def irisCfgState_LOST_COMMIT : Fld := ⟨2, 2⟩
def irisCfgState_GEN : Fld := ⟨31, 16⟩

end F

/-- Rows of the register tables of spec/02_addressing_and_registers.md. -/
def catalogue02_0 : List RegRow := [
  ⟨"DEC_STATUS", 0x427F000, [], false, false, [
    ⟨F.decStatus_PRIV_WRITE, .w1c, false, 0x0⟩, ⟨F.decStatus_RSVD_ACCESS, .w1c, false, 0x0⟩, ⟨F.decStatus_SIZE_ERR, .w1c, false, 0x0⟩, ⟨F.decStatus_SLEEP_ACCESS, .w1c, false, 0x0⟩, ⟨F.decStatus_LOG_VALID, .ro, false, 0x0⟩]⟩,
  ⟨"DEC_LOG", 0x427F008, [], true, false, [
    ⟨F.decLog_ADDR, .ro, false, 0x0⟩, ⟨F.decLog_SRC_CHIP, .ro, false, 0x0⟩, ⟨F.decLog_KIND, .ro, false, 0x0⟩, ⟨F.decLog_WRITE, .ro, false, 0x0⟩, ⟨F.decLog_SRC, .ro, false, 0x0⟩]⟩,
  ⟨"DEC_PRIV_COUNT", 0x427F010, [], false, false, [
    ⟨F.decPrivCount_COUNT, .rc, false, 0x0⟩]⟩,
  ⟨"DEC_RSVD_COUNT", 0x427F014, [], false, false, [
    ⟨F.decRsvdCount_COUNT, .rc, false, 0x0⟩]⟩,
  ⟨"DEC_LOG_ARM", 0x427F018, [], false, false, [
    ⟨F.decLogArm_REARM, .w1s, false, 0x0⟩]⟩,
  ⟨"BG.CFG_COMMIT", 0x5007FF0, [(64, 0x40000)], false, false, [
    ⟨F.bgCfgCommit_COMMIT, .wo, false, 0x0⟩]⟩,
  ⟨"BG.CFG_STATE", 0x5007FF8, [(64, 0x40000)], false, false, [
    ⟨F.bgCfgState_PENDING, .ro, false, 0x0⟩, ⟨F.bgCfgState_DIRTY, .ro, false, 0x0⟩, ⟨F.bgCfgState_LOST_COMMIT, .w1c, false, 0x0⟩, ⟨F.bgCfgState_GEN, .ro, false, 0x0⟩]⟩]

/-- Rows of the register tables of spec/03_local_memory.md. -/
def catalogue03_0 : List RegRow := [
  ⟨"BG.MODE", 0x5007000, [(64, 0x40000), (4, 0x100)], false, false, [
    ⟨F.bgMode_SHARED, .rw, true, 0x0⟩, ⟨F.bgMode_SLOTTED, .rw, true, 0x0⟩]⟩,
  ⟨"BG.WHEEL", 0x5007008, [(64, 0x40000), (4, 0x100)], false, false, [
    ⟨F.bgWheel_SLOT, .rw, true, 0x9A654321⟩]⟩,
  ⟨"BG.STATUS", 0x5007010, [(64, 0x40000), (4, 0x100)], false, false, [
    ⟨F.bgStatus_STARVED, .w1c, false, 0x0⟩, ⟨F.bgStatus_NOSLOT, .w1c, false, 0x0⟩, ⟨F.bgStatus_CE, .w1c, false, 0x0⟩, ⟨F.bgStatus_UE, .w1c, false, 0x0⟩, ⟨F.bgStatus_SCRUB_DROP, .w1c, false, 0x0⟩]⟩,
  ⟨"BG.STARVE_LIMIT", 0x5007018, [(64, 0x40000), (4, 0x100)], false, false, [
    ⟨F.bgStarveLimit_LIMIT, .rw, false, 0x400⟩]⟩,
  ⟨"BG.CE_COUNT", 0x5007020, [(64, 0x40000), (4, 0x100)], false, false, [
    ⟨F.bgCeCount_COUNT, .rc, false, 0x0⟩]⟩,
  ⟨"BG.UE_COUNT", 0x5007024, [(64, 0x40000), (4, 0x100)], false, false, [
    ⟨F.bgUeCount_COUNT, .rc, false, 0x0⟩]⟩,
  ⟨"BG.ECC_LOG", 0x5007028, [(64, 0x40000), (4, 0x100)], true, false, [
    ⟨F.bgEccLog_OFFSET, .ro, false, 0x0⟩, ⟨F.bgEccLog_SYNDROME, .ro, false, 0x0⟩, ⟨F.bgEccLog_KIND, .ro, false, 0x0⟩, ⟨F.bgEccLog_VALID, .w1c, false, 0x0⟩, ⟨F.bgEccLog_REQ, .ro, false, 0x0⟩]⟩,
  ⟨"BG.STARVE_CYCLES", 0x5007030, [(64, 0x40000), (4, 0x100)], false, false, [
    ⟨F.bgStarveCycles_COUNT, .rc, false, 0x0⟩]⟩,
  ⟨"BG.LOST_SLOTS", 0x5007034, [(64, 0x40000), (4, 0x100)], false, false, [
    ⟨F.bgLostSlots_COUNT, .rc, false, 0x0⟩]⟩,
  ⟨"WHEEL_POS", 0x5007400, [(64, 0x40000)], false, false, [
    ⟨F.wheelPos_POS, .ro, false, 0x0⟩]⟩]

/-- Rows of the register tables of spec/05_remote_access_and_coherence.md. -/
def catalogue05_0 : List RegRow := [
  ⟨"RLC_CTRL", 0x5008000, [(64, 0x40000)], false, false, [
    ⟨F.rlcCtrl_ENABLE, .rw, false, 0x1⟩, ⟨F.rlcCtrl_FLUSH, .w1s, false, 0x0⟩]⟩,
  ⟨"RLC_STATUS", 0x5008008, [(64, 0x40000)], false, false, [
    ⟨F.rlcStatus_PERR, .w1c, false, 0x0⟩, ⟨F.rlcStatus_FLUSHING, .ro, false, 0x0⟩]⟩,
  ⟨"RLC_HITS", 0x5008010, [(64, 0x40000)], false, false, [
    ⟨F.rlcHits_COUNT, .rc, false, 0x0⟩]⟩,
  ⟨"RLC_MISSES", 0x5008014, [(64, 0x40000)], false, false, [
    ⟨F.rlcMisses_COUNT, .rc, false, 0x0⟩]⟩,
  ⟨"RLC_EVICTS", 0x5008018, [(64, 0x40000)], false, false, [
    ⟨F.rlcEvicts_COUNT, .rc, false, 0x0⟩]⟩,
  ⟨"RLC_SNOOP_HITS", 0x500801C, [(64, 0x40000)], false, false, [
    ⟨F.rlcSnoopHits_COUNT, .rc, false, 0x0⟩]⟩,
  ⟨"RLC_SNOOP_MISSES", 0x5008020, [(64, 0x40000)], false, false, [
    ⟨F.rlcSnoopMisses_COUNT, .rc, false, 0x0⟩]⟩,
  ⟨"RLC_PERR_COUNT", 0x5008024, [(64, 0x40000)], false, false, [
    ⟨F.rlcPerrCount_COUNT, .rc, false, 0x0⟩]⟩,
  ⟨"SF_STATUS", 0x5009000, [(64, 0x40000)], false, false, [
    ⟨F.sfStatus_SWEEP, .ro, false, 0x0⟩, ⟨F.sfStatus_TRACKER_FULL, .w1c, false, 0x0⟩]⟩,
  ⟨"SF_OCCUPANCY", 0x5009008, [(64, 0x40000)], false, false, [
    ⟨F.sfOccupancy_EXACT, .ro, false, 0x0⟩, ⟨F.sfOccupancy_BROAD, .ro, false, 0x0⟩]⟩,
  ⟨"SF_OUTSTANDING", 0x500900C, [(64, 0x40000)], false, false, [
    ⟨F.sfOutstanding_COUNT, .ro, false, 0x0⟩]⟩,
  ⟨"SF_INV_SENT", 0x5009010, [(64, 0x40000)], false, false, [
    ⟨F.sfInvSent_COUNT, .rc, false, 0x0⟩]⟩]

/-- Rows of the register tables of spec/05_remote_access_and_coherence.md. -/
def catalogue05_1 : List RegRow := [
  ⟨"SF_BROAD_INV", 0x5009014, [(64, 0x40000)], false, false, [
    ⟨F.sfBroadInv_COUNT, .rc, false, 0x0⟩]⟩,
  ⟨"SF_NOFILL_COUNT", 0x5009018, [(64, 0x40000)], false, false, [
    ⟨F.sfNofillCount_COUNT, .rc, false, 0x0⟩]⟩,
  ⟨"SF_BACK_INV", 0x500901C, [(64, 0x40000)], false, false, [
    ⟨F.sfBackInv_COUNT, .rc, false, 0x0⟩]⟩,
  ⟨"SF_LATE_COUNT", 0x5009020, [(64, 0x40000)], false, false, [
    ⟨F.sfLateCount_COUNT, .rc, false, 0x0⟩]⟩]

/-- Rows of the register tables of spec/06_matrix_engine.md. -/
def catalogue06_0 : List RegRow := [
  ⟨"MX_STATUS", 0x5002000, [(64, 0x40000)], false, false, [
    ⟨F.mxStatus_LA_BUSY, .ro, false, 0x0⟩, ⟨F.mxStatus_LW_BUSY, .ro, false, 0x0⟩, ⟨F.mxStatus_CMP_BUSY, .ro, false, 0x0⟩, ⟨F.mxStatus_ST_BUSY, .ro, false, 0x0⟩, ⟨F.mxStatus_QUEUE, .ro, false, 0x0⟩, ⟨F.mxStatus_ERR, .w1c, false, 0x0⟩]⟩,
  ⟨"MX_STEPS", 0x5002008, [(64, 0x40000)], true, false, [
    ⟨F.mxSteps_COUNT, .rw, false, 0x0⟩]⟩,
  ⟨"MX_SKIPPED", 0x5002010, [(64, 0x40000)], true, false, [
    ⟨F.mxSkipped_COUNT, .rw, false, 0x0⟩]⟩,
  ⟨"MX_LAST", 0x5002018, [(64, 0x40000)], false, false, [
    ⟨F.mxLast_STEPS, .ro, false, 0x0⟩, ⟨F.mxLast_CTX, .ro, false, 0x0⟩]⟩,
  ⟨"MX_CMD_COUNT", 0x500201C, [(64, 0x40000)], false, false, [
    ⟨F.mxCmdCount_COUNT, .rc, false, 0x0⟩]⟩,
  ⟨"MX_SAT_COUNT", 0x5002020, [(64, 0x40000)], false, false, [
    ⟨F.mxSatCount_COUNT, .rc, false, 0x0⟩]⟩,
  ⟨"MX_ERR_LOG", 0x5002028, [(64, 0x40000)], true, false, [
    ⟨F.mxErrLog_CODE, .ro, false, 0x0⟩, ⟨F.mxErrLog_CTX, .ro, false, 0x0⟩, ⟨F.mxErrLog_UNIT, .ro, false, 0x0⟩, ⟨F.mxErrLog_VALID, .w1c, false, 0x0⟩, ⟨F.mxErrLog_ADDR, .ro, false, 0x0⟩]⟩,
  ⟨"MX_CTX_STEPS", 0x5002040, [(64, 0x40000), (4, 0x8)], true, false, [
    ⟨F.mxCtxSteps_COUNT, .rw, false, 0x0⟩]⟩]

/-- Rows of the register tables of spec/07_vector_engine.md. -/
def catalogue07_0 : List RegRow := [
  ⟨"VX_STATUS", 0x5003000, [(64, 0x40000)], false, false, [
    ⟨F.vxStatus_BUSY, .ro, false, 0x0⟩, ⟨F.vxStatus_CTX, .ro, false, 0x0⟩, ⟨F.vxStatus_ERR, .w1c, false, 0x0⟩]⟩,
  ⟨"VX_STEPS", 0x5003008, [(64, 0x40000)], true, false, [
    ⟨F.vxSteps_COUNT, .rw, false, 0x0⟩]⟩,
  ⟨"VX_CMD_COUNT", 0x5003010, [(64, 0x40000)], false, false, [
    ⟨F.vxCmdCount_COUNT, .rc, false, 0x0⟩]⟩,
  ⟨"VX_SAT_COUNT", 0x5003014, [(64, 0x40000)], false, false, [
    ⟨F.vxSatCount_COUNT, .rc, false, 0x0⟩]⟩,
  ⟨"VX_LNS_OVF_COUNT", 0x5003018, [(64, 0x40000)], false, false, [
    ⟨F.vxLnsOvfCount_COUNT, .rc, false, 0x0⟩]⟩,
  ⟨"VX_LNS_UNF_COUNT", 0x500301C, [(64, 0x40000)], false, false, [
    ⟨F.vxLnsUnfCount_COUNT, .rc, false, 0x0⟩]⟩,
  ⟨"VX_POS", 0x5003020, [(64, 0x40000)], false, false, [
    ⟨F.vxPos_LAST, .ro, false, 0x0⟩]⟩,
  ⟨"VX_ERR_LOG", 0x5003028, [(64, 0x40000)], true, false, [
    ⟨F.vxErrLog_CODE, .ro, false, 0x0⟩, ⟨F.vxErrLog_CTX, .ro, false, 0x0⟩, ⟨F.vxErrLog_VALID, .w1c, false, 0x0⟩, ⟨F.vxErrLog_ADDR, .ro, false, 0x0⟩]⟩,
  ⟨"VX_TABLE", 0x5004000, [(64, 0x40000), (4, 0x400), (256, 0x4)], false, false, [
    ⟨F.vxTable_ENTRY, .rw, false, 0x0⟩]⟩]

/-- Rows of the register tables of spec/08_sequencer_and_contexts.md. -/
def catalogue08_0 : List RegRow := [
  ⟨"CTX.HDR", 0x5001000, [(64, 0x40000), (4, 0x400)], true, false, [
    ⟨F.ctxHdr_IMG_VER, .ro, false, 0x1⟩, ⟨F.ctxHdr_STATE, .ro, false, 0x0⟩, ⟨F.ctxHdr_STOP_CAUSE, .ro, false, 0x0⟩, ⟨F.ctxHdr_CTX_ID, .rw, false, 0x0⟩]⟩,
  ⟨"CTX.CP", 0x5001008, [(64, 0x40000), (4, 0x400)], true, false, [
    ⟨F.ctxCp_CP, .rw, false, 0x0⟩]⟩,
  ⟨"CTX.QBIND", 0x5001010, [(64, 0x40000), (4, 0x400)], true, false, [
    ⟨F.ctxQbind_QUEUE, .rw, false, 0x0⟩, ⟨F.ctxQbind_TAKE, .rw, false, 0x0⟩, ⟨F.ctxQbind_BOUND, .rw, false, 0x0⟩]⟩,
  ⟨"CTX.CSTACK", 0x5001018, [(64, 0x40000), (4, 0x400)], true, false, [
    ⟨F.ctxCstack_CSP, .rw, false, 0x0⟩, ⟨F.ctxCstack_CSP_LIMIT, .rw, false, 0x0⟩, ⟨F.ctxCstack_CSP_TOP, .rw, false, 0x0⟩]⟩,
  ⟨"CTX.FSP", 0x5001020, [(64, 0x40000), (4, 0x400)], true, false, [
    ⟨F.ctxFsp_FSP, .rw, false, 0x0⟩]⟩,
  ⟨"CTX.FSP_LIMIT", 0x5001028, [(64, 0x40000), (4, 0x400)], true, false, [
    ⟨F.ctxFspLimit_FSP_LIMIT, .rw, false, 0x0⟩]⟩,
  ⟨"CTX.CSA", 0x5001030, [(64, 0x40000), (4, 0x400)], true, false, [
    ⟨F.ctxCsa_CSA, .rw, false, 0x0⟩]⟩,
  ⟨"CTX.SCHED", 0x5001038, [(64, 0x40000), (4, 0x400)], true, false, [
    ⟨F.ctxSched_PRIORITY, .rw, false, 0x0⟩, ⟨F.ctxSched_POLICY, .rw, false, 0x0⟩, ⟨F.ctxSched_DL_ARMED, .ro, false, 0x0⟩, ⟨F.ctxSched_DL_MISSED, .ro, false, 0x0⟩, ⟨F.ctxSched_LOOP_DEPTH, .ro, false, 0x0⟩, ⟨F.ctxSched_WAIT_KIND, .ro, false, 0x0⟩]⟩,
  ⟨"CTX.DEADLINE", 0x5001040, [(64, 0x40000), (4, 0x400)], true, false, [
    ⟨F.ctxDeadline_DEADLINE, .rw, false, 0x0⟩]⟩,
  ⟨"CTX.WAIT_ARG", 0x5001048, [(64, 0x40000), (4, 0x400)], true, false, [
    ⟨F.ctxWaitArg_WAIT_ARG, .ro, false, 0x0⟩]⟩,
  ⟨"CTX.WAIT_TARGET", 0x5001050, [(64, 0x40000), (4, 0x400)], true, false, [
    ⟨F.ctxWaitTarget_WAIT_TARGET, .ro, false, 0x0⟩]⟩,
  ⟨"CTX.WD_LIMIT", 0x5001058, [(64, 0x40000), (4, 0x400)], true, false, [
    ⟨F.ctxWdLimit_WD_LIMIT, .rw, false, 0x0⟩]⟩]

/-- Rows of the register tables of spec/08_sequencer_and_contexts.md. -/
def catalogue08_1 : List RegRow := [
  ⟨"CTX.LOOP", 0x5001060, [(64, 0x40000), (4, 0x400), (4, 0x8)], true, false, [
    ⟨F.ctxLoop_START, .ro, false, 0x0⟩, ⟨F.ctxLoop_COUNT, .ro, false, 0x0⟩]⟩,
  ⟨"CTX.S", 0x5001080, [(64, 0x40000), (4, 0x400), (8, 0x8)], true, false, [
    ⟨F.ctxS_S, .rw, false, 0x0⟩]⟩,
  ⟨"CTX.LC", 0x50010C0, [(64, 0x40000), (4, 0x400), (4, 0x8)], true, false, [
    ⟨F.ctxLc_VALUE, .rw, false, 0x0⟩, ⟨F.ctxLc_MODE, .rw, false, 0x0⟩, ⟨F.ctxLc_SAT, .w1c, false, 0x0⟩]⟩,
  ⟨"CTX.ISSUED", 0x50010E0, [(64, 0x40000), (4, 0x400)], true, false, [
    ⟨F.ctxIssued_ISSUED, .rw, false, 0x0⟩]⟩,
  ⟨"CTX.LAST_OVERRUN", 0x50010E8, [(64, 0x40000), (4, 0x400)], true, false, [
    ⟨F.ctxLastOverrun_LAST_OVERRUN, .rw, false, 0x0⟩]⟩,
  ⟨"CTX.STATUS", 0x5001100, [(64, 0x40000), (4, 0x400)], true, false, [
    ⟨F.ctxStatus_BLOCK, .ro, false, 0x0⟩, ⟨F.ctxStatus_WR_IGNORED, .w1c, false, 0x0⟩, ⟨F.ctxStatus_DMA_OUT, .ro, false, 0x0⟩]⟩,
  ⟨"CTX.FAULT_COUNT", 0x5001108, [(64, 0x40000), (4, 0x400)], true, false, [
    ⟨F.ctxFaultCount_COUNT, .rc, false, 0x0⟩]⟩,
  ⟨"SEQ_OP", 0x5000000, [(64, 0x40000)], false, false, [
    ⟨F.seqOp_OP, .rw, false, 0x0⟩, ⟨F.seqOp_SLOT, .rw, false, 0x0⟩, ⟨F.seqOp_GO, .w1s, false, 0x0⟩, ⟨F.seqOp_BUSY, .ro, false, 0x0⟩, ⟨F.seqOp_RESULT, .ro, false, 0x0⟩, ⟨F.seqOp_OP_LOST, .w1c, false, 0x0⟩]⟩,
  ⟨"SEQ_OP_ADDR", 0x5000008, [(64, 0x40000)], false, false, [
    ⟨F.seqOpAddr_OFFSET, .rw, false, 0x0⟩]⟩,
  ⟨"SEQ_STATUS", 0x5000010, [(64, 0x40000)], false, false, [
    ⟨F.seqStatus_READY, .ro, false, 0x0⟩, ⟨F.seqStatus_WAITING, .ro, false, 0x0⟩, ⟨F.seqStatus_LAST, .ro, false, 0x0⟩]⟩,
  ⟨"SEQ_STEPS", 0x5000018, [(64, 0x40000)], true, false, [
    ⟨F.seqSteps_COUNT, .rw, false, 0x0⟩]⟩,
  ⟨"SEQ_SIG_REFUSED", 0x5000020, [(64, 0x40000)], false, false, [
    ⟨F.seqSigRefused_COUNT, .rc, false, 0x0⟩]⟩]

/-- Rows of the register tables of spec/08_sequencer_and_contexts.md. -/
def catalogue08_2 : List RegRow := [
  ⟨"FSNAP.INFO", 0x500A000, [(64, 0x40000)], false, false, [
    ⟨F.fsnapInfo_VALID, .w1c, false, 0x0⟩, ⟨F.fsnapInfo_SLOT, .ro, false, 0x0⟩, ⟨F.fsnapInfo_REASON, .ro, false, 0x0⟩, ⟨F.fsnapInfo_CODE, .ro, false, 0x0⟩]⟩,
  ⟨"FSNAP.CP", 0x500A008, [(64, 0x40000)], false, false, [
    ⟨F.fsnapCp_OFFSET, .ro, false, 0x0⟩]⟩,
  ⟨"FSNAP.FSP", 0x500A010, [(64, 0x40000)], true, false, [
    ⟨F.fsnapFsp_ADDR, .ro, false, 0x0⟩]⟩,
  ⟨"FSNAP.TIME", 0x500A018, [(64, 0x40000)], true, false, [
    ⟨F.fsnapTime_VALUE, .ro, false, 0x0⟩]⟩,
  ⟨"FSNAP.ADDR", 0x500A020, [(64, 0x40000)], true, false, [
    ⟨F.fsnapAddr_VALUE, .ro, false, 0x0⟩]⟩,
  ⟨"FSNAP.LOST", 0x500A028, [(64, 0x40000)], false, false, [
    ⟨F.fsnapLost_COUNT, .rc, false, 0x0⟩]⟩]

/-- Rows of the register tables of spec/10_synchronisation.md. -/
def catalogue10_0 : List RegRow := [
  ⟨"CC.VALUE", 0x4200000, [(512, 0x80)], true, false, [
    ⟨F.ccValue_VALUE, .rw, false, 0x0⟩]⟩,
  ⟨"CC.SIGNAL", 0x4200008, [(512, 0x80)], true, false, [
    ⟨F.ccSignal_AMOUNT, .wo, false, 0x0⟩]⟩,
  ⟨"CC.CFG", 0x4200010, [(512, 0x80)], true, false, [
    ⟨F.ccCfg_MODE, .rw, false, 0x0⟩, ⟨F.ccCfg_PAIR_EN, .rw, false, 0x0⟩, ⟨F.ccCfg_ROLE, .rw, false, 0x0⟩, ⟨F.ccCfg_PARTNER, .rw, false, 0x0⟩, ⟨F.ccCfg_BOUND, .rw, false, 0x0⟩]⟩,
  ⟨"CC.STATUS", 0x4200018, [(512, 0x80)], false, false, [
    ⟨F.ccStatus_SAT, .w1c, false, 0x0⟩, ⟨F.ccStatus_OVER, .w1c, false, 0x0⟩, ⟨F.ccStatus_UNDER, .w1c, false, 0x0⟩, ⟨F.ccStatus_PAIR_BAD, .ro, false, 0x0⟩]⟩,
  ⟨"CC.REFUSED_COUNT", 0x420001C, [(512, 0x80)], false, false, [
    ⟨F.ccRefusedCount_COUNT, .rc, false, 0x0⟩]⟩,
  ⟨"LCNT", 0x500B000, [(64, 0x40000), (16, 0x20)], true, false, [
    ⟨F.lcnt_VALUE, .rw, false, 0x0⟩, ⟨F.lcnt_MODE, .rw, false, 0x0⟩, ⟨F.lcnt_SAT, .w1c, false, 0x0⟩]⟩,
  ⟨"LCNT_SIGNAL", 0x500B008, [(64, 0x40000), (16, 0x20)], false, false, [
    ⟨F.lcntSignal_AMOUNT, .wo, false, 0x0⟩]⟩,
  ⟨"BLOOM.MASK", 0x4210000, [(8, 0x40)], true, false, [
    ⟨F.bloomMask_CORES, .rw, false, 0x0⟩]⟩,
  ⟨"BLOOM.ARRIVED", 0x4210008, [(8, 0x40)], true, false, [
    ⟨F.bloomArrived_CORES, .ro, false, 0x0⟩]⟩,
  ⟨"BLOOM.STATE", 0x4210010, [(8, 0x40)], false, false, [
    ⟨F.bloomState_PHASE, .ro, false, 0x0⟩, ⟨F.bloomState_PD_STALL, .ro, false, 0x0⟩]⟩,
  ⟨"BLOOM.COMPLETIONS", 0x4210014, [(8, 0x40)], false, false, [
    ⟨F.bloomCompletions_COUNT, .rc, false, 0x0⟩]⟩,
  ⟨"ASTER.MASK", 0x4211000, [(64, 0x40)], true, false, [
    ⟨F.asterMask_CORES, .rw, false, 0x0⟩]⟩]

/-- Rows of the register tables of spec/10_synchronisation.md. -/
def catalogue10_1 : List RegRow := [
  ⟨"ASTER.ARRIVED", 0x4211008, [(64, 0x40)], true, false, [
    ⟨F.asterArrived_CORES, .ro, false, 0x0⟩]⟩,
  ⟨"ASTER.STATE", 0x4211010, [(64, 0x40)], false, false, [
    ⟨F.asterState_GEN, .ro, false, 0x0⟩, ⟨F.asterState_ABORTED, .w1c, false, 0x0⟩, ⟨F.asterState_PARTICIPATING, .ro, false, 0x0⟩, ⟨F.asterState_ROOT, .ro, false, 0x0⟩]⟩,
  ⟨"SYNC_WT_FULL_COUNT", 0x421F000, [], false, false, [
    ⟨F.syncWtFullCount_COUNT, .rc, false, 0x0⟩]⟩]

/-- Rows of the register tables of spec/11_queue_engine.md. -/
def catalogue11_0 : List RegRow := [
  ⟨"Q.RING_ADDR", 0x4000000, [(16384, 0x40)], true, false, [
    ⟨F.qRingAddr_ADDR, .rw, true, 0x0⟩]⟩,
  ⟨"Q.QCFG", 0x4000008, [(16384, 0x40)], true, false, [
    ⟨F.qQcfg_TYPE, .rw, true, 0x0⟩, ⟨F.qQcfg_ESIZE, .rw, true, 0x0⟩, ⟨F.qQcfg_LOG, .rw, true, 0x0⟩, ⟨F.qQcfg_SPACE, .rw, true, 0x0⟩, ⟨F.qQcfg_PMODE, .rw, true, 0x0⟩, ⟨F.qQcfg_CMODE, .rw, true, 0x0⟩, ⟨F.qQcfg_BIND, .rw, true, 0x0⟩]⟩,
  ⟨"Q.THR", 0x4000010, [(16384, 0x40)], true, false, [
    ⟨F.qThr_LEVEL, .rw, false, 0x0⟩, ⟨F.qThr_MODE, .rw, false, 0x0⟩, ⟨F.qThr_SRC, .rw, false, 0x0⟩]⟩,
  ⟨"Q.INDEX", 0x4000018, [(16384, 0x40)], true, false, [
    ⟨F.qIndex_PROD, .ro, false, 0x0⟩, ⟨F.qIndex_CONS, .ro, false, 0x0⟩]⟩,
  ⟨"DB_PROD", 0x4100000, [(16384, 0x40)], false, false, [
    ⟨F.dbProd_INDEX, .rw, false, 0x0⟩]⟩,
  ⟨"DB_CONS", 0x4100008, [(16384, 0x40)], false, false, [
    ⟨F.dbCons_INDEX, .rw, false, 0x0⟩]⟩,
  ⟨"Q_STATUS", 0x4100010, [(16384, 0x40)], false, false, [
    ⟨F.qStatus_DB_BAD, .w1c, false, 0x0⟩, ⟨F.qStatus_RING_ERR, .w1c, false, 0x0⟩, ⟨F.qStatus_CFG_BAD, .ro, false, 0x0⟩, ⟨F.qStatus_RING_LOST, .w1c, false, 0x0⟩, ⟨F.qStatus_HELD_REFUSED, .w1c, false, 0x0⟩, ⟨F.qStatus_QUIET, .ro, false, 0x0⟩, ⟨F.qStatus_DEPTH, .ro, false, 0x0⟩]⟩,
  ⟨"Q.REFUSED_COUNT", 0x4100018, [(16384, 0x40)], false, false, [
    ⟨F.qRefusedCount_COUNT, .rc, false, 0x0⟩]⟩,
  ⟨"Q.DB_BAD_COUNT", 0x410001C, [(16384, 0x40)], false, false, [
    ⟨F.qDbBadCount_COUNT, .rc, false, 0x0⟩]⟩,
  ⟨"Q.CTRL", 0x4100020, [(16384, 0x40)], false, false, [
    ⟨F.qCtrl_HOLD, .rw, false, 0x0⟩]⟩,
  ⟨"Q_ERR_LOG", 0x4100028, [(16384, 0x40)], true, false, [
    ⟨F.qErrLog_CODE, .ro, false, 0x0⟩, ⟨F.qErrLog_OP, .ro, false, 0x0⟩, ⟨F.qErrLog_VALID, .w1c, false, 0x0⟩, ⟨F.qErrLog_INDEX, .ro, false, 0x0⟩]⟩,
  ⟨"Q.CFG_COMMIT", 0x4100030, [(16384, 0x40)], false, false, [
    ⟨F.qCfgCommit_COMMIT, .wo, false, 0x0⟩]⟩]

/-- Rows of the register tables of spec/11_queue_engine.md. -/
def catalogue11_1 : List RegRow := [
  ⟨"Q.CFG_STATE", 0x4100038, [(16384, 0x40)], false, false, [
    ⟨F.qCfgState_PENDING, .ro, false, 0x0⟩, ⟨F.qCfgState_DIRTY, .ro, false, 0x0⟩, ⟨F.qCfgState_LOST_COMMIT, .w1c, false, 0x0⟩, ⟨F.qCfgState_GEN, .ro, false, 0x0⟩]⟩]

/-- Rows of the register tables of spec/12_dma_and_host_translation.md. -/
def catalogue12_0 : List RegRow := [
  ⟨"CH_STATUS", 0x5006000, [(64, 0x40000), (4, 0x100)], false, false, [
    ⟨F.chStatus_STATE, .ro, false, 0x0⟩, ⟨F.chStatus_OUTSTANDING, .ro, false, 0x0⟩, ⟨F.chStatus_CAUSE, .ro, false, 0x0⟩, ⟨F.chStatus_NEXT_HELD, .ro, false, 0x0⟩]⟩,
  ⟨"CH_CTRL", 0x5006008, [(64, 0x40000), (4, 0x100)], false, false, [
    ⟨F.chCtrl_RESUME, .w1s, false, 0x0⟩, ⟨F.chCtrl_SKIP, .w1s, false, 0x0⟩]⟩,
  ⟨"CH_CFG", 0x5006010, [(64, 0x40000), (4, 0x100)], false, false, [
    ⟨F.chCfg_HALT_SRC, .rw, false, 0x0⟩, ⟨F.chCfg_HALT_EN, .rw, false, 0x0⟩, ⟨F.chCfg_NOTIFY_CTX, .rw, false, 0x1⟩]⟩,
  ⟨"CH_PROG", 0x5006018, [(64, 0x40000), (4, 0x100)], true, false, [
    ⟨F.chProg_XOFF, .ro, false, 0x0⟩, ⟨F.chProg_Y, .ro, false, 0x0⟩, ⟨F.chProg_Z, .ro, false, 0x0⟩, ⟨F.chProg_ACT, .ro, false, 0x0⟩]⟩,
  ⟨"CH_ERR_ADDR", 0x5006020, [(64, 0x40000), (4, 0x100)], true, false, [
    ⟨F.chErrAddr_ADDR, .ro, false, 0x0⟩]⟩,
  ⟨"CH_ERR_INFO", 0x5006028, [(64, 0x40000), (4, 0x100)], true, false, [
    ⟨F.chErrInfo_DETAIL, .ro, false, 0x0⟩, ⟨F.chErrInfo_SIDE, .ro, false, 0x0⟩, ⟨F.chErrInfo_INDET, .ro, false, 0x0⟩, ⟨F.chErrInfo_SLOT, .ro, false, 0x0⟩, ⟨F.chErrInfo_CTX_ID, .ro, false, 0x0⟩]⟩,
  ⟨"CH_TAG", 0x5006030, [(64, 0x40000), (4, 0x100)], false, false, [
    ⟨F.chTag_TAG, .ro, false, 0x0⟩]⟩,
  ⟨"CH_BYTES", 0x5006038, [(64, 0x40000), (4, 0x100)], true, false, [
    ⟨F.chBytes_COUNT, .rw, false, 0x0⟩]⟩,
  ⟨"CH_DESC", 0x5006040, [(64, 0x40000), (4, 0x100), (8, 0x8)], true, false, [
    ⟨F.chDesc_WORD, .ro, false, 0x0⟩]⟩,
  ⟨"HT_CTRL", 0x431C000, [], false, false, [
    ⟨F.htCtrl_BYPASS, .rw, false, 0x0⟩]⟩,
  ⟨"HT_ROOT", 0x431C008, [], true, false, [
    ⟨F.htRoot_VALID, .rw, false, 0x0⟩, ⟨F.htRoot_SPACE, .rw, false, 0x0⟩, ⟨F.htRoot_ADDR, .rw, false, 0x0⟩]⟩,
  ⟨"HT_INV", 0x431C010, [], false, false, [
    ⟨F.htInv_MODE, .rw, false, 0x0⟩, ⟨F.htInv_GO, .w1s, false, 0x0⟩, ⟨F.htInv_BUSY, .ro, false, 0x0⟩]⟩]

/-- Rows of the register tables of spec/12_dma_and_host_translation.md. -/
def catalogue12_1 : List RegRow := [
  ⟨"HT_INV_ADDR", 0x431C018, [], true, false, [
    ⟨F.htInvAddr_PAGE, .rw, false, 0x0⟩]⟩,
  ⟨"HT_STATUS", 0x431C020, [], false, false, [
    ⟨F.htStatus_INV_LOST, .w1c, false, 0x0⟩, ⟨F.htStatus_WALK_ERR, .w1c, false, 0x0⟩]⟩,
  ⟨"HT_HITS", 0x431C028, [], false, false, [
    ⟨F.htHits_COUNT, .rc, false, 0x0⟩]⟩,
  ⟨"HT_MISSES", 0x431C02C, [], false, false, [
    ⟨F.htMisses_COUNT, .rc, false, 0x0⟩]⟩,
  ⟨"HT_FAULTS", 0x431C030, [], false, false, [
    ⟨F.htFaults_COUNT, .rc, false, 0x0⟩]⟩]

/-- Rows of the register tables of spec/13_event_controller.md. -/
def catalogue13_0 : List RegRow := [
  ⟨"EVT.MASK", 0x4220000, [(64, 0x20)], true, true, [
    ⟨F.evtMask_BITS, .rw, false, 0xFFFFFFFFFFFFFFFF⟩]⟩,
  ⟨"EVT.PEND", 0x4220800, [(64, 0x20)], true, true, [
    ⟨F.evtPend_BITS, .rw, false, 0x0⟩]⟩,
  ⟨"EVT.INSVC", 0x4221000, [(64, 0x8)], true, false, [
    ⟨F.evtInsvc_BITS, .ro, false, 0x0⟩]⟩,
  ⟨"EVT.INPUT", 0x4221200, [(64, 0x8)], true, false, [
    ⟨F.evtInput_BITS, .ro, false, 0x0⟩]⟩,
  ⟨"EVT_COMPLETE", 0x4221400, [], false, false, [
    ⟨F.evtComplete_SOURCE, .wo, false, 0x0⟩]⟩,
  ⟨"EVT_RAISE", 0x4221408, [], true, false, [
    ⟨F.evtRaise_SOURCE, .wo, false, 0x0⟩, ⟨F.evtRaise_PAYLOAD, .wo, false, 0x0⟩]⟩,
  ⟨"EVT_STATUS", 0x4221410, [], false, false, [
    ⟨F.evtStatus_BAD_COMPLETE, .w1c, false, 0x0⟩, ⟨F.evtStatus_BAD_RAISE, .w1c, false, 0x0⟩, ⟨F.evtStatus_CFG_ERR, .w1c, false, 0x0⟩, ⟨F.evtStatus_WRITE_ERR, .w1c, false, 0x0⟩]⟩,
  ⟨"EVT_DELIVERED", 0x4221418, [], false, false, [
    ⟨F.evtDelivered_COUNT, .rc, false, 0x0⟩]⟩,
  ⟨"EVT_SPURIOUS", 0x422141C, [], false, false, [
    ⟨F.evtSpurious_COUNT, .rc, false, 0x0⟩]⟩,
  ⟨"EVT_REPLAYS", 0x4221420, [], false, false, [
    ⟨F.evtReplays_COUNT, .rc, false, 0x0⟩]⟩,
  ⟨"EVT.HOLDOFF", 0x4222000, [(64, 0x8)], false, false, [
    ⟨F.evtHoldoff_TICKS, .rw, true, 0x0⟩]⟩,
  ⟨"TGT_CFG", 0x4223000, [(129, 0x20)], true, false, [
    ⟨F.tgtCfg_COAL_N, .rw, true, 0x1⟩, ⟨F.tgtCfg_COAL_T, .rw, true, 0x0⟩, ⟨F.tgtCfg_SIG_EN, .rw, true, 0x0⟩, ⟨F.tgtCfg_SIG_LC, .rw, true, 0x0⟩, ⟨F.tgtCfg_IRQ, .rw, true, 0x0⟩]⟩]

/-- Rows of the register tables of spec/13_event_controller.md. -/
def catalogue13_1 : List RegRow := [
  ⟨"TGT_STATUS", 0x4223008, [(129, 0x20)], false, false, [
    ⟨F.tgtStatus_INT, .ro, false, 0x0⟩, ⟨F.tgtStatus_ERR, .w1c, false, 0x0⟩, ⟨F.tgtStatus_NO_QUEUE, .ro, false, 0x1⟩, ⟨F.tgtStatus_STALL, .w1c, false, 0x0⟩, ⟨F.tgtStatus_SIG_REFUSED, .w1c, false, 0x0⟩, ⟨F.tgtStatus_QUEUE, .ro, false, 0x0⟩]⟩,
  ⟨"TGT_RECORDS", 0x4223010, [(129, 0x20)], false, false, [
    ⟨F.tgtRecords_COUNT, .rc, false, 0x0⟩]⟩,
  ⟨"TGT_STALLS", 0x4223014, [(129, 0x20)], false, false, [
    ⟨F.tgtStalls_COUNT, .rc, false, 0x0⟩]⟩,
  ⟨"SRC_CFG", 0x4228000, [(4095, 0x10)], false, false, [
    ⟨F.srcCfg_SENSE, .rw, true, 0x0⟩, ⟨F.srcCfg_COMP, .rw, true, 0x0⟩]⟩,
  ⟨"SRC_STATE", 0x4228004, [(4095, 0x10)], false, false, [
    ⟨F.srcState_STATE, .ro, false, 0x0⟩, ⟨F.srcState_SLOT_NEXT, .ro, false, 0x0⟩, ⟨F.srcState_REP, .ro, false, 0x0⟩, ⟨F.srcState_SAT, .ro, false, 0x0⟩]⟩,
  ⟨"SRC_ROUTE", 0x4228008, [(4095, 0x10)], true, false, [
    ⟨F.srcRoute_TARGET_0, .rw, true, 0x0⟩, ⟨F.srcRoute_EN_0, .rw, true, 0x0⟩, ⟨F.srcRoute_TARGET_1, .rw, true, 0x0⟩, ⟨F.srcRoute_EN_1, .rw, true, 0x0⟩, ⟨F.srcRoute_TARGET_2, .rw, true, 0x0⟩, ⟨F.srcRoute_EN_2, .rw, true, 0x0⟩, ⟨F.srcRoute_TARGET_3, .rw, true, 0x0⟩, ⟨F.srcRoute_EN_3, .rw, true, 0x0⟩]⟩,
  ⟨"EVT.CFG_COMMIT", 0x423FFF0, [], false, false, [
    ⟨F.evtCfgCommit_COMMIT, .wo, false, 0x0⟩]⟩,
  ⟨"EVT.CFG_STATE", 0x423FFF8, [], false, false, [
    ⟨F.evtCfgState_PENDING, .ro, false, 0x0⟩, ⟨F.evtCfgState_DIRTY, .ro, false, 0x0⟩, ⟨F.evtCfgState_LOST_COMMIT, .w1c, false, 0x0⟩, ⟨F.evtCfgState_GEN, .ro, false, 0x0⟩]⟩]

/-- Rows of the register tables of spec/14_link_physical_and_link_layers.md. -/
def catalogue14_0 : List RegRow := [
  ⟨"LNK_STATE", 0x4280000, [(8, 0x10000)], false, false, [
    ⟨F.lnkState_STATE, .ro, false, 0x0⟩, ⟨F.lnkState_RATE, .ro, false, 0x0⟩, ⟨F.lnkState_TX_MAP, .ro, false, 0x0⟩, ⟨F.lnkState_RX_MAP, .ro, false, 0x0⟩]⟩,
  ⟨"LNK_CFG", 0x4280008, [(8, 0x10000)], true, false, [
    ⟨F.lnkCfg_RATE_MAX, .rw, true, 0x0⟩, ⟨F.lnkCfg_LANE_EN, .rw, true, 0xFF⟩, ⟨F.lnkCfg_REPLAY_TIMEOUT, .rw, true, 0x40⟩, ⟨F.lnkCfg_LANE_FAIL_THRESH, .rw, true, 0x1000⟩, ⟨F.lnkCfg_QUAR_HOLD, .rw, true, 0xA⟩]⟩,
  ⟨"LNK_CTRL", 0x4280010, [(8, 0x10000)], false, false, [
    ⟨F.lnkCtrl_RETRAIN, .w1s, false, 0x0⟩, ⟨F.lnkCtrl_RELEASE, .w1s, false, 0x0⟩, ⟨F.lnkCtrl_DISABLE, .rw, false, 0x0⟩]⟩,
  ⟨"LNK_ERR", 0x4280018, [(8, 0x10000)], false, false, [
    ⟨F.lnkErr_CRC, .w1c, false, 0x0⟩, ⟨F.lnkErr_FEC_UNCORR, .w1c, false, 0x0⟩, ⟨F.lnkErr_REPLAY, .w1c, false, 0x0⟩, ⟨F.lnkErr_LANE_FAIL, .w1c, false, 0x0⟩, ⟨F.lnkErr_TRAIN_FAIL, .w1c, false, 0x0⟩, ⟨F.lnkErr_CREDIT_ERR, .w1c, false, 0x0⟩, ⟨F.lnkErr_PROTO, .w1c, false, 0x0⟩, ⟨F.lnkErr_QUARANTINED, .w1c, false, 0x0⟩]⟩,
  ⟨"PARTNER_SERIAL", 0x4280020, [(8, 0x10000)], true, false, [
    ⟨F.partnerSerial_SERIAL, .ro, false, 0x0⟩]⟩,
  ⟨"PARTNER_INFO", 0x4280028, [(8, 0x10000)], false, false, [
    ⟨F.partnerInfo_PORT, .ro, false, 0x0⟩]⟩,
  ⟨"PARTNER_OFFER", 0x4280030, [(8, 0x10000)], true, false, [
    ⟨F.partnerOffer_VC0, .ro, false, 0x0⟩, ⟨F.partnerOffer_VC1, .ro, false, 0x0⟩, ⟨F.partnerOffer_VC2, .ro, false, 0x0⟩, ⟨F.partnerOffer_VC3, .ro, false, 0x0⟩]⟩,
  ⟨"LNK.FEC_CORR", 0x4280040, [(8, 0x10000)], false, false, [
    ⟨F.lnkFecCorr_COUNT, .rc, false, 0x0⟩]⟩,
  ⟨"LNK.FEC_UNCORR", 0x4280044, [(8, 0x10000)], false, false, [
    ⟨F.lnkFecUncorr_COUNT, .rc, false, 0x0⟩]⟩,
  ⟨"LNK.CRC_ERR", 0x4280048, [(8, 0x10000)], false, false, [
    ⟨F.lnkCrcErr_COUNT, .rc, false, 0x0⟩]⟩,
  ⟨"LNK.REPLAYS", 0x428004C, [(8, 0x10000)], false, false, [
    ⟨F.lnkReplays_COUNT, .rc, false, 0x0⟩]⟩,
  ⟨"LNK.NAKS_SENT", 0x4280050, [(8, 0x10000)], false, false, [
    ⟨F.lnkNaksSent_COUNT, .rc, false, 0x0⟩]⟩]

/-- Rows of the register tables of spec/14_link_physical_and_link_layers.md. -/
def catalogue14_1 : List RegRow := [
  ⟨"LNK.TRAININGS", 0x4280054, [(8, 0x10000)], false, false, [
    ⟨F.lnkTrainings_COUNT, .rc, false, 0x0⟩]⟩,
  ⟨"LNK.REMAPS", 0x4280058, [(8, 0x10000)], false, false, [
    ⟨F.lnkRemaps_COUNT, .rc, false, 0x0⟩]⟩,
  ⟨"LANE_CORR", 0x4280080, [(8, 0x10000), (8, 0x4)], false, false, [
    ⟨F.laneCorr_COUNT, .rc, false, 0x0⟩]⟩,
  ⟨"LNK.CFG_COMMIT", 0x428FFF0, [(8, 0x10000)], false, false, [
    ⟨F.lnkCfgCommit_COMMIT, .wo, false, 0x0⟩]⟩,
  ⟨"LNK.CFG_STATE", 0x428FFF8, [(8, 0x10000)], false, false, [
    ⟨F.lnkCfgState_PENDING, .ro, false, 0x0⟩, ⟨F.lnkCfgState_DIRTY, .ro, false, 0x0⟩, ⟨F.lnkCfgState_LOST_COMMIT, .w1c, false, 0x0⟩, ⟨F.lnkCfgState_GEN, .ro, false, 0x0⟩]⟩]

/-- Rows of the register tables of spec/15_link_transactions_and_pod.md. -/
def catalogue15_0 : List RegRow := [
  ⟨"POD_STATE", 0x4300000, [], false, false, [
    ⟨F.podState_STATE, .rw, true, 0x0⟩, ⟨F.podState_NUM_VALID, .rw, true, 0x0⟩, ⟨F.podState_ROOT, .rw, true, 0x0⟩, ⟨F.podState_CHIP_NUM, .rw, true, 0xFF⟩, ⟨F.podState_EPOCH, .rw, true, 0x0⟩, ⟨F.podState_PARENT_PORT, .rw, true, 0x0⟩, ⟨F.podState_PARENT_VALID, .rw, true, 0x0⟩, ⟨F.podState_TB_LOCKED, .ro, false, 0x0⟩]⟩,
  ⟨"CHIP_SERIAL", 0x4300008, [], true, false, [
    ⟨F.chipSerial_SERIAL, .ro, false, 0x0⟩]⟩,
  ⟨"ROOT_SERIAL", 0x4300010, [], true, false, [
    ⟨F.rootSerial_SERIAL, .rw, true, 0x0⟩]⟩,
  ⟨"POD_CTRL", 0x4300018, [], false, false, [
    ⟨F.podCtrl_MGMT_OPEN, .rw, false, 0x0⟩, ⟨F.podCtrl_NR_HINT, .rw, false, 0x2710⟩]⟩,
  ⟨"MEMBER", 0x4300020, [(4, 0x8)], true, false, [
    ⟨F.member_CHIPS, .rw, true, 0x0⟩]⟩,
  ⟨"TB_OFFSET", 0x4300040, [], false, false, [
    ⟨F.tbOffset_NS, .ro, false, 0x0⟩]⟩,
  ⟨"TB_STEP", 0x4300048, [], true, false, [
    ⟨F.tbStep_NS, .ro, false, 0x0⟩]⟩,
  ⟨"POD_ERR", 0x4300050, [], false, false, [
    ⟨F.podErr_PROTO, .w1c, false, 0x0⟩]⟩,
  ⟨"POD.DUP_ANSWERED", 0x4300058, [], false, false, [
    ⟨F.podDupAnswered_COUNT, .rc, false, 0x0⟩]⟩,
  ⟨"POD.STALE_SENT", 0x430005C, [], false, false, [
    ⟨F.podStaleSent_COUNT, .rc, false, 0x0⟩]⟩,
  ⟨"POD.STALE_RECEIVED", 0x4300060, [], false, false, [
    ⟨F.podStaleReceived_COUNT, .rc, false, 0x0⟩]⟩,
  ⟨"POD.NR_SENT", 0x4300064, [], false, false, [
    ⟨F.podNrSent_COUNT, .rc, false, 0x0⟩]⟩]

/-- Rows of the register tables of spec/15_link_transactions_and_pod.md. -/
def catalogue15_1 : List RegRow := [
  ⟨"POD.NR_RECEIVED", 0x4300068, [], false, false, [
    ⟨F.podNrReceived_COUNT, .rc, false, 0x0⟩]⟩,
  ⟨"POD.RESENT", 0x430006C, [], false, false, [
    ⟨F.podResent_COUNT, .rc, false, 0x0⟩]⟩,
  ⟨"POD.ROUTE_ERR", 0x4300070, [], false, false, [
    ⟨F.podRouteErr_COUNT, .rc, false, 0x0⟩]⟩,
  ⟨"ROUTE", 0x4300100, [(255, 0x4)], false, false, [
    ⟨F.route_PORT, .rw, true, 0x0⟩, ⟨F.route_VALID, .rw, true, 0x0⟩, ⟨F.route_HOPS, .rw, true, 0x0⟩]⟩,
  ⟨"POD.CFG_COMMIT", 0x430FFF0, [], false, false, [
    ⟨F.podCfgCommit_COMMIT, .wo, false, 0x0⟩]⟩,
  ⟨"POD.CFG_STATE", 0x430FFF8, [], false, false, [
    ⟨F.podCfgState_PENDING, .ro, false, 0x0⟩, ⟨F.podCfgState_DIRTY, .ro, false, 0x0⟩, ⟨F.podCfgState_LOST_COMMIT, .w1c, false, 0x0⟩, ⟨F.podCfgState_GEN, .ro, false, 0x0⟩]⟩]

/-- Rows of the register tables of spec/16_steward_and_mailboxes.md. -/
def catalogue16_0 : List RegRow := [
  ⟨"STW_STATUS", 0x424F000, [], false, false, [
    ⟨F.stwStatus_PHASE, .ro, false, 0x0⟩, ⟨F.stwStatus_READY, .ro, false, 0x0⟩, ⟨F.stwStatus_IMG_BAD, .w1c, false, 0x0⟩, ⟨F.stwStatus_BOOT_SRC, .ro, false, 0x0⟩, ⟨F.stwStatus_SLOT, .ro, false, 0x0⟩]⟩,
  ⟨"STW_VERSION", 0x424F008, [], true, false, [
    ⟨F.stwVersion_PROTO, .ro, false, 0x0⟩, ⟨F.stwVersion_FW_PATCH, .ro, false, 0x0⟩, ⟨F.stwVersion_FW_MINOR, .ro, false, 0x0⟩, ⟨F.stwVersion_FW_MAJOR, .ro, false, 0x0⟩, ⟨F.stwVersion_ROM_VER, .ro, false, 0x1⟩]⟩,
  ⟨"EARLY_DROP", 0x424F010, [], false, false, [
    ⟨F.earlyDrop_COUNT, .rc, false, 0x0⟩]⟩,
  ⟨"BOOT_CTRL", 0x424F018, [], false, false, [
    ⟨F.bootCtrl_LENGTH, .rw, false, 0x0⟩, ⟨F.bootCtrl_GO, .wo, false, 0x0⟩]⟩,
  ⟨"STW_HALT", 0x424F020, [], false, false, [
    ⟨F.stwHalt_CAUSE, .ro, false, 0x0⟩, ⟨F.stwHalt_EMERG, .ro, false, 0x0⟩]⟩,
  ⟨"STW_HALT_TIME", 0x424F028, [], true, false, [
    ⟨F.stwHaltTime_VALUE, .ro, false, 0x0⟩]⟩,
  ⟨"MB.REQ", 0x4240000, [(8, 0x100), (8, 0x8)], true, false, [
    ⟨F.mbReq_WORD, .rw, false, 0x0⟩]⟩,
  ⟨"MB.RSP", 0x4240040, [(8, 0x100), (8, 0x8)], true, false, [
    ⟨F.mbRsp_WORD, .ro, false, 0x0⟩]⟩,
  ⟨"MB.DOORBELL", 0x4240080, [(8, 0x100)], false, false, [
    ⟨F.mbDoorbell_RING, .wo, false, 0x0⟩]⟩,
  ⟨"MB.STATE", 0x4240088, [(8, 0x100)], false, false, [
    ⟨F.mbState_STATE, .ro, false, 0x0⟩, ⟨F.mbState_DB_LOST, .w1c, false, 0x0⟩, ⟨F.mbState_LAST_VALID, .ro, false, 0x0⟩, ⟨F.mbState_ORIGIN, .ro, false, 0x0⟩, ⟨F.mbState_LAST_SEQ, .ro, false, 0x0⟩]⟩,
  ⟨"MB.BULK", 0x4240090, [(8, 0x100)], false, false, [
    ⟨F.mbBulk_IN_Q, .rw, false, 0x0⟩, ⟨F.mbBulk_IN_EN, .rw, false, 0x0⟩, ⟨F.mbBulk_OUT_Q, .rw, false, 0x0⟩, ⟨F.mbBulk_OUT_EN, .rw, false, 0x0⟩]⟩,
  ⟨"MB.DOORBELLS", 0x4240098, [(8, 0x100)], false, false, [
    ⟨F.mbDoorbells_COUNT, .rc, false, 0x0⟩]⟩]

/-- Rows of the register tables of spec/18_host_and_audio_ports.md. -/
def catalogue18_0 : List RegRow := [
  ⟨"PCIE_STATUS", 0x4310000, [], false, false, [
    ⟨F.pcieStatus_LINK_UP, .ro, false, 0x0⟩, ⟨F.pcieStatus_SPEED, .ro, false, 0x0⟩, ⟨F.pcieStatus_WIDTH, .ro, false, 0x0⟩, ⟨F.pcieStatus_BME, .ro, false, 0x0⟩, ⟨F.pcieStatus_MSE, .ro, false, 0x0⟩, ⟨F.pcieStatus_DSTATE, .ro, false, 0x0⟩]⟩,
  ⟨"APT", 0x4310008, [], false, false, [
    ⟨F.apt_CHIP, .rw, false, 0xFF⟩]⟩,
  ⟨"HOST_STATUS", 0x4310010, [], false, false, [
    ⟨F.hostStatus_ACCESS_ERR, .w1c, false, 0x0⟩, ⟨F.hostStatus_PERST, .w1c, false, 0x0⟩, ⟨F.hostStatus_LINK_DOWN, .w1c, false, 0x0⟩]⟩,
  ⟨"HOST_ERR_LOG", 0x4310018, [], true, false, [
    ⟨F.hostErrLog_OFFSET, .ro, false, 0x0⟩, ⟨F.hostErrLog_WINDOW, .ro, false, 0x0⟩, ⟨F.hostErrLog_WRITE, .ro, false, 0x0⟩, ⟨F.hostErrLog_CODE, .ro, false, 0x0⟩, ⟨F.hostErrLog_VALID, .w1c, false, 0x0⟩]⟩,
  ⟨"QT_CFG", 0x4311000, [], false, false, [
    ⟨F.qtCfg_LINES, .ro, false, 0x1⟩, ⟨F.qtCfg_DUMMY, .rw, false, 0x10⟩, ⟨F.qtCfg_WIDE, .rw, false, 0x1⟩]⟩,
  ⟨"QT_STATUS", 0x4311008, [], false, false, [
    ⟨F.qtStatus_UNDERRUN, .w1c, false, 0x0⟩, ⟨F.qtStatus_ERR, .w1c, false, 0x0⟩, ⟨F.qtStatus_CMD_ERR, .w1c, false, 0x0⟩]⟩,
  ⟨"QT_ERR_LOG", 0x4311010, [], true, false, [
    ⟨F.qtErrLog_ADDR, .ro, false, 0x0⟩, ⟨F.qtErrLog_CODE, .ro, false, 0x0⟩, ⟨F.qtErrLog_VALID, .w1c, false, 0x0⟩]⟩,
  ⟨"AUD_CFG0", 0x4312000, [(3, 0x1000)], true, false, [
    ⟨F.audCfg0_BUF_BASE, .rw, true, 0x0⟩, ⟨F.audCfg0_BUF_BLOCKS, .rw, true, 0x0⟩, ⟨F.audCfg0_BLOCK_FRAMES, .rw, true, 0x0⟩, ⟨F.audCfg0_SIG_CTR, .rw, true, 0x0⟩, ⟨F.audCfg0_SIG_EN, .rw, true, 0x0⟩]⟩,
  ⟨"AUD_CFG1_TDM", 0x4312008, [(2, 0x1000)], true, false, [
    ⟨F.audCfg1Tdm_FORMAT, .rw, true, 0x0⟩, ⟨F.audCfg1Tdm_CONTROLLER, .rw, true, 0x0⟩, ⟨F.audCfg1Tdm_SLOTS_M1, .rw, true, 0x0⟩, ⟨F.audCfg1Tdm_SLOT_BITS, .rw, true, 0x0⟩, ⟨F.audCfg1Tdm_SIZE32, .rw, true, 0x0⟩, ⟨F.audCfg1Tdm_BCLK_DIV, .rw, true, 0x0⟩, ⟨F.audCfg1Tdm_RX_SLOTS, .rw, true, 0x0⟩, ⟨F.audCfg1Tdm_TX_SLOTS, .rw, true, 0x0⟩]⟩,
  ⟨"AUD_CFG1_PDM", 0x4314008, [], true, false, [
    ⟨F.audCfg1Pdm_CLK_DIV, .rw, true, 0x0⟩, ⟨F.audCfg1Pdm_DEC_R, .rw, true, 0x0⟩, ⟨F.audCfg1Pdm_SHIFT, .rw, true, 0x0⟩, ⟨F.audCfg1Pdm_SIZE32, .rw, true, 0x0⟩, ⟨F.audCfg1Pdm_CLK_EN, .rw, true, 0x0⟩, ⟨F.audCfg1Pdm_CH_EN, .rw, true, 0x0⟩]⟩,
  ⟨"AUD_CFG2_TDM", 0x4312010, [(2, 0x1000)], false, false, [
    ⟨F.audCfg2Tdm_TX_BASE, .rw, true, 0x0⟩]⟩,
  ⟨"AUD_CFG2_PDM", 0x4314010, [], false, false, [
    ⟨F.audCfg2Pdm_AUD_MCLK_HZ, .rw, true, 0x0⟩]⟩]

/-- Rows of the register tables of spec/18_host_and_audio_ports.md. -/
def catalogue18_1 : List RegRow := [
  ⟨"AUD_CTRL", 0x4312018, [(3, 0x1000)], false, false, [
    ⟨F.audCtrl_ENABLE, .rw, true, 0x0⟩]⟩,
  ⟨"AUD_STATUS", 0x4312020, [(3, 0x1000)], false, false, [
    ⟨F.audStatus_RUNNING, .ro, false, 0x0⟩, ⟨F.audStatus_OVERRUN, .w1c, false, 0x0⟩, ⟨F.audStatus_FRAMING, .w1c, false, 0x0⟩]⟩,
  ⟨"AUD.BLOCKS", 0x4312028, [(3, 0x1000)], true, false, [
    ⟨F.audBlocks_COUNT, .ro, false, 0x0⟩]⟩,
  ⟨"AUD.BLOCK_TIME", 0x4312030, [(3, 0x1000)], true, false, [
    ⟨F.audBlockTime_VALUE, .ro, false, 0x0⟩]⟩,
  ⟨"AUD.DROPPED", 0x4312038, [(3, 0x1000)], false, false, [
    ⟨F.audDropped_COUNT, .rc, false, 0x0⟩]⟩,
  ⟨"AUD.SAT_COUNT", 0x431203C, [(3, 0x1000)], false, false, [
    ⟨F.audSatCount_COUNT, .rc, false, 0x0⟩]⟩,
  ⟨"PMB", 0x4315000, [(2, 0x10)], true, false, [
    ⟨F.pmb_VOUT, .ro, false, 0x0⟩, ⟨F.pmb_IOUT, .ro, false, 0x0⟩, ⟨F.pmb_STATUS, .ro, false, 0x0⟩]⟩,
  ⟨"PMB_STATUS", 0x4315040, [], false, false, [
    ⟨F.pmbStatus_NACK, .w1c, false, 0x0⟩, ⟨F.pmbStatus_PEC, .w1c, false, 0x0⟩, ⟨F.pmbStatus_TIMEOUT, .w1c, false, 0x0⟩]⟩,
  ⟨"PMB_ERRS", 0x4315044, [], false, false, [
    ⟨F.pmbErrs_COUNT, .rc, false, 0x0⟩]⟩,
  ⟨"I2CT", 0x4316000, [], false, false, [
    ⟨F.i2ct_ADDR, .rw, true, 0x3A⟩, ⟨F.i2ct_EN, .rw, true, 0x1⟩]⟩,
  ⟨"GPIO_OUT", 0x4317000, [], false, true, [
    ⟨F.gpioOut_BITS, .rw, false, 0x0⟩]⟩,
  ⟨"GPIO_OE", 0x4317018, [], false, false, [
    ⟨F.gpioOe_BITS, .rw, false, 0x0⟩]⟩]

/-- Rows of the register tables of spec/18_host_and_audio_ports.md. -/
def catalogue18_2 : List RegRow := [
  ⟨"GPIO_IN", 0x4317020, [], false, false, [
    ⟨F.gpioIn_BITS, .ro, false, 0x0⟩]⟩,
  ⟨"GPIO_CFG", 0x4317040, [(16, 0x4)], false, false, [
    ⟨F.gpioCfg_OD, .rw, true, 0x0⟩, ⟨F.gpioCfg_PULL, .rw, true, 0x0⟩, ⟨F.gpioCfg_FILTER, .rw, true, 0x0⟩]⟩,
  ⟨"HOST.CFG_COMMIT", 0x431FFF0, [], false, false, [
    ⟨F.hostCfgCommit_COMMIT, .wo, false, 0x0⟩]⟩,
  ⟨"HOST.CFG_STATE", 0x431FFF8, [], false, false, [
    ⟨F.hostCfgState_PENDING, .ro, false, 0x0⟩, ⟨F.hostCfgState_DIRTY, .ro, false, 0x0⟩, ⟨F.hostCfgState_LOST_COMMIT, .w1c, false, 0x0⟩, ⟨F.hostCfgState_GEN, .ro, false, 0x0⟩]⟩]

/-- Rows of the register tables of spec/19_power_timing_and_sleep.md. -/
def catalogue19_0 : List RegRow := [
  ⟨"PWR_STATE", 0x4270000, [], false, false, [
    ⟨F.pwrState_STATE, .ro, false, 0x0⟩, ⟨F.pwrState_VCORE_EN, .ro, false, 0x1⟩, ⟨F.pwrState_VCORE_OK, .ro, false, 0x1⟩, ⟨F.pwrState_FORCED, .ro, false, 0x0⟩]⟩,
  ⟨"CORE_PWR", 0x4270008, [], true, false, [
    ⟨F.corePwr_CORES, .ro, false, 0xFFFFFFFFFFFFFFFF⟩]⟩,
  ⟨"SPX", 0x4270010, [], false, false, [
    ⟨F.spx_CORE, .ro, false, 0x0⟩, ⟨F.spx_SEPAL, .ro, false, 0x0⟩]⟩,
  ⟨"SPX_FLOOR", 0x4270018, [], false, false, [
    ⟨F.spxFloor_CORE, .ro, false, 0xFF⟩, ⟨F.spxFloor_SEPAL, .ro, false, 0xFF⟩, ⟨F.spxFloor_REARM, .w1s, false, 0x0⟩]⟩,
  ⟨"TJ", 0x4270020, [], false, false, [
    ⟨F.tj_MAX, .ro, false, 0x0⟩, ⟨F.tj_SENSOR, .ro, false, 0x0⟩]⟩,
  ⟨"TJ_PEAK", 0x4270028, [], false, false, [
    ⟨F.tjPeak_PEAK, .ro, false, 0x8000⟩, ⟨F.tjPeak_REARM, .w1s, false, 0x0⟩]⟩,
  ⟨"THERM_CFG", 0x4270030, [], false, false, [
    ⟨F.thermCfg_THERM_LIMIT, .rw, true, 0x0⟩, ⟨F.thermCfg_TJ_ALARM, .rw, true, 0x5A⟩, ⟨F.thermCfg_SPX_ALARM, .rw, true, 0x0⟩]⟩,
  ⟨"VCORE_STATUS", 0x4270038, [], true, false, [
    ⟨F.vcoreStatus_REQ_MV, .ro, false, 0x2EE⟩, ⟨F.vcoreStatus_CEILING_MV, .ro, false, 0x384⟩, ⟨F.vcoreStatus_ADAPT, .ro, false, 0x0⟩, ⟨F.vcoreStatus_SPX_TARGET, .ro, false, 0x0⟩, ⟨F.vcoreStatus_VSEPAL_MV, .ro, false, 0x258⟩]⟩,
  ⟨"PWR_STATUS", 0x4270040, [], false, false, [
    ⟨F.pwrStatus_TRIPPED, .w1c, false, 0x0⟩, ⟨F.pwrStatus_BROWNOUT, .w1c, false, 0x0⟩, ⟨F.pwrStatus_VCORE_LOST, .w1c, false, 0x0⟩, ⟨F.pwrStatus_WAKE_REFUSED, .w1c, false, 0x0⟩]⟩,
  ⟨"WAKE_SRC", 0x4270048, [(8, 0x4)], false, false, [
    ⟨F.wakeSrc_SOURCE, .rw, true, 0x0⟩, ⟨F.wakeSrc_EN, .rw, true, 0x0⟩]⟩,
  ⟨"SLEEP_COUNT", 0x4270068, [], false, false, [
    ⟨F.sleepCount_COUNT, .rc, false, 0x0⟩]⟩,
  ⟨"WAKE_COUNT", 0x427006C, [], false, false, [
    ⟨F.wakeCount_COUNT, .rc, false, 0x0⟩]⟩]

/-- Rows of the register tables of spec/19_power_timing_and_sleep.md. -/
def catalogue19_1 : List RegRow := [
  ⟨"LAST_SLEEP_TIME", 0x4270070, [], true, false, [
    ⟨F.lastSleepTime_VALUE, .ro, false, 0x0⟩]⟩,
  ⟨"LAST_WAKE_TIME", 0x4270078, [], true, false, [
    ⟨F.lastWakeTime_VALUE, .ro, false, 0x0⟩]⟩,
  ⟨"RAIL_OK", 0x4270080, [], false, false, [
    ⟨F.railOk_RAILS, .ro, false, 0x7F⟩]⟩,
  ⟨"PWR.CFG_COMMIT", 0x427FFF0, [], false, false, [
    ⟨F.pwrCfgCommit_COMMIT, .wo, false, 0x0⟩]⟩,
  ⟨"PWR.CFG_STATE", 0x427FFF8, [], false, false, [
    ⟨F.pwrCfgState_PENDING, .ro, false, 0x0⟩, ⟨F.pwrCfgState_DIRTY, .ro, false, 0x0⟩, ⟨F.pwrCfgState_LOST_COMMIT, .w1c, false, 0x0⟩, ⟨F.pwrCfgState_GEN, .ro, false, 0x0⟩]⟩]

/-- Rows of the register tables of spec/20_deadlines_monitors_and_faults.md. -/
def catalogue20_0 : List RegRow := [
  ⟨"TB_VALUE", 0x4250000, [], true, false, [
    ⟨F.tbValue_VALUE, .ro, false, 0x0⟩]⟩,
  ⟨"TB_STATUS", 0x4250008, [], false, false, [
    ⟨F.tbStatus_LOCKED, .ro, false, 0x0⟩, ⟨F.tbStatus_HOLDOVER, .ro, false, 0x0⟩, ⟨F.tbStatus_REF_LOST, .w1c, false, 0x0⟩]⟩,
  ⟨"WD_STATUS", 0x4250010, [], true, false, [
    ⟨F.wdStatus_LEFT_MS, .ro, false, 0x7D0⟩, ⟨F.wdStatus_FROZEN, .ro, false, 0x0⟩]⟩,
  ⟨"WD_CFG", 0x4250018, [], false, false, [
    ⟨F.wdCfg_PERIOD_MS, .ro, false, 0x7D0⟩, ⟨F.wdCfg_HOST_FEED, .ro, false, 0x0⟩]⟩,
  ⟨"WD_CTRL", 0x4250020, [], false, false, [
    ⟨F.wdCtrl_AUTO_RESET, .rw, false, 0x0⟩, ⟨F.wdCtrl_RELEASE, .w1s, false, 0x0⟩]⟩,
  ⟨"WD_FIRED", 0x4250028, [], false, false, [
    ⟨F.wdFired_COUNT, .rc, false, 0x0⟩]⟩,
  ⟨"CHIP_ECC", 0x4250030, [], false, false, [
    ⟨F.chipEcc_CE_COUNT, .rc, false, 0x0⟩, ⟨F.chipEcc_UE_COUNT, .rc, false, 0x0⟩, ⟨F.chipEcc_CE, .w1c, false, 0x0⟩]⟩,
  ⟨"CHIP_ECC_LOG", 0x4250038, [], false, false, [
    ⟨F.chipEccLog_RAM, .ro, false, 0x0⟩, ⟨F.chipEccLog_KIND, .ro, false, 0x0⟩, ⟨F.chipEccLog_VALID, .w1c, false, 0x0⟩, ⟨F.chipEccLog_WORD, .ro, false, 0x0⟩]⟩,
  ⟨"JRNL_STATUS", 0x4250040, [], true, false, [
    ⟨F.jrnlStatus_SUPPRESSED, .ro, false, 0x0⟩, ⟨F.jrnlStatus_TAP_LOST, .ro, false, 0x0⟩]⟩,
  ⟨"SNAP.INFO", 0x425A000, [], true, false, [
    ⟨F.snapInfo_VALID, .w1c, false, 0x0⟩, ⟨F.snapInfo_JOURNALED, .ro, false, 0x0⟩, ⟨F.snapInfo_CAUSE, .ro, false, 0x0⟩, ⟨F.snapInfo_LOST, .ro, false, 0x0⟩]⟩,
  ⟨"SNAP.HDR", 0x425A008, [(31, 0x8)], true, false, [
    ⟨F.snapHdr_WORD, .ro, false, 0x0⟩]⟩,
  ⟨"SNAP.SLOT", 0x4258000, [(256, 0x20), (4, 0x8)], true, false, [
    ⟨F.snapSlot_WORD, .ro, false, 0x0⟩]⟩]

/-- Rows of the register tables of spec/20_deadlines_monitors_and_faults.md. -/
def catalogue20_1 : List RegRow := [
  ⟨"IRIS.CFG", 0x4260000, [(32, 0x100)], false, false, [
    ⟨F.irisCfg_ENABLE, .rw, true, 0x0⟩, ⟨F.irisCfg_PROBE, .rw, true, 0x0⟩, ⟨F.irisCfg_LOG, .rw, true, 0x0⟩, ⟨F.irisCfg_K, .rw, true, 0x0⟩, ⟨F.irisCfg_ALARM_EN, .rw, true, 0x0⟩]⟩,
  ⟨"IRIS.SELECT", 0x4260008, [(32, 0x100)], true, false, [
    ⟨F.irisSelect_SELECT, .rw, true, 0x0⟩]⟩,
  ⟨"IRIS.ALARM_HI", 0x4260010, [(32, 0x100)], true, false, [
    ⟨F.irisAlarmHi_ALARM_HI, .rw, true, 0x0⟩]⟩,
  ⟨"IRIS.STATUS", 0x4260018, [(32, 0x100)], false, false, [
    ⟨F.irisStatus_ALARM, .w1c, false, 0x0⟩, ⟨F.irisStatus_SUM_OVF, .w1c, false, 0x0⟩, ⟨F.irisStatus_CFG_BAD, .ro, false, 0x0⟩]⟩,
  ⟨"IRIS.MIN", 0x4260020, [(32, 0x100)], true, false, [
    ⟨F.irisMin_VALUE, .ro, false, 0x0⟩]⟩,
  ⟨"IRIS.MAX", 0x4260028, [(32, 0x100)], true, false, [
    ⟨F.irisMax_VALUE, .ro, false, 0x0⟩]⟩,
  ⟨"IRIS.COUNT", 0x4260030, [(32, 0x100)], true, false, [
    ⟨F.irisCount_VALUE, .ro, false, 0x0⟩]⟩,
  ⟨"IRIS.SUM", 0x4260038, [(32, 0x100)], true, false, [
    ⟨F.irisSum_VALUE, .ro, false, 0x0⟩]⟩,
  ⟨"IRIS.BIN", 0x4260040, [(32, 0x100), (32, 0x4)], false, false, [
    ⟨F.irisBin_COUNT, .ro, false, 0x0⟩]⟩,
  ⟨"IRIS_SNAP", 0x426F000, [], true, false, [
    ⟨F.irisSnap_UNITS, .rw, false, 0x0⟩, ⟨F.irisSnap_RESET, .rw, false, 0x0⟩, ⟨F.irisSnap_GO, .w1s, false, 0x0⟩, ⟨F.irisSnap_BUSY, .ro, false, 0x0⟩]⟩,
  ⟨"IRIS_SNAP_TIME", 0x426F008, [], true, false, [
    ⟨F.irisSnapTime_VALUE, .ro, false, 0x0⟩]⟩,
  ⟨"IRIS.CFG_COMMIT", 0x426FFF0, [], false, false, [
    ⟨F.irisCfgCommit_COMMIT, .wo, false, 0x0⟩]⟩]

/-- Rows of the register tables of spec/20_deadlines_monitors_and_faults.md. -/
def catalogue20_2 : List RegRow := [
  ⟨"IRIS.CFG_STATE", 0x426FFF8, [], false, false, [
    ⟨F.irisCfgState_PENDING, .ro, false, 0x0⟩, ⟨F.irisCfgState_DIRTY, .ro, false, 0x0⟩, ⟨F.irisCfgState_LOST_COMMIT, .w1c, false, 0x0⟩, ⟨F.irisCfgState_GEN, .ro, false, 0x0⟩]⟩]

/-- The whole catalogue. -/
def catalogue : List RegRow :=
  catalogue02_0 ++ catalogue03_0 ++ catalogue05_0 ++ catalogue05_1 ++ catalogue06_0 ++ catalogue07_0 ++ catalogue08_0 ++ catalogue08_1 ++ catalogue08_2 ++ catalogue10_0 ++ catalogue10_1 ++ catalogue11_0 ++ catalogue11_1 ++ catalogue12_0 ++ catalogue12_1 ++ catalogue13_0 ++ catalogue13_1 ++ catalogue14_0 ++ catalogue14_1 ++ catalogue15_0 ++ catalogue15_1 ++ catalogue16_0 ++ catalogue18_0 ++ catalogue18_1 ++ catalogue18_2 ++ catalogue19_0 ++ catalogue19_1 ++ catalogue20_0 ++ catalogue20_1 ++ catalogue20_2

/-- The registers whose reset value is not zero: base, strides, value (the reset columns of the register tables). -/
def resetRows : List (Nat × List (Nat × Nat) × Nat) := [
  (0x5007008, [(64, 0x40000), (4, 0x100)], 0x9A654321),
  (0x5007018, [(64, 0x40000), (4, 0x100)], 0x400),
  (0x5008000, [(64, 0x40000)], 0x1),
  (0x5001000, [(64, 0x40000), (4, 0x400)], 0x1),
  (0x5006010, [(64, 0x40000), (4, 0x100)], 0x2000),
  (0x4220000, [(64, 0x20)], 0xFFFFFFFFFFFFFFFF),
  (0x4223000, [(129, 0x20)], 0x1),
  (0x4223008, [(129, 0x20)], 0x4),
  (0x4280008, [(8, 0x10000)], 0xA10000040FF00),
  (0x4300000, [], 0xFF00),
  (0x4300018, [], 0x27100000),
  (0x424F008, [], 0x100000000),
  (0x4310008, [], 0xFF),
  (0x4311000, [], 0x11001),
  (0x4316000, [], 0xBA),
  (0x4270000, [], 0x30),
  (0x4270008, [], 0xFFFFFFFFFFFFFFFF),
  (0x4270018, [], 0xFFFF),
  (0x4270028, [], 0x8000),
  (0x4270030, [], 0x5A00),
  (0x4270038, [], 0x2580000038402EE),
  (0x4270080, [], 0x7F),
  (0x4250010, [], 0x7D0),
  (0x4250018, [], 0x7D0)]

end Sys2Proof
end

