-- ==== Sys2Proof/Machine/Sparse.lean ====
section
/-! DEFINITION. Sparse tables: a list of (key, value) pairs in one canonical form (keys strictly rising, no entry
equal to what an unlisted key reads as), with its read and its write. Every table of the machine that the spec
indexes by an address or a number is held so. -/

namespace Sys2Proof.Machine

/-- The listed value at key `k`, if one is listed. -/
def spFind? {α : Type} : List (Nat × α) → Nat → Option α
  | [], _ => none
  | (j, v) :: r, k => if k = j then some v else spFind? r k

/-- What key `k` reads as: the listed value, or `d k` where none is listed. -/
def spGet {α : Type} (d : Nat → α) (m : List (Nat × α)) (k : Nat) : α := (spFind? m k).getD (d k)

/-- Insert in rising order of keys, replacing an entry of the same key. -/
def spInsert {α : Type} : List (Nat × α) → Nat → α → List (Nat × α)
  | [], k, v => [(k, v)]
  | (j, u) :: r, k, v =>
    if k < j then (k, v) :: (j, u) :: r
    else if k = j then (k, v) :: r
    else (j, u) :: spInsert r k v

/-- Remove every entry of key `k`. -/
def spErase {α : Type} : List (Nat × α) → Nat → List (Nat × α)
  | [], _ => []
  | (j, u) :: r, k => if k = j then spErase r k else (j, u) :: spErase r k

/-- Write `v` at key `k`: an entry equal to what an unlisted key reads as is removed. -/
def spPut {α : Type} [DecidableEq α] (d : Nat → α) (m : List (Nat × α)) (k : Nat) (v : α) : List (Nat × α) :=
  if v = d k then spErase m k else spInsert m k v

/-- Keys strictly rising. -/
def spSorted {α : Type} : List (Nat × α) → Bool
  | [] => true
  | [_] => true
  | (j, _) :: (k, v) :: r => decide (j < k) && spSorted ((k, v) :: r)

/-- The canonical form: keys strictly rising and no entry equal to what an unlisted key reads as. -/
def spCanon {α : Type} [DecidableEq α] (d : Nat → α) (m : List (Nat × α)) : Bool :=
  spSorted m && m.all fun e => decide (e.2 ≠ d e.1)

end Sys2Proof.Machine
end

