-- ==== Sys2Proof/Machine/State.lean ====
section
/-! DEFINITION. The state of the T64 block as plain data: the register file, the LM, the working state of every
block, and the queue of waiting commands; what a step can stop with; the state after reset. -/

namespace Sys2Proof.Machine

/-- A table keyed by a number; unlisted keys read as the default the accessor names. -/
abbrev Table (α : Type) := List (Nat × α)

/-! ## Access records -/

/-- Who issued an access and what its completion is for. -/
inductive AccOwner where
  | none
  | fetch (core slot : Nat)          -- command fetch (R204)
  | retOff (core slot : Nat)         -- return offset of RET (R235)
  | srLoad (core slot : Nat)         -- SETREG LOAD (R237)
  | seqStore (core slot : Nat)       -- CALL push and SETREG STORE (R235, R237)
  | frame (core slot : Nat)          -- fault frame (R221)
  | imageRead (core slot : Nat)      -- image read of a RESTORE (R215)
  | imageWrite (core slot : Nat)     -- image write of a SAVE (R214)
  | ctxOp (core slot : Nat)          -- a signal, queue, barrier or event operation of a context (R137, R239, R253)
  | pushRead (core slot : Nat)       -- the entry of a QUEUE_PUSH or DMA_POST (R301)
  | mx (core cmd : Nat)              -- a matrix command (R155, R158)
  | vx (core stream : Nat)           -- a vector command's stream (R172)
  | dma (core chan txn : Nat)        -- a DMA transaction (R321)
  | serve (msg : Nat)                -- a remote request served at its home (R111)
  | qop (op : Nat)                   -- a ring access of the queue engine (R299, R300)
  | walk (k : Nat)                   -- a translation walk (R331)
  | audio (port : Nat)               -- an audio line write (R524)
  | host (tag : Nat)                 -- a host access through an aperture or the QSPI target (R508, R509, R520)
  | fw (chan : Nat)                  -- the command of a mailbox channel (R444)
deriving DecidableEq, Repr

/-- What an access does at its destination. -/
inductive AccKind where
  | rd | wr | add
deriving DecidableEq, Repr

/-- One word access of a group access (R62): `len` bytes of one bank word at LM offset `off`, at position `pos` of the
access's data, for requester `reqr` (Table MEM-3). -/
structure WordReq where
  acc : Nat
  reqr : Nat
  off : Nat
  len : Nat
  pos : Nat
  write : Bool
deriving DecidableEq, Repr

/-- An access in progress or finished and not yet used by its owner. `todo` holds the words not yet granted, `flying`
counts granted words not completed, `merging` merged writes owed (R78); `parts` counts remote line requests not
answered; `recd` names the invalidation records it waits for and `recWait` counts the records it waits to open (R124,
R128). Accesses of one `stream` (0: none) to one home are performed in order (R135). -/
structure Acc where
  owner : AccOwner := .none
  core : Nat := 0
  home : Nat := 0
  reqr : Nat := 0
  remote : Bool := false
  kind : AccKind := .rd
  chip : Nat := 255
  addr : Nat := 0
  len : Nat := 0
  data : List Byte := []
  todo : List WordReq := []
  flying : Nat := 0
  merging : Nat := 0
  parts : Nat := 0
  recd : List Nat := []
  recWait : Nat := 0
  stream : Nat := 0
  fault : Nat := 0
  detail : Nat := 0
  indet : Bool := false
  done : Bool := false
  born : Nat := 0
deriving DecidableEq, Repr

/-! ## Local memory -/

/-- A merged quarter that a partial write owes (R78): requester, access, LM offset of the quarter, its new value, and
whether a commit point has passed since its read (R80). -/
structure Merge where
  reqr : Nat
  acc : Nat
  off : Nat
  data : List Byte
  forced : Bool := false
deriving DecidableEq, Repr

/-- The bits in error (Ecc.lean) of a quarter that a grant read (R81, R83): the access and its requester, the LM offset of the
quarter, and whether no write has replaced the quarter since. -/
structure EccSeen where
  acc : Nat
  reqr : Nat
  off : Nat
  mask : Nat
  live : Bool := true
deriving DecidableEq, Repr

/-- A granted group access not yet complete (R63), stamped with the bank cycle of its grant; `errs` are the quarters with
bits in error that it read. -/
structure Granted where
  cycle : Nat
  words : List WordReq
  merges : List Merge
  errs : List EccSeen := []
deriving DecidableEq, Repr

/-- One bank group: the round-robin record of R66 (RMT at reset), the record of the previous DMX grant (DMW at reset,
so that DMR is first: Table MEM-4), what happened in the present bank cycle, the owed merged writes in the order of
their reads, the retried words (R79), the pending scrub (R82) with the bits that the corrected quarter changes of the data
stored (R623), the arbitrated cycles that DMR, DMW and RMT have waited (R68), and the granted accesses in flight. -/
structure Group where
  rr : Nat := 9
  dmx : Nat := 8
  arbitrated : Bool := false
  granted : Bool := false
  taken : Bool := false
  merges : List Merge := []
  retry : List WordReq := []
  scrub : Option Nat := none
  scrubXor : Nat := 0
  waits : Table Nat := []
  flying : List Granted := []
deriving DecidableEq, Repr

/-- The LM side of the cores: `cycle` counts bank cycles of a core, `groups` is keyed core * 4 + g, `ecc` holds the
bits in error of each quarter as a mask, keyed by chip address / 8 (unlisted: valid check bits). -/
structure Lm where
  cycle : Table Nat := []
  groups : Table Group := []
  ecc : Table Nat := []
deriving DecidableEq, Repr

/-! ## Mesh and arbiters -/

/-- A place a message comes from or goes to on this chip: a core, the block hub (R625), a link port. -/
inductive Place where
  | core (n : Nat)
  | hub
  | port (p : Nat)
deriving DecidableEq, Repr

/-- Where a message stands: waiting at a mesh entry arbiter, in the mesh, waiting at a core's remote port arbiter,
admitted to a core's remote-access queue (R626), being performed there, arrived on the response path, arrived at the
hub, waiting at a link port for its output arbiter, or an operation of a core on its own counters, which makes no hop. -/
inductive Stage where
  | entry | mesh | portQ | admitted | serving | resp | hub | linkQ | localOp
deriving DecidableEq, Repr

/-- A message in flight on this chip. `cls` is its class at the arbiter it waits at (Table ARB-1), `total` its number
of flits, `sent` those granted at the mesh entry or link output, `arrived` those ejected. -/
structure MsgRec where
  msg : Msg
  src : Place
  dst : Place
  cls : Nat
  stage : Stage
  total : Nat := 1
  sent : Nat := 0
  arrived : Nat := 0
  stamp : Nat := 0
  hops : Nat := 0
deriving DecidableEq, Repr

/-- A mesh flit in a router (R625); `entry` is its injection buffer (core and class) while it has not left the router
it entered at (R93). -/
structure Flit where
  msg : Nat
  router : Nat
  entry : Option (Nat × Nat)
deriving DecidableEq, Repr

/-- An arbiter (R94 to R99): credit counter and wait count of each class, quota counts, grants made in the window, the
transaction of a burst in progress per class (R102) and the round-robin source per class (R100). -/
structure Arb where
  credit : Table Nat := []
  wait : Table Nat := []
  quota : Table Nat := []
  grants : Nat := 0
  burst : Table Nat := []
  source : Table Nat := []
deriving DecidableEq, Repr

/-- One broad SNOOP_INV held by the hub's broadcast unit (R126): its identifier, the message to answer and the cores not
answered. -/
structure Bcast where
  id : Nat
  msg : Msg
  left : List Nat
deriving DecidableEq, Repr

/-- The mesh: messages by identifier, flits in order, arbiters keyed core (remote port), 64 + core (mesh entry),
128 + p (link output), and the broadcast unit. -/
structure Net where
  msgs : Table MsgRec := []
  flits : List Flit := []
  arbs : Table Arb := []
  bcast : List Bcast := []
deriving DecidableEq, Repr

/-! ## Coherence -/

/-- A line of an RLC (COH): pod address of the line, its 64 bytes, its fill tag, whether its parity bits show an error
(R119). -/
structure RlcLine where
  line : Nat
  data : List Byte
  tag : Nat
  perr : Bool := false
deriving DecidableEq, Repr

/-- A pending fill (R116, R120): the line, the access that asked, whether a SNOOP_INV met it, whether a flush did. -/
structure Fill where
  line : Nat
  acc : Nat
  pos : Nat
  len : Nat
  snooped : Bool := false
  flushed : Bool := false
deriving DecidableEq, Repr

/-- A sharer of an exact entry: chip, core, fill tag (R122). -/
structure Sharer where
  chip : Nat
  core : Nat
  tag : Nat
deriving DecidableEq, Repr

/-- A snoop filter entry: line (LM offset / 64), its sharers, whether broad, whether an invalidation is outstanding for
it or a back-invalidation of it waits for a record (R123). -/
structure SfEntry where
  line : Nat
  sharers : List Sharer
  broad : Bool := false
  inv : Bool := false
deriving DecidableEq, Repr

/-- An open invalidation record (R124): its transaction ID, line, the answers expected and not yet counted as
(chip, core) pairs (core 0 for a broad answer), whether broad. -/
structure InvRec where
  tid : Nat
  line : Nat
  left : List (Nat × Nat)
  expected : List (Nat × Nat)
  broad : Bool
  back : Bool
deriving DecidableEq, Repr

/-- What waits for a record (R123, R128): a write to a line, or a back-invalidation. -/
structure RecWaiter where
  line : Nat
  acc : Option Nat
deriving DecidableEq, Repr

/-- One core's RLC and snoop filter: `sets` are the ways of each RLC set, most recently used first; `sf` the ways of
each snoop filter set, least recently allocated first; open records, what waits for one, groups being swept (R131),
whether the ENABLE = 0 or FLUSH drop still sends notices. -/
structure Coh where
  sets : Table (List RlcLine) := []
  fills : List Fill := []
  flushMsgs : List Nat := []
  sf : Table (List SfEntry) := []
  nextTag : Nat := 0
  nextTid : Nat := 0
  recs : List InvRec := []
  waiting : List RecWaiter := []
  sweep : List Nat := []
  closing : Bool := false
deriving DecidableEq, Repr

/-! ## Sequencer -/

/-- An asynchronous fault that waits for its context's command boundary (R628), with the causing command. -/
structure PFault where
  code : Nat
  unit : Nat
  detail : Nat := 0
  indet : Bool := false
  srcCp : Nat := 0
  word0 : Nat := 0
  word1 : Nat := 0
  addr : Nat := 0
  time : Nat := 0
deriving DecidableEq, Repr

/-- An operation of a context that the fences of R137 wait for: its identifier, its destination chip (255 this chip),
whether it is an access to the core's own LM, the command that caused it, and whether a failure of it is not reported again
(what a faulted vector command left, R194). -/
structure OutOp where
  id : Nat
  chip : Nat
  own : Bool
  srcCp : Nat
  word0 : Nat
  word1 : Nat
  dmaPost : Bool := false
  fenced : Bool := true
  mute : Bool := false
deriving DecidableEq, Repr

/-- A frame push in progress (R221): its access, the fault, the command offset the frame names, and whether the context goes
on once it is written (R219). -/
structure Frame where
  acc : Nat
  fault : PFault
  cp : Nat
  goOn : Bool
deriving DecidableEq, Repr

/-- A descriptor posted by a context and not finished (R213): its number and channel, and the DMA_POST that posted it. -/
structure Posted where
  id : Nat
  chan : Nat
  srcCp : Nat := 0
  word0 : Nat := 0
  word1 : Nat := 0
deriving DecidableEq, Repr

/-- Why a slot is being quiesced (R212, R220), or where its SAVE stands after the quiesce: waiting for DMA, writing the
image (R213, R214). -/
inductive Quiesce where
  | no | stop | save | abort | dma | write
deriving DecidableEq, Repr

/-- The working state of a context slot beside its registers: the fetch buffer (R204), the fetch in flight, the stack
or load access it waits for, the slots a YIELD waits for (R203), the start of its wait (R286), what a FENCE waits for,
its outstanding operations, faults waiting for a command boundary, the arrival of WAIT_NOTIFY (R266), the time of a
registration resend (R268), the counter (word 0 of the WAIT) whose registration is to be cancelled (R269), the quiesce in
progress, the SEQ_OP that waits for a fault to become visible (R220, R221), the state that a SAVE records, the frame push in
progress, the descriptors it posted, the fault code that stopped it (R225), the words and
the identifier of the wait in progress (R266, R286), the FENCE in progress with the time at which the last of its
operations completed, whether its deadline source is high (R225) and when the miss was detected (R221), and whether its wait
met an image being written (R216). -/
structure Slot where
  fbase : Nat := 0
  fbuf : List Byte := []
  fetch : Option Nat := none
  fetchOff : Nat := 0
  pend : Option Nat := none
  yieldFor : Option (List Nat) := none
  waitStart : Nat := 0
  fence : Option (List Nat) := none
  outs : List OutOp := []
  faults : List PFault := []
  notified : Bool := false
  resend : Option Nat := none
  cancel : Option Nat := none
  taking : Option Nat := none
  quiesce : Quiesce := .no
  deferred : Nat := 0
  savedState : Nat := 0
  frame : Option Frame := none
  posted : List Posted := []
  dmaWait : List Nat := []
  mxWait : List Nat := []
  code : Nat := 0
  waitWords : Nat := 0
  waitW1 : Nat := 0
  waitId : Nat := 0
  fenceW0 : Nat := 0
  fenceDone : Option Nat := none
  missHigh : Bool := false
  missAt : Option Nat := none
  heldWait : Bool := false
deriving DecidableEq, Repr

/-! ## Counters and barriers -/

/-- A wait registration held by this chip (R267), keyed by waiting chip, core and slot: its counter, its target, and
the request that WAIT_NOTIFY answers. -/
structure Reg where
  counter : Nat
  target : Nat
  msg : Msg
deriving DecidableEq, Repr

/-- The counter and barrier block: registrations keyed chip * 256 + core * 4 + slot; for each Aster barrier the
children chips that have arrived, those that take part, and whether BARRIER_ARRIVE was sent for this generation
(R280). -/
structure Sync where
  regsHeld : Table Reg := []
  children : Table (List Nat) := []
  partKids : Table (List Nat) := []
  arriveSent : Table Bool := []
deriving DecidableEq, Repr

/-! ## Event controller -/

/-- An event source (R346 to R361). `selSat` and `selPayload` are SAT and the payload as it was selected (R357); `stalled` holds
the targets that the present record has counted a stall of (R353). -/
structure EvSrc where
  state : Nat := 0
  slotNext : Nat := 0
  rep : Nat := 0
  sat : Bool := false
  payload : Nat := 0
  replayPayload : Nat := 0
  time : Nat := 0
  level : Bool := false
  replay : Bool := false
  counted : Bool := false
  sensed : Bool := false
  withdrawn : Bool := false
  slot : Nat := 0
  target : Nat := 0
  queue : Nat := 0
  index : Nat := 0
  stalled : List Nat := []
  selSat : Bool := false
  selPayload : Nat := 0
deriving DecidableEq, Repr

/-- A target's coalescing state (R364, R366): records since the queue was empty, the timer's end, records since the
last signal. -/
structure EvTgt where
  count : Nat := 0
  timer : Option Nat := none
  sinceSig : Nat := 0
deriving DecidableEq, Repr

/-- The event controller: sources, hold-off ends and the source last selected per group (R354, R363), targets, the
group last visited, the payloads that blocks present (R345), whether a wake request waits (R565). -/
structure Evt where
  srcs : Table EvSrc := []
  holdEnd : Table Nat := []
  lastSrc : Table Nat := []
  lastGroup : Nat := 63
  tgts : Table EvTgt := []
  payloads : Table Nat := []
  wakeReq : Bool := false
deriving DecidableEq, Repr

/-! ## Iris -/

/-- The live values of an Iris unit (R579, R582). -/
structure IrisLive where
  min : Int := 0
  max : Int := 0
  count : Nat := 0
  sum : Int := 0
  bins : Table Nat := []
deriving DecidableEq, Repr

/-! ## Pod -/

/-- The recorded outcome of a filtered transaction (R425). -/
structure Outcome where
  tid : Nat
  op : Op
  status : Nat
  detail : Nat
  data : List Byte
deriving DecidableEq, Repr

/-- A request of this chip to another chip that has no accepted answer yet (R419, R437): the request, the epoch it
last carried, when it may be sent again after NAK_NOT_READY, and whether it waits for a newer epoch. -/
structure OutReq where
  msg : Msg
  epoch : Nat
  retryAt : Option Nat := none
  stale : Bool := false
  sent : Nat := 0
deriving DecidableEq, Repr

/-- What a neighbour last sent as its candidate (R431). -/
structure Neigh where
  cand : Cand
  serial : Nat
  parent : Nat
deriving DecidableEq, Repr

/-- The routing and pod block and the steward's pod formation state. `filter` keeps per source chip the outcomes of
filtered transactions, newest first (R425); `performing` the filtered transactions in progress (R426); `txTid` the next
filtered TID per destination, `plainTid` the count of unfiltered ones (R424); `outReqs` the requests without an answer;
`backoff` B of R429 per chip, 256 + port for LOCAL. `treeParent` and `treeKids` are the numbers of the chip's parent and
children in the combining tree of the epoch (R279). The candidate with its port and the time of its last change (R431,
R432), what the neighbours last sent per port, whether the chip is root, the REPORT of each child port and whether the
chip has sent its own, the child ports that acknowledged the epoch and whether EPOCH_ACK was sent, the time of the last
CANDIDATE and TIME_SYNC, the members' numbers by serial, whether the chip has joined since reset (R442), link events of
a root, and management messages received per port. -/
structure Pod where
  filter : Table (List Outcome) := []
  performing : List (Nat × Nat) := []
  txTid : Table Nat := []
  plainTid : Nat := 0
  outReqs : Table OutReq := []
  backoff : Table Nat := []
  cand : Option Cand := none
  candPort : Option Nat := none
  candSince : Nat := 0
  neigh : Table Neigh := []
  declared : Bool := false
  reports : Table (List RepChip) := []
  reported : Bool := false
  acks : List Nat := []
  ackSent : Bool := true
  lastCand : Nat := 0
  syncAt : Nat := 0
  members : Table Nat := []
  joined : Bool := false
  treeParent : Option Nat := none
  treeKids : List Nat := []
  lastNums : Table Nat := []
  linkEvs : List (Nat × Nat × Nat) := []
  mgmtIn : List (Nat × Msg) := []
deriving DecidableEq, Repr

/-! ## Journal -/

/-- An occurrence for the fault journal (Table FWC-12, Table FLT-5). -/
structure Occ where
  kind : Nat
  code : Nat := 0
  core : Nat := 0
  slot : Nat := 0
  time : Nat := 0
  data : List Byte := []
deriving DecidableEq, Repr

/-- The fault tap (R594), the occurrences the steward has observed and not yet written (R595), the journal's entries
keyed by number, the number of the next entry, the oldest entry kept, the times of the entries of the last second (R596),
and, while the journal sector is being erased, the entries that arose meanwhile, each with the chip number then (R502). -/
structure Jrnl where
  tap : List Occ := []
  seen : List Occ := []
  entries : Table (Occ × Nat) := []
  next : Nat := 0
  oldest : Nat := 0
  recent : List Nat := []
  erasing : Option (List (Occ × Nat)) := none
deriving DecidableEq, Repr

/-! ## Watchdog -/

/-- The chip watchdog (R587, R588): the timebase at the last feed, the cause and time of the freeze in progress, and
whether its snapshot has been taken. -/
structure Wd where
  fedAt : Nat := 0
  cause : Nat := 0
  frozenAt : Nat := 0
  snapped : Bool := false
deriving DecidableEq, Repr

/-! ## Matrix engine -/

/-- A matrix command in the queue (R143): opcode, the context that issued it, its words, and its operands. `addr` is the
pod address of a load's source or a store's destination. -/
structure MxCmd where
  id : Nat
  op : Nat
  slot : Nat
  ctxId : Nat
  cp : Nat
  w0 : Nat
  w1 : Nat
  addr : Nat := 0
  blk : Nat := 0
  len : Nat := 0
  ablk : Nat := 0
  wblk : Nat := 0
  chunks : Nat := 0
  klast : Nat := 0
  set : Nat := 0
  ba : Nat := 1
  bw : Nat := 1
  init : Bool := false
  signA : Bool := false
  signW : Bool := false
  fmt : Nat := 0
  shift : Nat := 0
  planes : Nat := 0
  sgn : Bool := false
  field : Nat := 0
deriving DecidableEq, Repr

/-- A command executing in a unit, with the parts of a remote load not yet requested (position, address, length). -/
structure MxRun where
  unit : Nat
  cmd : MxCmd
  parts : List (Nat × Nat × Nat) := []
deriving DecidableEq, Repr

/-- A matrix engine (R142, R143, R151): the command queue in order, the executing commands, the 512-byte blocks of the
activation and weight buffers, the blocks whose zero flag is 0, and the accumulator sets (256 values, row by row). -/
structure Mx where
  queue : List MxCmd := []
  runs : List MxRun := []
  abuf : Table (List Byte) := []
  wbuf : Table (List Byte) := []
  aset : Table Bool := []
  wset : Table Bool := []
  accs : Table (List Nat) := []
deriving DecidableEq, Repr

/-! ## Vector engine -/

/-- A stream of a vector command: its pod address, the bytes of each working step, and the next step to read. -/
structure VxStream where
  base : Nat
  bytes : Nat
  total : Nat
  next : Nat := 0
deriving DecidableEq, Repr

/-- A vector command in execution (R172, R192): opcode, context, words, working steps and the next one, the input
streams, the destination, the carry-out address, the running values of a scan or the lanes of a reduction, the carry-in
stream until it has been taken, and the writes that have not yet been sent (key, pod address, bytes). -/
structure VxCmd where
  op : Nat
  slot : Nat
  cp : Nat
  w0 : Nat
  w1 : Nat
  steps : Nat
  pos : Nat := 0
  ins : List VxStream
  dst : Nat
  carryOut : Nat := 0
  run : List Nat := []
  carry : Option VxStream := none
  wq : List (Nat × Nat × List Byte) := []
deriving DecidableEq, Repr

/-! ## Host memory and translation -/

/-- A host read request with no whole completion yet (R325, R514): its access, the part of the access that it reads, the bytes
to come, the time it was sent, and whether it has been sent (at most 256 non-posted requests are outstanding, Table HIO-1). -/
structure HostRd where
  acc : Nat
  pos : Nat
  len : Nat
  left : Nat
  born : Nat
  sent : Bool
deriving DecidableEq, Repr

/-- What the endpoint has transmitted to the host: a posted write of an access, or the message of an MSI-X vector. -/
inductive HostTx where
  | write (addr : Nat) (data : List Byte)
  | msix (vec : Nat)
  | completion (window offset : Nat) (data : List Byte)
  | abort (window offset : Nat)
  | unsupported (window offset : Nat)
deriving DecidableEq, Repr

/-- The PCIe endpoint (HIO): the link, Bus Master Enable, Memory Space Enable, D3hot, MSI-X Enable and Function Mask,
the bases of Windows 0, 2 and 4, the maximum payload and read request sizes in bytes (Table HIO-1), the MSI-X table (32-bit words, four per vector) and pending bits, the host reads in
progress, and what has been transmitted, newest first. -/
structure Pcie where
  linkUp : Bool := false
  speed : Nat := 0
  width : Nat := 0
  bme : Bool := false
  mse : Bool := false
  d3 : Bool := false
  msixEn : Bool := false
  funcMask : Bool := false
  bar0 : Option Nat := none
  bar2 : Option Nat := none
  bar4 : Option Nat := none
  maxPayload : Nat := 128
  maxRead : Nat := 512
  vectors : Table Nat := []
  pba : Table Bool := []
  reads : Table HostRd := []
  tx : List HostTx := []
deriving DecidableEq, Repr

/-- The host address of an access (R328): its page, whether it writes, whether it still waits for a translation. -/
structure Xl where
  page : Nat
  write : Bool
  pend : Bool
deriving DecidableEq, Repr

/-- A walk (R331): its page, level, the space and address of the entry being read, the access that reads it, and how it
ends: a fault with its DETAIL, or the leaf. `covered` says that an invalidation met it (R334). -/
structure Walk where
  page : Nat
  lvl : Nat := 1
  lm : Bool
  rdAcc : Option Nat := none
  fault : Option (Nat × Nat) := none
  leaf : Option Nat := none
  covered : Bool := false
deriving DecidableEq, Repr

/-- A host TLB entry: page, page frame, READ, WRITE. -/
structure TlbEnt where
  page : Nat
  frame : Nat
  rd : Bool
  wr : Bool
deriving DecidableEq, Repr

/-- The translation unit: host accesses keyed by access, walks, the TLB most recently used first (R331), and the
accesses that the invalidation in progress waits for (R334). -/
structure Ht where
  xl : Table Xl := []
  walks : List Walk := []
  tlb : List TlbEnt := []
  inv : List Nat := []
deriving DecidableEq, Repr

/-! ## Queue engine -/

/-- Operations that reach a queue in order (R298). -/
inductive QKind where
  | push | pop | record | dbProd | dbCons
deriving DecidableEq, Repr

/-- An operation that waits for its queue, or in the hold list (R310): the queue, the kind, its order of arrival, its
message, the doorbell value or event source, and whether it is a doorbell write of another chip (R312). -/
structure QReq where
  q : Nat
  kind : QKind
  stamp : Nat
  msg : Option MsgRec := none
  v : Nat := 0
  pod : Bool := false
deriving DecidableEq, Repr

/-- The operation in progress on a queue: its kind (0 push, 1 pop, 2 take, 3 fetch, 4 record write), the request, the
context or channel that takes, the source recorded, the ring access, and the answer on its way. -/
structure QOp where
  kind : Nat
  msg : Option MsgRec := none
  core : Nat := 0
  slot : Nat := 0
  src : Nat := 0
  index : Nat := 0
  acc : Nat := 0
  answer : Option Nat := none
  data : List Byte := []
deriving DecidableEq, Repr

/-- The tag of a posted descriptor (R251): slot, context ID, and the post it belongs to. -/
structure QTag where
  slot : Nat
  ctxId : Nat
  id : Nat
deriving DecidableEq, Repr

/-- The queue engine: operations in progress keyed by queue, operations that wait, the hold list, and the tags of
posted descriptors keyed queue * 2^32 + index. -/
structure Que where
  ops : Table QOp := []
  wait : List QReq := []
  held : List QReq := []
  tags : Table QTag := []
deriving DecidableEq, Repr

/-! ## DMA -/

/-- A descriptor held by a channel: its eight words, its tag, whether it has started, the position (x, y, z) of the
next byte to issue (R317), whether all of it is issued, whether its signal and its event have taken place and the
operation of one of them that is in progress (R322, R324), whether a RESUME restarted it (R339), whether its ranges
overlap (R318), and a fault: its code, DETAIL, side (true for destination or action), address, whether indeterminate,
and the first position not known to be written. -/
structure Desc where
  uid : Nat
  words : List Nat
  tag : Option QTag := none
  started : Bool := false
  x : Nat := 0
  y : Nat := 0
  z : Nat := 0
  issued : Bool := false
  sigDone : Bool := false
  evtDone : Bool := false
  op : Option Nat := none
  resumed : Bool := false
  overlap : Bool := false
  fault : Option (Nat × Nat × Bool × Nat) := none
  failAt : Option (Nat × Nat × Nat) := none
  indet : Bool := false
deriving DecidableEq, Repr

/-- A transaction outstanding: its descriptor, the position of its first byte, its length, whether it is at its write,
the access in progress, and the time at which it was ready to issue. -/
structure Txn where
  id : Nat
  desc : Nat
  x : Nat
  y : Nat
  z : Nat
  len : Nat
  writing : Bool := false
  acc : Nat
  readyAt : Nat := 0
deriving DecidableEq, Repr

/-- A DMA channel: the current and next descriptors (R314), a fetch in progress, whether the next entry waits for the
current descriptor (FENCE_PREV), a failed fetch, the transactions outstanding, and the time since which the next
transaction has been ready. -/
structure Chan where
  cur : Option Desc := none
  next : Option Desc := none
  fetching : Bool := false
  fenceHold : Bool := false
  fetchFault : Option (Nat × Nat) := none
  txns : List Txn := []
  readyAt : Nat := 0
deriving DecidableEq, Repr

/-! ## Link ports -/

/-- A sequenced flit in the replay buffer (R388): SEQ, header, payload, the time it was last sent, and the time it was first sent
(Table FLT-1, LINK_RTT). -/
structure TxFlit where
  seq : Nat
  hdr : Nat
  payload : List Byte
  sentAt : Nat
  firstAt : Nat
deriving DecidableEq, Repr

/-- A training in progress (Table LNK-8): its stage, since when, the lanes with a valid TS1, the partner's LANES_OK and
RATES, both sides' RESUME, the UP state left (0 none), the last TS2 and how often it has come in a row, and the chosen
rate and maps. -/
structure Training where
  stage : Nat := 0
  since : Nat := 0
  heard : Nat := 0
  partnerOk : Nat := 0
  rates : Nat := 0
  resume : Bool := false
  pResume : Bool := false
  left : Nat := 0
  ts2 : List Byte := []
  ts2n : Nat := 0
  rate : Nat := 0
  rxMap : Nat := 0
  txMap : Nat := 0
deriving DecidableEq, Repr

/-- A link port beside its registers. Training: failures in a row, times of exits from an UP state, when QUARANTINE was
entered, when the listen backoff ends, the transmitter preset. Receiver: the expected SEQ, whether a flit has been
accepted, NAK due and sent (R390), flits with good CRC not yet used, link control messages not yet acted on, the flits
held per VC and the count freed per VC, codewords in a row correctable and uncorrectable, scramblers, corrected symbols
per lane in the present window, failed lanes, the time of the lane failure of a remap in progress. Transmitter: next
SEQ, the replay buffer, the replay in progress (where it started, what comes next) and how often the oldest flit was
replayed, SENT and the partner's FREED per VC, the VC of the next CRET, the granted flit, which link control messages
are due, the map to switch to, IDLE flits owed after a switch, the first flit of the codeword being sent and the last
codeword sent as unit intervals per lane. Transaction layer: the accepted transaction of which flits are still
to come, per VC. Last, the scramblers that each possible lock point of a remap would give (R382), and RATE_MAX and LANE_EN as the
last training took them, and the partner that it left. -/
structure LinkPort where
  tr : Training := {}
  fails : Nat := 0
  exits : List Nat := []
  quarSince : Nat := 0
  listenAt : Option Nat := none
  preset : Nat := 0
  expect : Nat := 0
  accepted : Bool := false
  nakDue : Bool := false
  nakOut : Bool := false
  rxIn : List (List Byte) := []
  ctrlIn : List (List Byte) := []
  held : Table (List (Nat × List Byte)) := []
  freed : Table Nat := []
  good : Nat := 0
  bad : Nat := 0
  rxScr : Table Nat := []
  corr : Table Nat := []
  winAt : Nat := 0
  failed : Nat := 0
  remapAt : Option Nat := none
  nextSeq : Nat := 0
  unacked : List TxFlit := []
  replay : Option (Nat × Nat) := none
  repCount : Nat := 0
  sent : Table Nat := []
  pFreed : Table Nat := []
  cret : Nat := 0
  txq : Option (Nat × List Byte) := none
  initDue : Bool := false
  initGot : Bool := false
  initAcked : Bool := false
  ackDue : Nat := 0
  remapDue : Bool := false
  retrainDue : Bool := false
  newMap : Option Nat := none
  idleLeft : Nat := 0
  half : Option (List Byte) := none
  wire : List (List Nat) := []
  txScr : Table Nat := []
  asm : Table Msg := []
  cand : List (Table Nat) := []
  rateMax : Nat := 0
  laneEn : Nat := 0xFF
  prevSerial : Nat := 0
deriving DecidableEq, Repr

/-! ## Steward and mailboxes -/

/-- A command of a mailbox channel from its start (R454): its request words, when it started, its place in the order of
starts, how far its firmware has come, the object, value, words and bytes it keeps meanwhile, and its result once it has one:
status and result words. -/
structure MbxCmd where
  req : List Nat
  born : Nat
  stamp : Nat
  phase : Nat := 0
  obj : Nat := 0
  mark : Nat := 0
  aux : List Nat := []
  data : List Byte := []
  result : Option (Nat × List Nat) := none
deriving DecidableEq, Repr

/-- The firmware image that runs (R447): protocol version, patch, minor and major version, update count. -/
structure Image where
  proto : Nat
  patch : Nat
  minor : Nat
  major : Nat
  count : Nat
deriving DecidableEq, Repr

/-- The area of host translation tables that HOST_MAP set up (R493): whether in LM, its base, its pages, and the tables in
use: page number in the area, level, and the part of the page number it serves. -/
structure HtArea where
  lm : Bool
  base : Nat
  pages : Nat
  tables : List (Nat × Nat × Nat)
deriving DecidableEq, Repr

/-- A page mapped by HOST_MAP (R493): its page number, frame, READ, WRITE. -/
structure HtMap where
  page : Nat
  frame : Nat
  rd : Bool
  wr : Bool
deriving DecidableEq, Repr

/-- The steward: latched requests of posted channels (R453), commands in progress, the kept response of each channel
(R457, R458), the channel taken last (R454), the time its boot started, BOOT_SEL as read and the flash slot loaded (R446, R447), its image, the emergency area (R468), the configuration that commands have set, keyed by
register (R480), the bytes of a firmware update accepted so far (R505), what it has programmed into the image slots of the
flash, newest first, the translation area and pages, and the journal entries overwritten since the last clear. -/
structure Steward where
  latched : Table (List Nat) := []
  cmds : Table MbxCmd := []
  kept : Table (List Nat) := []
  last : Nat := 7
  bootAt : Nat := 0
  bootSrc : Nat := 0
  bootSlot : Nat := 0
  image : Option Image := none
  emerg : Option (List Byte) := none
  record : Table Nat := []
  update : Option (List Byte) := none
  flashOut : List (Nat × List Byte) := []
  area : Option HtArea := none
  maps : List HtMap := []
  overwritten : Nat := 0
deriving DecidableEq, Repr

/-! ## Power and time -/

/-- Power control beside its registers: the lowest SPX.CORE of the present millisecond (R557), the times of the last
adaptive step and ceiling step, the setpoints the regulators were last sent and the VSEPAL setpoint for the awake chip, when the wake in progress
was accepted and how many gate stages have closed (R566), whether a trip still refuses wakes (R563), when SLEEP_ENTER
stopped issue and whether its drain is over (R564), the VSEPAL setpoint of
the SLEEP_ENTER in progress. -/
structure Power where
  spxMin : Option Nat := none
  stepAt : Nat := 0
  ceilAt : Nat := 0
  sentVcore : Nat := 0
  sentVsepal : Nat := 0
  awakeVsepal : Nat := 600
  wakeAt : Nat := 0
  stages : Nat := 0
  zeroed : Bool := false
  tripHold : Bool := false
  drainAt : Option Nat := none
  drained : Bool := false
  sleepReq : Option Nat := none
deriving DecidableEq, Repr

/-! ## Audio and board ports -/

/-- An audio port (R524 to R534): frames since its enable, the bytes of the line being filled and its LM offset, lines not yet written as
(LM offset, bytes), the write in progress, blocks that have ended and are not yet reported with the number of lines still to be
written before each and its frame boundary, PDM integrators and combs of each channel, the frame last transmitted, and the
reads of the transmit buffer for the present frame (R532). -/
structure AudPort where
  frame : Nat := 0
  line : List Byte := []
  lineAt : Nat := 0
  lines : List (Nat × List Byte) := []
  acc : Option Nat := none
  ends : List (Nat × Nat) := []
  integ : Table (List Int) := []
  comb : Table (List Int) := []
  tx : List Nat := []
  txAccs : List Nat := []
deriving DecidableEq, Repr

/-- A PMBus transaction queued (R536): rail, command, the setpoint written in mV and the one before it, retries made. -/
structure PmbTxn where
  rail : Nat
  cmd : Nat
  value : Nat := 0
  old : Nat := 0
  retries : Nat := 0
deriving DecidableEq, Repr

/-- A host access through an aperture of the PCIe endpoint or through the QSPI target (R508, R509, R520): its window and
offset, its chip address, whether it writes, the accesses not done, the first fault met, the bytes read, and the positions of
a READ frame whose bytes are not there in time (R519). -/
structure HostReq where
  qspi : Bool
  window : Nat
  off : Nat
  addr : Nat
  write : Bool
  left : Nat
  fault : Nat := 0
  data : List Byte := []
  late : List Nat := []
deriving DecidableEq, Repr

/-- The audio and board ports: host accesses in progress, audio ports, the units of the host block that have applied the commit in progress (R55), the
level of each GPIO pin and since when, PMBus transactions in order and the time of the last poll, the I2C target's pointer and the bytes it last
returned, the bytes the QSPI target last returned, the JTAG instruction, the boundary-scan register and
the pin levels last sampled by it. -/
structure Ports where
  hostReqs : Table HostReq := []
  aud : Table AudPort := []
  unitsDone : List Nat := []
  gpioLevel : Nat := 0
  gpioSince : Table Nat := []
  pmbQ : List PmbTxn := []
  pollAt : Nat := 0
  i2cPtr : Nat := 0
  i2cOut : List Byte := []
  qtOut : List Byte := []
  jtagIr : Nat := 1
  jtagBsr : Nat := 0
  jtagOut : Nat := 0
deriving DecidableEq, Repr

/-! ## The block -/

/-- The pins the chip senses (ELE): levels, true for high; and whether EXTEST has taken the pins from the chip (R541). -/
structure Pins where
  resetN : Bool := true
  pwrOk : Bool := true
  perstN : Bool := true
  extest : Bool := false
deriving DecidableEq, Repr

/-- Everything the T64 holds but its LM and the queue of waiting commands. `regs` is the register file keyed by chip
address (for a staged field the staged copy), `committed` and `copied` the committed set and the copied set of staged
registers (R53 to R55). `freeCtr` counts the free values drawn (the model's own field, log entry 3), `nextId` numbers
accesses, messages and operations. `goingDown` lists the cores whose power-down has begun (R112). `commitAt` holds,
per CFG_STATE address, when the commit in progress was accepted: the bank cycle for a bank-group block (R88), else the
time. -/
structure Chip where
  regs : Table (BitVec 64) := []
  committed : Table (BitVec 64) := []
  copied : Table (BitVec 64) := []
  time : Nat := 0
  freeCtr : Nat := 0
  nextId : Nat := 1
  pins : Pins := {}
  accs : Table Acc := []
  lm : Lm := {}
  net : Net := {}
  coh : Table Coh := []
  slots : Table Slot := []
  sync : Sync := {}
  evt : Evt := {}
  iris : Table IrisLive := []
  pod : Pod := {}
  jrnl : Jrnl := {}
  goingDown : List Nat := []
  mx : Table Mx := []
  vx : Table (Option VxCmd) := []
  wd : Wd := {}
  pcie : Pcie := {}
  ht : Ht := {}
  que : Que := {}
  dma : Table Chan := []
  audLevel : Table Bool := []
  railAlarm : Bool := false
  lnk : Table LinkPort := []
  stw : Steward := {}
  pwr : Power := {}
  io : Ports := {}
  commitAt : Table Nat := []
deriving DecidableEq, Repr

/-- The state of the machine: the commands that wait, first in, first out; the LM of the 64 cores as (chip address,
byte) pairs in canonical form (unlisted bytes read zero, R87); the rest of the block. -/
structure State where
  pending : List Instr
  mem : List Host.Cell
  w : Chip
deriving DecidableEq, Repr

/-- Reasons for a machine stop. What the spec calls a fault is taken by the context, channel or requester it names, and is a
next state: no command stops the machine. -/
inductive Fault where
  /-- Raised by no command. Safe: it stands for a stop that no rule of the spec asks for. -/
  | none
deriving DecidableEq, Repr

/-- Refusals. -/
inductive Refusal where
  /-- Raised by an arm of `exec` whose command has no meaning yet. Safe: the machine stops. -/
  | notModelled (mnemonic : String)
deriving DecidableEq, Repr

/-- The machine right after reset: RESET_N has been released, the timebase reads 0 and the steward is in its ROM phase
(R58, R445); every table is empty, so that every register reads its reset value, the LM reads zero, every working state
is at rest; no command waits. -/
def State.reset : State where
  pending := []
  mem := []
  w := {}

end Sys2Proof.Machine
end

