-- ==== Sys2Proof/Machine/Ops.lean ====
section
/-! DEFINITION. The named operations over the register file, the tables of working state, identifiers and free
values, which every meaning uses. -/

namespace Sys2Proof.Machine

/-- The outcome of a command. -/
abbrev Out := Host.Outcome State Fault Refusal

/-- A command that changes only the block, not the LM nor the queue. -/
def State.onChip (s : State) (f : Chip → Chip) : Out := .next { s with w := f s.w }

/-! ## The register file -/

/-- Whether address `a` is `base` plus a multiple of each stride within its count. -/
def inDims : List (Nat × Nat) → Nat → Bool
  | [], off => off == 0
  | (n, st) :: r, off => decide (off / st < n) && inDims r (off % st)

/-- Whether register address `a` is one of a family of registers. -/
def inFamily (base : Nat) (dims : List (Nat × Nat)) (a : Nat) : Bool := decide (base ≤ a) && inDims dims (a - base)

/-- The value of THERM_CFG at reset: the grade's highest temperature (Table SCO-4) and TJ_ALARM 0x5A. -/
def thermReset : Nat := 0x5A00 + (if Config.industrial then 105 else 95)

/-- The reset value of the register at address `a` (the Reset columns of the register tables). -/
def resetWord (a : Nat) : BitVec 64 :=
  if a = Addr.thermCfg then BitVec.ofNat 64 thermReset
  else match resetRows.find? fun r => inFamily r.1 r.2.1 a with
    | some r => BitVec.ofNat 64 r.2.2
    | none => 0

namespace Chip

/-- The stored value of the register at address `a`. -/
def rd (w : Chip) (a : Nat) : Nat := (spGet resetWord w.regs a).toNat

/-- Store a whole register. -/
def setReg (w : Chip) (a v : Nat) : Chip := { w with regs := spPut resetWord w.regs a (BitVec.ofNat 64 v) }

/-- The value of a field. -/
def fld (w : Chip) (a : Nat) (f : Fld) : Nat := bits (w.rd a) f.hi f.lo

/-- Whether a one-bit field is 1. -/
def flag (w : Chip) (a : Nat) (f : Fld) : Bool := w.fld a f != 0

/-- Store a field, leaving the other bits of its register. -/
def setFld (w : Chip) (a : Nat) (f : Fld) (v : Nat) : Chip := w.setReg a (putBits (w.rd a) f.hi f.lo v)

/-- Store a one-bit field. -/
def setFlag (w : Chip) (a : Nat) (f : Fld) (b : Bool) : Chip := w.setFld a f (b2n b)

/-- Add `n` to a counter field that saturates at all ones. -/
def addSat (w : Chip) (a : Nat) (f : Fld) (n : Nat) : Chip :=
  w.setFld a f (min (w.fld a f + n) (2 ^ (f.hi + 1 - f.lo) - 1))

/-- Add 1 to a saturating counter register whose COUNT is [31:0]. -/
def bump (w : Chip) (a : Nat) : Chip := w.addSat a ⟨31, 0⟩ 1

/-- Add `n` to a counter field that wraps at its width. -/
def addWrap (w : Chip) (a : Nat) (f : Fld) (n : Nat) : Chip := w.setFld a f (w.fld a f + n)

/-- The committed value of the register at address `a` (R53). -/
def cfgRd (w : Chip) (a : Nat) : Nat := (spGet resetWord w.committed a).toNat

/-- The committed value of a staged field (R53). -/
def cfg (w : Chip) (a : Nat) (f : Fld) : Nat := bits (w.cfgRd a) f.hi f.lo

/-- Store the committed value of a register. -/
def setCommitted (w : Chip) (a v : Nat) : Chip :=
  { w with committed := spPut resetWord w.committed a (BitVec.ofNat 64 v) }

/-- Store a register in both its staged and its committed copy: a write by the steward followed by its commit. -/
def setBoth (w : Chip) (a v : Nat) : Chip := (w.setReg a v).setCommitted a v

/-! ## Identifiers and free values -/

/-- Give the next identifier. -/
def bumpId (w : Chip) : Chip := { w with nextId := w.nextId + 1 }

/-- The next value the spec leaves open, as `n` bits: an opaque constant applied to the count of values drawn
(log entry 3). -/
def freeNat (w : Chip) (n : Nat) : Nat := (Config.freeValue w.freeCtr).toNat % 2 ^ n

/-- Count the free value as drawn. -/
def drew (w : Chip) : Chip := { w with freeCtr := w.freeCtr + 1 }

/-- `n` free bytes, each from a draw of its own. -/
def freeBytes (w : Chip) : Nat → Nat → List Byte
  | 0, _ => []
  | n + 1, k => BitVec.ofNat 8 (Config.freeValue (w.freeCtr + k)).toNat :: freeBytes w n (k + 1)

/-- Count `n` free values as drawn. -/
def drewN (w : Chip) (n : Nat) : Chip := { w with freeCtr := w.freeCtr + n }

/-! ## Tables of working state -/

def acc (w : Chip) (id : Nat) : Acc := spGet (fun _ => {}) w.accs id
def setAcc (w : Chip) (id : Nat) (a : Acc) : Chip := { w with accs := spPut (fun _ => {}) w.accs id a }
def dropAcc (w : Chip) (id : Nat) : Chip := { w with accs := spErase w.accs id }

def group (w : Chip) (n g : Nat) : Group := spGet (fun _ => {}) w.lm.groups (n * 4 + g)
def setGroup (w : Chip) (n g : Nat) (x : Group) : Chip :=
  { w with lm := { w.lm with groups := spPut (fun _ => {}) w.lm.groups (n * 4 + g) x } }

/-- Bank cycles counted by core `n`. -/
def cycle (w : Chip) (n : Nat) : Nat := spGet (fun _ => 0) w.lm.cycle n

/-- The bits in error in the quarter at chip address `8 * q`, as a mask (Ecc.lean). -/
def eccMask (w : Chip) (q : Nat) : Nat := spGet (fun _ => 0) w.lm.ecc q
def setEcc (w : Chip) (q k : Nat) : Chip := { w with lm := { w.lm with ecc := spPut (fun _ => 0) w.lm.ecc q k } }

def msgRec? (w : Chip) (id : Nat) : Option MsgRec := spFind? w.net.msgs id
def setMsg (w : Chip) (id : Nat) (m : MsgRec) : Chip := { w with net := { w.net with msgs := spInsert w.net.msgs id m } }
def dropMsg (w : Chip) (id : Nat) : Chip := { w with net := { w.net with msgs := spErase w.net.msgs id } }

def arb (w : Chip) (k : Nat) : Arb := spGet (fun _ => {}) w.net.arbs k
def setArb (w : Chip) (k : Nat) (a : Arb) : Chip :=
  { w with net := { w.net with arbs := spPut (fun _ => {}) w.net.arbs k a } }

def cohOf (w : Chip) (n : Nat) : Coh := spGet (fun _ => {}) w.coh n
def setCoh (w : Chip) (n : Nat) (c : Coh) : Chip := { w with coh := spPut (fun _ => {}) w.coh n c }

/-- Context slot `c` of core `n`. -/
def slot (w : Chip) (n c : Nat) : Slot := spGet (fun _ => {}) w.slots (n * 4 + c)
def setSlot (w : Chip) (n c : Nat) (x : Slot) : Chip := { w with slots := spPut (fun _ => {}) w.slots (n * 4 + c) x }

def mxOf (w : Chip) (n : Nat) : Mx := spGet (fun _ => {}) w.mx n
def setMx (w : Chip) (n : Nat) (x : Mx) : Chip := { w with mx := spPut (fun _ => {}) w.mx n x }

/-- The vector command in execution on core `n`. -/
def vxOf (w : Chip) (n : Nat) : Option VxCmd := spGet (fun _ => none) w.vx n
def setVx (w : Chip) (n : Nat) (x : Option VxCmd) : Chip := { w with vx := spPut (fun _ => none) w.vx n x }

/-! ## Power and reset conditions -/

/-- The logic is out of reset (R445, R546), and EXTEST has not taken the pins (R541). -/
def live (w : Chip) : Bool := w.pins.resetN && w.pins.pwrOk && !w.pins.extest

/-- The chip is frozen by its watchdog (R588). -/
def frozen (w : Chip) : Bool := w.flag Addr.wdStatus F.wdStatus_FROZEN

/-- The Switched blocks are powered (R19): the chip is AWAKE or still ENTERING Sleep. -/
def switchedOn (w : Chip) : Bool := decide (w.fld Addr.pwrState F.pwrState_STATE < 2)

/-- Core `n` exists and is powered (CORE_PWR). -/
def coreUp (w : Chip) (n : Nat) : Bool := decide (n < 64) && bit (w.rd Addr.corePwr) n

/-- Core `n` runs: the chip is out of reset and the core is powered. -/
def runs (w : Chip) (n : Nat) : Bool := w.live && w.coreUp n

/-- This chip's number, if it holds one (R36). -/
def chipNum? (w : Chip) : Option Nat :=
  if w.cfg Addr.podState F.podState_NUM_VALID = 1 then some (w.cfg Addr.podState F.podState_CHIP_NUM) else none

/-- The chip's committed pod epoch. -/
def epoch (w : Chip) : Nat := w.cfg Addr.podState F.podState_EPOCH

/-- Whether chip number `c` names this chip (R34, R35). -/
def isSelf (w : Chip) (c : Nat) : Bool := c == 255 || w.chipNum? == some c

/-- Whether chip number `c` names a current member of the pod (MEMBER, R37). -/
def isMember (w : Chip) (c : Nat) : Bool := decide (c < 255) && bit (w.cfgRd (Addr.member (c / 64))) (c % 64)

/-- Whether an access to chip `c` can be sent: this chip, or a member once this chip is numbered (R36, R37). -/
def reachable (w : Chip) (c : Nat) : Bool := w.isSelf c || (w.chipNum?.isSome && w.isMember c)

/-- The chip number in its resolved form: 255 for this chip (R34). -/
def resolve (w : Chip) (c : Nat) : Nat := if w.isSelf c then 255 else c

end Chip

/-- Bytes [pos, pos + len) of a list. -/
def slice (l : List Byte) (pos len : Nat) : List Byte := (l.drop pos).take len

/-- `l` with the bytes from `pos` on replaced by `d`. -/
def patch (l : List Byte) (pos : Nat) (d : List Byte) : List Byte :=
  l.take pos ++ d ++ l.drop (pos + d.length)

/-! ## Core control addresses -/

/-- The bank group of an LM offset (Table MEM-1). -/
def lmGroup (off : Nat) : Nat := bits off 19 18

/-- The bank of an LM offset (Table MEM-1). -/
def lmBank (off : Nat) : Nat := bits off 6 5

/-- The pod address of LM offset `off` of core `n` of this chip, without its chip number (R33). -/
def lmAddr (n off : Nat) : Nat := n * 0x100000 + off

end Sys2Proof.Machine
end

