-- ==== Sys2Proof/Machine/Ecc.lean ====
section
/-! DEFINITION. The ECC of LM quarters (R81 to R85, R623): the bits in error of a quarter as a mask, what a read of it finds
and delivers, and its syndrome. Bit 8i + j of a mask is bit j of byte i of the quarter; bits 64 to 71 are its check bits. -/

namespace Sys2Proof.Machine

/-- The bits of a quarter with its check bits. -/
def eccWidth : Nat := 72

/-- The bits in error that a mask names. -/
def eccBad (m : Nat) : List Nat := (List.range eccWidth).filter fun i => m.testBit i

/-- What a read finds in a quarter: no error it sees, an error it corrects, or one it cannot correct. -/
inductive EccKind where
  | clean | corrected | uncorrectable
deriving DecidableEq, Repr

/-- What a read of a quarter with the bits `m` in error finds, and in which of the quarter's 64 bits the data it delivers
differ from the data stored (R81, R83). Three or more bits in error have no defined outcome; it depends on the bits in
error (R623): a free value for each mask says whether it is reported as uncorrectable, miscorrected at a free bit and
reported as corrected, or unseen (log entry 4). -/
def eccRead (m : Nat) : EccKind × Nat :=
  match eccBad m with
  | [] => (.clean, 0)
  | [_] => (.corrected, 0)
  | [_, _] => (.uncorrectable, m % 2 ^ 64)
  | _ =>
    let k := (Config.eccOutcome m).toNat
    if k % 3 = 0 then (.uncorrectable, m % 2 ^ 64)
    else if k % 3 = 1 then (.corrected, (m ^^^ 2 ^ (k / 3 % eccWidth)) % 2 ^ 64)
    else (.clean, m % 2 ^ 64)

/-- `n` distinct values drawn by free choices from a pool. -/
def eccColumns : Nat → List Nat → List Nat
  | 0, _ => []
  | n + 1, pool =>
    let k := Config.eccPick n % pool.length
    pool.getD k 0 :: eccColumns n (pool.eraseIdx k)

/-- The syndrome of the bits `m` in error (R85): a fixed code of the bits in error, in which two single-bit errors have one
syndrome only if they are of the same bit. The spec does not publish the code: every value is free (log entry 4). -/
def eccSyndrome (m : Nat) : Nat :=
  match eccBad m with
  | [i] => (eccColumns eccWidth (List.range 256)).getD i 0
  | _ => (Config.eccSyndrome m).toNat

namespace Chip

/-- Change the quarter at chip address `8 * q` by an error of the bits `m`: a bit struck twice holds its value again. -/
def eccFlip (w : Chip) (q m : Nat) : Chip := w.setEcc q (w.eccMask q ^^^ m % 2 ^ eccWidth)

/-- The byte that a read of LM byte `a` delivers, of which the array holds `b`. -/
def eccByte (w : Chip) (a : Nat) (b : Byte) : Byte :=
  if w.eccMask (a / 8) = 0 then b
  else b ^^^ BitVec.ofNat 8 ((eccRead (w.eccMask (a / 8))).2 / 2 ^ (8 * (a % 8)))

end Chip

end Sys2Proof.Machine
end

