-- ==== Sys2Proof/Machine/Iris.lean ====
section
/-! DEFINITION. Iris samples (R579 to R582, R585): what a probe sample does to the units that watch it. -/

namespace Sys2Proof.Machine

/-- The histogram bin of a sample (R581). -/
def irisBin (log : Bool) (k : Nat) (v : Int) : Nat :=
  if log then (if v ≤ 0 then 0 else min 31 (Nat.log2 v.toNat + 1))
  else (if v < (2 ^ k : Nat) then 0 else min 31 (v.toNat / 2 ^ k))

/-- Highest signed 64-bit value. -/
def int64Max : Int := 2 ^ 63 - 1

/-- One sample of a unit's live values (R579, R582). -/
def irisAdd (x : IrisLive) (log : Bool) (k : Nat) (v : Int) : IrisLive :=
  let b := irisBin log k v
  { min := if x.count = 0 then v else if v < x.min then v else x.min
    max := if x.count = 0 then v else if x.max < v then v else x.max
    count := min (2 ^ 64 - 1) (x.count + 1)
    sum := clampInt (-int64Max - 1) int64Max (x.sum + v)
    bins := spPut (fun _ => 0) x.bins b (min 0xFFFFFFFF (spGet (fun _ => 0) x.bins b + 1)) }

namespace Chip

def irisLive (w : Chip) (u : Nat) : IrisLive := spGet (fun _ => {}) w.iris u
def setIris (w : Chip) (u : Nat) (x : IrisLive) : Chip := { w with iris := spPut (fun _ => {}) w.iris u x }

/-- The payload that the block driving source `s` presents (R345). -/
def srcPayload (w : Chip) (s : Nat) : Nat := spGet (fun _ => 0) w.evt.payloads s
def setPayload (w : Chip) (s v : Nat) : Chip :=
  { w with evt := { w.evt with payloads := spPut (fun _ => 0) w.evt.payloads s v } }

/-- Unit `u` takes sample `v` (R579 to R582, R585). -/
def irisTake (w : Chip) (v : Int) (u : Nat) : Chip :=
  let a := Addr.irisCfg u
  let x := w.irisLive u
  let w1 := w.setIris u (irisAdd x (w.cfg a F.irisCfg_LOG = 1) (w.cfg a F.irisCfg_K) v)
  let w2 := if x.sum + v > int64Max || x.sum + v < -int64Max - 1 then
    w1.setFlag (Addr.irisStatus u) F.irisStatus_SUM_OVF true else w1
  if w.cfg a F.irisCfg_ALARM_EN = 1 && decide (signed 64 (w.cfgRd (Addr.irisAlarmHi u)) ≤ v) then
    (w2.setFlag (Addr.irisStatus u) F.irisStatus_ALARM true).setPayload (0xA00 + u)
      (wrapInt 32 (clampInt (-2147483648) 2147483647 v))
  else w2

/-- A sample `v` of probe `p` for the objects whose SELECT satisfies `sel`, taken by every enabled unit that watches
it (R579, R580). -/
def irisSample (w : Chip) (p : Nat) (sel : Nat → Bool) (v : Int) : Chip :=
  ((List.range 32).filter fun u =>
      w.cfg (Addr.irisCfg u) F.irisCfg_ENABLE = 1 && w.cfg (Addr.irisCfg u) F.irisCfg_PROBE = p &&
      !w.flag (Addr.irisStatus u) F.irisStatus_CFG_BAD && sel (w.cfgRd (Addr.irisSelect u))).foldl
    (fun w u => w.irisTake v u) w

end Chip

end Sys2Proof.Machine
end

