-- ==== Sys2Proof/Machine/Access.lean ====
section
/-! DEFINITION. Accesses and messages: how an access to an LM is presented to its bank groups (R60 to R64), how a
message enters the mesh, where it arrives (R625, Table ARB-1), and how a request is answered (R419, R421). -/

namespace Sys2Proof.Machine

/-- The word accesses of a run of `len` bytes at LM offset `off`: one per bank word touched (R62), at most `n`. -/
def splitWords (acc reqr : Nat) (write : Bool) : Nat → Nat → Nat → Nat → List WordReq
  | 0, _, _, _ => []
  | n + 1, off, len, pos =>
    if len = 0 then []
    else
      let k := min len (32 - off % 32)
      ⟨acc, reqr, off, k, pos, write⟩ :: splitWords acc reqr write n (off + k) (len - k) (pos + k)

/-- The pieces of the range of `n` bytes at `a` that lie between multiples of `g`, at most `k` of them: address, length and
place in the range, the first of them at place `pos`. -/
def pieces (g : Nat) : Nat → Nat → Nat → Nat → List (Nat × Nat × Nat)
  | 0, _, _, _ => []
  | k + 1, a, n, pos =>
    if n = 0 then []
    else
      let l := min n (g - a % g)
      (a, l, pos) :: pieces g k (a + l) (n - l) (pos + l)

/-- Whether an operation is a response, which arrives on the dedicated response path (ARB; Table POD-2). -/
def isResponse (m : Msg) : Bool :=
  match m.op with
  | .readData | .writeAck | .nakNotReady | .epochStale | .popAnswer => true
  | .waitNotify => m.arg == 1 || m.arg == 3
  | _ => false

/-- Whether an operation is a coherence message (class COH of Table ARB-1). -/
def isCoherence (m : Msg) : Bool :=
  match m.op with
  | .snoopInv | .invAck | .notHeld | .evictNote => true
  | _ => false

/-- The remote port class of a message (Table ARB-1): 0 REQ_LOCAL, 1 REQ_POD, 2 COH, 3 SYNC. -/
def portClass (m : Msg) : Nat :=
  if isCoherence m then 2
  else if m.op = .waitNotify || (m.op = .atomicAdd && bit m.arg 1) then 3
  else if m.srcChip = 255 then 0 else 1

/-- The virtual channel of a message (Table POD-2). -/
def vcOf (m : Msg) : Nat :=
  match m.op with
  | .read | .write | .queuePush | .queuePop => 0
  | .atomicAdd => if bit m.arg 1 then 3 else 0
  | .readData | .writeAck | .nakNotReady | .epochStale | .popAnswer => 1
  | .snoopInv | .invAck | .notHeld | .evictNote => 2
  | .waitNotify | .eventMsg | .barrierArrive | .barrierRelease | .timeSync | .podMgmt => 3

/-- Whether a request of this operation passes the duplicate filter (R423). -/
def opFiltered : Op → Bool
  | .write | .atomicAdd | .queuePush | .eventMsg | .barrierArrive | .barrierRelease => true
  | _ => false

/-- The mesh router of a place, as seen from the other end (R625): a core's own; for the hub the attachment at core 0 or
core 3 by the other end's column, core 0's alone while the Switched blocks are unpowered; a link port's own, 64 and up, whose
place on the mesh the spec does not give (log entry 14). -/
def routerOf (switched : Bool) (p other : Place) : Nat :=
  match p with
  | .core n => n
  | .port q => 64 + q
  | .hub =>
    match other with
    | .core n => if !switched || n % 8 ≤ 1 then 0 else 3
    | _ => 0

/-- The next router on the way from `r` to `d`: along the row first, then along the column (R625). The way to a link port's
own router counts as one hop (log entry 14). -/
def nextRouter (r d : Nat) : Nat :=
  if 64 ≤ d then d
  else if r % 8 < d % 8 then r + 1
  else if d % 8 < r % 8 then r - 1
  else if r < d then r + 8
  else if d < r then r - 8
  else r

/-- Mesh flits of a message: up to 64 bytes of data each (ARB). -/
def meshFlits (m : Msg) : Nat := max 1 ((m.data.length + 63) / 64)

/-- Where a message stands once all its flits have arrived at `dst`. -/
def arriveStage (m : Msg) : Place → Stage
  | .core _ => if isResponse m then .resp else .portQ
  | .hub => .hub
  | .port _ => .linkQ

/-- The class a message has at the arbiter of its place of arrival. -/
def arriveClass (m : Msg) : Place → Nat
  | .core _ => portClass m
  | .hub => 0
  | .port _ => vcOf m

namespace Chip

/-- All flits of message `id` have arrived: it stands at its place of arrival. -/
def arriveMsg (w : Chip) (id : Nat) (r : MsgRec) : Chip :=
  (w.setMsg id { r with stage := arriveStage r.msg r.dst, cls := arriveClass r.msg r.dst,
                        arrived := r.total, sent := 0, stamp := w.nextId }).bumpId

/-- Put message `m` on its way from `src` to `dst` (ARB, R625). A request of a core waits at the core's mesh entry
arbiter in class `cls`; every other message passes its entry in order and its flits stand in the router of `src`. A
message from or to a link port makes no hop that the spec numbers (log entry 14). -/
def inject (w : Chip) (src dst : Place) (cls : Nat) (m : Msg) : Chip :=
  let id := w.nextId
  let r : MsgRec := { msg := m, src := src, dst := dst, cls := cls, stage := .entry, total := meshFlits m, stamp := id }
  let w := w.bumpId
  let direct : Bool := match src with | .core _ => isResponse m | _ => true
  if !direct then w.setMsg id r
  else
    let a := routerOf w.switchedOn src dst
    let b := routerOf w.switchedOn dst src
    let hop : Bool := match src, dst with | .port _, _ => false | _, .port _ => false | _, _ => a != b
    if hop then
      let w := w.setMsg id { r with stage := .mesh, sent := r.total }
      { w with net := { w.net with flits := w.net.flits ++ List.replicate r.total ⟨id, a, none⟩ } }
    else w.arriveMsg id r

/-- The link port towards chip `c`, if a valid route exists (R422). -/
def route? (w : Chip) (c : Nat) : Option Nat :=
  if w.cfg (Addr.route c) F.route_VALID = 1 then some (w.cfg (Addr.route c) F.route_PORT) else none

/-- The output of the port crossbar towards chip `c`: a link port, or 8 for none, where a request that has no valid route
waits to be discarded (R422). -/
def outPort (w : Chip) (c : Nat) : Nat := (w.route? c).getD 8

/-- The place on this chip a message for chip `c` heads for: `home` on this chip, the routed link port otherwise. -/
def towards (w : Chip) (c : Nat) (home : Place) : Place := if c = 255 then home else .port (w.outPort c)

/-- Requests to chip `c` that are filtered and have no answer (R424). -/
def filteredOut (w : Chip) (c : Nat) : List (Nat × OutReq) :=
  w.pod.outReqs.filter fun p => p.2.msg.dstChip == c && p.2.msg.filt

/-- TID `t` lies within the 1,024 that begin at the oldest unanswered filtered request to chip `c` (R424). -/
def inWindow (w : Chip) (c t : Nat) : Bool :=
  match w.filteredOut c with
  | [] => true
  | q :: _ => decide ((t + 65536 - q.2.msg.tid % 65536) % 65536 < 1024)

/-- Send a request to another chip: it takes its TID from the count of its kind (R424), carries the chip's epoch, and
is held until it is answered (R437). A filtered request waits until at most 1,024 TIDs reach back to the oldest one of its
destination that has no answer. The TID of a SNOOP_INV is that of its record (R127). -/
def sendReq (w : Chip) (src : Place) (cls : Nat) (m : Msg) : Chip :=
  let f := opFiltered m.op
  let c := m.dstChip
  let t := spGet (fun _ => 0) w.pod.txTid c
  let tid := if m.op == Op.snoopInv then m.tid else if f then t else w.pod.plainTid
  let m := { m with tid := tid, filt := f, epoch := w.epoch, srcChip := 255 }
  let go := !f || w.inWindow c t
  let w := { w with pod := { w.pod with
      txTid := if f then spPut (fun _ => 0) w.pod.txTid c ((t + 1) % 65536) else w.pod.txTid
      plainTid := if f || m.op == Op.snoopInv then w.pod.plainTid else (w.pod.plainTid + 1) % 65536
      outReqs := spInsert w.pod.outReqs w.nextId { msg := m, epoch := w.epoch, sent := b2n go } } }
  let w := w.bumpId
  if go then w.inject src (.port (w.outPort c)) cls m else w

/-- Send a request: to `home` on this chip, or to another chip. -/
def send (w : Chip) (src home : Place) (cls : Nat) (m : Msg) : Chip :=
  if m.dstChip = 255 then w.inject src home cls m else w.sendReq src cls m

/-- Present a local access: its word accesses wait at the bank groups of core `home` for requester `reqr`. -/
def localAcc (w : Chip) (owner : AccOwner) (core home reqr : Nat) (kind : AccKind) (off len : Nat) (data : List Byte)
    (stream : Nat := 0) : Chip :=
  let id := w.nextId
  (w.setAcc id { owner := owner, core := core, home := home, reqr := reqr, kind := kind,
                 addr := lmAddr home off, len := len,
                 data := match kind with | .rd => List.replicate len 0 | _ => data,
                 todo := splitWords id reqr (match kind with | .rd => false | _ => true) (len / 32 + 2) off len 0,
                 stream := stream, born := w.time }).bumpId

/-- The fault of an access sent to chip `c` that names no reachable chip (R36, R37), or of LM of a powered-down core of
this chip (R111); 0 for none. -/
def issueFault (w : Chip) (c a : Nat) : Nat :=
  if !w.reachable c then 0x0B
  else if w.isSelf c && decide (a < 0x4000000) && !w.coreUp (a / 0x100000) then 0x0A
  else 0

/-- A remote write of the sequencer, matrix or vector engine of core `n` (unit 0 to 2): one request to its home. The
matching line of the core's own RLC is dropped at issue without a notice (R117). -/
def remoteWrite (w : Chip) (owner : AccOwner) (n unit slot chip addr : Nat) (data : List Byte) (stream : Nat := 0) : Chip :=
  let id := w.nextId
  let flt := w.issueFault chip addr
  let w := (w.setAcc id { owner := owner, core := n, remote := true, kind := .wr, chip := w.resolve chip, addr := addr,
                          len := data.length, data := data, parts := 1, fault := flt, stream := stream,
                          born := w.time }).bumpId
  if flt != 0 then w
  else
    let c := w.cohOf n
    let ln := w.resolve chip * 2 ^ 32 + addr / 64 * 64
    let w := w.setCoh n { c with sets := c.sets.map fun p => (p.1, p.2.filter fun l => l.line != ln) }
    w.send (.core n) (.core (addr / 0x100000)) 1
      { op := .write, dstChip := w.resolve chip, srcCore := n, srcUnit := unit, srcSlot := slot, addr := addr,
        len := data.length, data := data, acc := id }

/-- The accesses of an owner, oldest first. -/
def accsOf (w : Chip) (o : AccOwner) : List (Nat × Acc) := w.accs.filter fun p => p.2.owner == o

/-- Whether every access of an owner is done. -/
def accsDone (w : Chip) (o : AccOwner) : Bool := (w.accsOf o).all fun p => p.2.done

/-- Drop the finished accesses of an owner. -/
def dropAccs (w : Chip) (o : AccOwner) : Chip := { w with accs := w.accs.filter fun p => p.2.owner != o }

/-- Remote requests of core `n`'s sequencer, matrix and vector engines that have no response yet (R626): LM accesses, and the
signals, queue operations, barrier arrivals and event raises that its sequencer has sent. -/
def outstanding (w : Chip) (n : Nat) : Nat :=
  ((w.accs.filter fun p => p.2.remote && !p.2.done && p.2.core == n &&
    match p.2.owner with
    | .frame _ _ | .ctxOp _ _ | .mx _ _ | .vx _ _ => true
    | _ => false).map fun p => p.2.parts).sum

/-- Record the outcome of a filtered request of another chip before its response is sent (R425): the last 1,024. -/
def recordOutcome (w : Chip) (m : Msg) (op : Op) (status detail : Nat) (data : List Byte) : Chip :=
  if m.filt && m.srcChip != 255 && op != .nakNotReady && op != .epochStale then
    let old := spGet (fun _ => []) w.pod.filter m.srcChip
    let o : Outcome := ⟨m.tid, op, status, detail, data⟩
    { w with pod := { w.pod with
        filter := spPut (fun _ => []) w.pod.filter m.srcChip ((o :: old).take 1024)
        performing := w.pod.performing.filter fun p => p != (m.srcChip, m.tid) } }
  else w

/-- The answer to request `m` with a status, a DETAIL and data (R419, R421), from `src` back to its requester. A response
to a chip that is no longer a member is discarded (R422); one to a member without a route is discarded at the crossbar. -/
def answer (w : Chip) (src : Place) (m : Msg) (op : Op) (status detail : Nat) (data : List Byte)
    (uncached : Bool := false) (fillTag : Nat := 0) : Chip :=
  let back : Place := if 8 ≤ m.srcUnit then .hub else .core m.srcCore
  let w := w.recordOutcome m op status detail data
  if m.srcChip != 255 && !w.isMember m.srcChip then w
  else w.inject src (w.towards m.srcChip back) 0
    { m with op := op, dstChip := m.srcChip, srcChip := 255, status := status, addr := detail, base := m.addr, data := data,
             arg := 0, uncached := uncached, fillTag := fillTag }

end Chip

end Sys2Proof.Machine
end

