-- ==== Sys2Proof/Machine/Slots.lean ====
section
/-! DEFINITION. Context slots (08_sequencer_and_contexts.md): slot states, the fault stack, how a fault is raised and
becomes visible (R218 to R225, R594), and what the end of an access does to the slot that owns it. -/

namespace Sys2Proof.Machine

/-- Slot state codes (Table SEQ-1). -/
def slEmpty : Nat := 0
def slStopped : Nat := 1
def slActive : Nat := 2
def slWaiting : Nat := 3
def slFaulted : Nat := 4
def slNoFrame : Nat := 5
def slSaving : Nat := 6

/-- Bytes of a fault frame (Table SEQ-6). -/
def frameBytes (slot ctxId cp overrun : Nat) (f : PFault) : List Byte :=
  toLE 8 (f.code + slot * 2 ^ 8 + f.unit * 2 ^ 10 + b2n f.indet * 2 ^ 13 + ctxId * 2 ^ 16 + f.detail % 2 ^ 32 * 2 ^ 32) ++
  toLE 8 cp ++ toLE 8 f.srcCp ++ toLE 8 f.word0 ++ toLE 8 f.word1 ++ toLE 8 (f.addr % 2 ^ 40) ++ toLE 8 f.time ++
  toLE 8 overrun

namespace Chip

/-- State of slot `c` of core `n`. -/
def slotState (w : Chip) (n c : Nat) : Nat := w.fld (Addr.ctxHdr n c) F.ctxHdr_STATE
def setSlotState (w : Chip) (n c st : Nat) : Chip := w.setFld (Addr.ctxHdr n c) F.ctxHdr_STATE st
/-- Context ID in a slot. -/
def ctxId (w : Chip) (n c : Nat) : Nat := w.fld (Addr.ctxHdr n c) F.ctxHdr_CTX_ID
/-- Command pointer of a slot. -/
def cp (w : Chip) (n c : Nat) : Nat := w.fld (Addr.ctxCp n c) F.ctxCp_CP
def setCp (w : Chip) (n c v : Nat) : Chip := w.setFld (Addr.ctxCp n c) F.ctxCp_CP v
/-- Scratch value `i` of a slot. -/
def scratch (w : Chip) (n c i : Nat) : Nat := w.rd (Addr.ctxS n c i)
def setScratch (w : Chip) (n c i v : Nat) : Chip := w.setReg (Addr.ctxS n c i) v

/-- The payloads of the sequencer's event sources for slot `c` (R225). -/
def slotPayload (w : Chip) (n c code state : Nat) : Chip :=
  w.setPayload (n * 16 + c) (code + state * 256 + w.ctxId n c * 65536)

/-- A post to the fault tap of 64 entries; a full tap drops it (R594). -/
def tapPost (w : Chip) (o : Occ) : Chip :=
  if w.jrnl.tap.length < 64 then { w with jrnl := { w.jrnl with tap := w.jrnl.tap ++ [o] } }
  else w.addSat Addr.jrnlStatus F.jrnlStatus_TAP_LOST 1

/-- An occurrence that the steward observes for its journal (R595). -/
def notice (w : Chip) (o : Occ) : Chip := { w with jrnl := { w.jrnl with seen := w.jrnl.seen ++ [o] } }

/-- The address F of a push modulo 2^40 (R221), given the value of FSP. -/
def frameAddr (fsp : Nat) : Nat := (fsp + 2 ^ 40 - 64) % 2 ^ 40

/-- The lowest REASON of Table SEQ-7 that makes FSP invalid at the push, or 0. F = FSP − 64 is compared with FSP_LIMIT before
the reduction modulo 2^40 (R222). Whether an F below FSP_LIMIT in another chip's LM also lies in a Private group, that chip
alone knows: the code is free between 3 and 4 (log entry 26). -/
def frameReason (w : Chip) (n c : Nat) : Nat :=
  let fsp := w.fld (Addr.ctxFsp n c) F.ctxFsp_FSP
  let lim := w.fld (Addr.ctxFspLimit n c) F.ctxFspLimit_FSP_LIMIT
  let f := frameAddr fsp
  let chip := f / 2 ^ 32
  let a := f % 2 ^ 32
  let h := a / 0x100000
  let own := w.isSelf chip && h == n
  if 0x4000000 ≤ a then 1
  else if f % 64 != 0 then 2
  else if w.isSelf chip && !own && w.cfg (Addr.bgMode h (lmGroup (a % 0x100000))) F.bgMode_SHARED = 0 then 3
  else if fsp < lim + 64 then (if !w.isSelf chip && w.issueFault chip a == 0 && w.freeNat 1 == 1 then 3 else 4)
  else if !own && w.issueFault chip a != 0 then 5
  else 0

/-! ## Fetch buffer -/

/-- The 64-bit word at LM offset `off`, if slot `c`'s fetch buffer holds it. -/
def wordAt (w : Chip) (n c off : Nat) : Option Nat :=
  let s := w.slot n c
  if s.fbase ≤ off ∧ off + 8 ≤ s.fbase + s.fbuf.length then some (leNat (slice s.fbuf (off - s.fbase) 8)) else none

/-- Start the fetch of the next stripe where one is due: the buffer is empty or 64 bytes of it have been issued (R204).
A WAITING context and a misaligned CP fetch nothing (R201, R227). -/
def fetchDue (w : Chip) (n c : Nat) : Chip :=
  let s := w.slot n c
  let p := w.cp n c
  if w.slotState n c = slActive && s.fetch.isNone && s.frame.isNone && s.pend.isNone && s.quiesce == .no && p % 8 == 0 &&
      !(w.flag (Addr.ctxQbind n c) F.ctxQbind_TAKE && w.flag (Addr.ctxQbind n c) F.ctxQbind_BOUND) then
    let off := if s.fbuf.isEmpty then p / 128 * 128 else s.fbase + s.fbuf.length
    if decide (off < 0x100000) && (s.fbuf.isEmpty || decide (s.fbuf.length ≤ 64)) then
      let id := w.nextId
      (w.localAcc (.fetch n c) n n 1 .rd off 128 [] (1 + n * 4 + c)).setSlot n c { s with fetch := some id, fetchOff := off }
    else w
  else w

/-- Discard the fetch buffer and any fetch in flight (R204). -/
def dropFetch (w : Chip) (n c : Nat) : Chip :=
  let s := w.slot n c
  let w := match s.fetch with
    | some id => let a := w.acc id
                 if a.done then w.dropAcc id else w.setAcc id { a with owner := .none }
    | none => w
  w.setSlot n c { s with fetch := none, fbuf := [] }

/-- Discard the fetch buffer, set CP, and fetch there (R204). -/
def redirect (w : Chip) (n c target : Nat) : Chip := ((w.dropFetch n c).setCp n c target).fetchDue n c

/-- Bytes issued leave the fetch buffer. -/
def trimFetch (w : Chip) (n c : Nat) : Chip :=
  let s := w.slot n c
  let p := w.cp n c
  if s.fbase ≤ p ∧ p ≤ s.fbase + s.fbuf.length then
    w.setSlot n c { s with fbuf := s.fbuf.drop (p - s.fbase), fbase := p }
  else w.setSlot n c { s with fbuf := [] }

/-! ## Leaving a wait -/

/-- WAIT_KIND of a slot. -/
def waitKind (w : Chip) (n c : Nat) : Nat := w.fld (Addr.ctxSched n c) F.ctxSched_WAIT_KIND

/-- A context leaves WAITING other than by its condition: a registration it holds is to be cancelled (R269). -/
def leaveWait (w : Chip) (n c : Nat) : Chip :=
  if w.slotState n c = slWaiting && w.waitKind n c = 1 && bit (w.rd (Addr.ctxWaitArg n c)) 39 then
    w.setSlot n c { w.slot n c with cancel := some (w.rd (Addr.ctxWaitArg n c)), notified := false, resend := none }
  else if (w.slot n c).heldWait then w.setSlot n c { w.slot n c with heldWait := false }
  else w

/-- The slot holds no context any more, or a new one: nothing of its working state remains, but for a cancellation that its core
still owes (R269). -/
def emptySlot (w : Chip) (n c : Nat) : Chip := w.setSlot n c { cancel := (w.slot n c).cancel }

/-! ## Slot operations (Table SEQ-5) -/

/-- An operation ends with RESULT (R211). -/
def opEnd (w : Chip) (n result : Nat) : Chip :=
  (w.setFlag (Addr.seqOp n) F.seqOp_BUSY false).setFld (Addr.seqOp n) F.seqOp_RESULT result

/-- START (Table SEQ-5). A miss of before does not raise the deadline source again (R225). -/
def opStart (w : Chip) (n c : Nat) : Chip :=
  let st := w.slotState n c
  if st = slStopped ∨ st = slFaulted ∨ st = slNoFrame then
    (((w.setSlot n c { w.slot n c with missHigh := false }).setSlotState n c slActive).redirect n c (w.cp n c)).opEnd n 0
  else w.opEnd n 1

/-- STOP (Table SEQ-5, R212). -/
def opStop (w : Chip) (n c : Nat) : Chip :=
  let st := w.slotState n c
  if st = slActive ∨ st = slWaiting then
    let w := w.leaveWait n c
    (w.setSlot n c { w.slot n c with quiesce := .stop }).setFlag (Addr.seqOp n) F.seqOp_BUSY true
  else w.opEnd n 1

/-- CSA is not aligned to 512 bytes (R214). -/
def csaBad (w : Chip) (n c : Nat) : Bool := w.fld (Addr.ctxCsa n c) F.ctxCsa_CSA % 512 != 0

/-- SAVE (Table SEQ-5, R214). -/
def opSave (w : Chip) (n c : Nat) : Chip :=
  let st := w.slotState n c
  if st = slEmpty ∨ st = slSaving then w.opEnd n 1
  else if w.csaBad n c then w.opEnd n 2
  else
    let w := w.leaveWait n c
    let w := w.setSlot n c { w.slot n c with quiesce := .save, savedState := st }
    (w.setSlotState n c slSaving).setFlag (Addr.seqOp n) F.seqOp_BUSY true

/-- RESTORE starts the image read (Table SEQ-5, R215). -/
def opRestore (w : Chip) (n c : Nat) : Chip :=
  let a := w.fld (Addr.seqOpAddr n) F.seqOpAddr_OFFSET
  if w.slotState n c != slEmpty then w.opEnd n 1
  else if a % 512 != 0 then w.opEnd n 2
  else (w.localAcc (.imageRead n c) n n 1 .rd a 512 []).setFlag (Addr.seqOp n) F.seqOp_BUSY true

/-- CLEAR (Table SEQ-5): nothing is written, and the slot's working state is gone. -/
def opClear (w : Chip) (n c : Nat) : Chip :=
  let st := w.slotState n c
  if st = slStopped ∨ st = slFaulted ∨ st = slNoFrame then
    (((w.dropFetch n c).setSlotState n c slEmpty).emptySlot n c).opEnd n 0
  else w.opEnd n 1

/-- The operation `op` of Table SEQ-5 on slot `c`, judged against the slot's present state (R211). -/
def slotOp (w : Chip) (n op c : Nat) : Chip :=
  match op with
  | 1 => w.opStart n c
  | 2 => w.opStop n c
  | 3 => w.opSave n c
  | 4 => w.opRestore n c
  | 5 => w.opClear n c
  | _ => w.opEnd n 4

/-- An operation on slot `c` is judged only against the state that a fault leaves: a deadline abort quiesces the slot (R211,
R220), or a fault of a slot that issues nothing is being raised (R221, R628). -/
def faultPends (w : Chip) (n c : Nat) : Bool :=
  let st := w.slotState n c
  let s := w.slot n c
  s.quiesce == .abort ||
    ((st == slStopped || st == slFaulted || st == slNoFrame) && (s.frame.isSome || !s.faults.isEmpty))

/-- A write of 1 to SEQ_OP.GO (R211): operation `op` on slot `c`, or OP_LOST while one is in progress, where nothing else is
written. A SAVE with a bad CSA ends at once even where the slot's state is still to be judged (R214). -/
def seqGo (w : Chip) (n op c : Nat) : Chip :=
  let a := Addr.seqOp n
  if !w.runs n then w
  else if w.flag a F.seqOp_BUSY then w.setFlag a F.seqOp_OP_LOST true
  else
    let w := (w.setFld a F.seqOp_OP op).setFld a F.seqOp_SLOT c
    if w.faultPends n c && decide (1 ≤ op) && decide (op ≤ 5) then
      if op = 3 ∧ w.csaBad n c then w.opEnd n 2
      else (w.setSlot n c { w.slot n c with deferred := op }).setFlag a F.seqOp_BUSY true
    else w.slotOp n op c

/-! ## Raising a fault -/

/-- The slot becomes FAULTED or FAULTED_NOFRAME: a slot being saved records it in its image (R212); a wait ends; the fault of a
deadline abort, DEADLINE_MISS, ends its quiesce, and an operation that waited is judged against the new state (R220). -/
def becomeFaulted (w : Chip) (n c st code : Nat) : Chip :=
  let s := w.slot n c
  let w := w.setFld (Addr.ctxSched n c) F.ctxSched_WAIT_KIND 0
  if w.slotState n c = slSaving then w.setSlot n c { s with savedState := st, code := code, frame := none }
  else
    let q := if s.quiesce == .abort && code == 7 then .no else s.quiesce
    let w := ((w.setSlotState n c st).slotPayload n c code st).setSlot n c { s with code := code, frame := none, quiesce := q }
    if s.deferred != 0 && q != .abort && s.faults.isEmpty then
      (w.setSlot n c { w.slot n c with deferred := 0 }).slotOp n s.deferred c
    else w

/-- The slot becomes FAULTED_NOFRAME; FAULT_SNAP captures it, or LOST counts it (R222, R223, R225). -/
def noFrame (w : Chip) (n c reason : Nat) (f : PFault) (fcp : Nat) : Chip :=
  let fsp := w.fld (Addr.ctxFsp n c) F.ctxFsp_FSP
  let w := w.becomeFaulted n c slNoFrame f.code
  let i := Addr.fsnapInfo n
  let w := if w.flag i F.fsnapInfo_VALID then w.addSat (Addr.fsnapLost n) F.fsnapLost_COUNT 1
    else
      let w := (((((((w.setFlag i F.fsnapInfo_VALID true).setFld i F.fsnapInfo_SLOT c).setFld i F.fsnapInfo_REASON
        reason).setFld i F.fsnapInfo_CODE f.code).setReg (Addr.fsnapCp n) fcp).setReg (Addr.fsnapFsp n)
        fsp).setReg (Addr.fsnapTime n) f.time).setReg (Addr.fsnapAddr n) (f.addr % 2 ^ 40)
      let w := w.setPayload (n * 16 + 8) (5 + f.code * 256 + w.ctxId n c * 65536)
      w.notice { kind := 2, code := f.code, core := n, slot := c, time := w.time,
                 data := toLE 8 (w.rd i) ++ toLE 8 (w.rd (Addr.fsnapCp n)) ++ toLE 8 fsp ++ toLE 8 f.time ++
                   toLE 8 (w.rd (Addr.fsnapAddr n)) ++ toLE 8 (w.rd (Addr.fsnapLost n)) }
  w.tapPost { kind := 2, code := f.code, core := n, slot := c, time := w.time }

/-- Raise a fault of slot `c` (R221, R222): push its frame, whose write ends later, or stop in FAULTED_NOFRAME. With
`goOn` the context goes on once the frame is written (R219). The frame names CP, or the waiting command (R286). -/
def raiseFault (w : Chip) (n c : Nat) (f : PFault) (overrun : Nat) (goOn : Bool) (frameCp : Option Nat := none) : Chip :=
  let fcp := frameCp.getD (w.cp n c)
  let w := w.addSat (Addr.ctxFaultCount n c) F.ctxFaultCount_COUNT 1
  let r := w.frameReason n c
  if r != 0 then w.drew.noFrame n c r f fcp
  else
    let fsp := frameAddr (w.fld (Addr.ctxFsp n c) F.ctxFsp_FSP)
    let bytes := frameBytes c (w.ctxId n c) fcp overrun f
    let id := w.nextId
    let w := w.tapPost { kind := 1, code := f.code, core := n, slot := c, time := f.time, data := bytes.take 48 }
    let w := (w.setReg (Addr.ctxFsp n c) fsp).setSlot n c { w.slot n c with frame := some ⟨id, f, fcp, goOn⟩ }
    let chip := fsp / 2 ^ 32
    let a := fsp % 2 ^ 32
    let w := if w.isSelf chip && a / 0x100000 == n then w.localAcc (.frame n c) n n 1 .wr (a % 0x100000) 64 bytes (1 + n * 4 + c)
      else w.remoteWrite (.frame n c) n 0 c chip a bytes (1 + n * 4 + c)
    w

/-- Detect an asynchronous fault: it waits for the context's next command boundary (R628). -/
def postFault (w : Chip) (n c : Nat) (f : PFault) : Chip :=
  w.setSlot n c { w.slot n c with faults := (w.slot n c).faults ++ [{ f with time := w.time }] }

/-- The end of a frame push (R221, R222): the slot becomes FAULTED once the write is complete, or its context goes on (R219); a
refused push leaves FSP as it was and the slot FAULTED_NOFRAME. -/
def frameDone (w : Chip) (n c id : Nat) (a : Acc) : Chip :=
  let s := w.slot n c
  let w := w.dropAcc id
  match s.frame with
  | none => w
  | some k =>
    if k.acc != id then w
    else if a.fault != 0 then
      (w.setReg (Addr.ctxFsp n c) ((w.fld (Addr.ctxFsp n c) F.ctxFsp_FSP + 64) % 2 ^ 40)).noFrame n c
        (if a.fault = 4 then 3 else 5) k.fault k.cp
    else if k.goOn then (w.setSlot n c { s with frame := none }).fetchDue n c
    else w.becomeFaulted n c slFaulted k.fault.code

/-- The fault a context takes from an ended operation of its own. A refusal by a counter, queue, barrier or event controller,
or a failed ring access, has UNIT 4, a descriptor push that the queue engine refuses UNIT 3 (R239, R251, R253, R306); an error
of an LM access that the sequencer makes has UNIT 0. -/
def opFault (o : OutOp) (a : Acc) : PFault :=
  let op := match a.owner with | .ctxOp _ _ => true | _ => false
  { code := a.fault, unit := if !op then 0 else if o.dmaPost && a.fault == 9 then 3 else 4, detail := a.detail, indet := a.indet,
    srcCp := o.srcCp, word0 := o.word0, word1 := o.word1, addr := if op then 0 else a.addr }

/-- A context's operation has ended (R137); a refused descriptor push lowers DMA_OUT again (R251). -/
def opDone (w : Chip) (n c id : Nat) (a : Acc) : Chip :=
  let s := w.slot n c
  let outs := s.outs.filter fun o => o.id != id
  let ends := match s.fence with
    | some ids => ids.contains id && ids.all (fun i => outs.all fun o => o.id != i)
    | none => false
  let w := (w.dropAcc id).setSlot n c { s with outs := outs, fenceDone := if ends then some w.time else s.fenceDone }
  match s.outs.find? fun o => o.id == id with
  | none => w
  | some o =>
    if a.fault = 0 || o.mute then w
    else
      let w := w.postFault n c (opFault o a)
      if o.dmaPost then
        (w.setFld (Addr.ctxStatus n c) F.ctxStatus_DMA_OUT (w.fld (Addr.ctxStatus n c) F.ctxStatus_DMA_OUT - 1)).setSlot n c
          { w.slot n c with posted := (w.slot n c).posted.filter fun p => p.id != id }
      else w

/-- A WAIT that met the image write of the slot that owns its counter is refused once that write has ended (R216). -/
def refuseHeldWait (w : Chip) (n c : Nat) : Chip :=
  let s := w.slot n c
  if s.heldWait then
    ((w.setSlot n c { s with heldWait := false }).bump (Addr.seqSigRefused n)).postFault n c
      { code := 9, unit := 4, detail := 0x100, srcCp := (w.cp n c + 2 ^ 20 - 16) % 2 ^ 20, word0 := w.rd (Addr.ctxWaitArg n c),
        word1 := s.waitW1 }
  else w

/-- The image write of a SAVE is complete: the slot is EMPTY and the operation ends (R214); waits that met it are refused. -/
def imageWritten (w : Chip) (n c : Nat) : Chip :=
  if w.accsDone (.imageWrite n c) then
    let w := ((w.dropAccs (.imageWrite n c)).setSlotState n c slEmpty).emptySlot n c
    ([0, 1, 2, 3].foldl (fun (w : Chip) k => w.refuseHeldWait n k) w).opEnd n 0
  else w

/-- The entry of a push has been read (R301): the request to the queue engine carries it, tagged with the context for a
DMA_POST (R251). An error of the read faults the context. -/
def pushSend (w : Chip) (n c id : Nat) (a : Acc) : Chip :=
  match (w.slot n c).outs.find? fun o => o.id == id with
  | none => w.dropAcc id
  | some o =>
    if a.fault != 0 then w.opDone n c id a
    else
      let w := w.setAcc id { owner := .ctxOp n c, core := n, remote := true, chip := o.chip, parts := 1, born := w.time }
      let m : Msg :=
        { op := .queuePush, dstChip := o.chip, srcCore := n, srcSlot := c, addr := bits o.word0 37 24,
          len := a.data.length, data := a.data, acc := id }
      if o.dmaPost then
        w.send (.core n) .hub 1 { m with addr := 0, arg := 1, pos := bits o.word0 41 40, fillTag := w.ctxId n c }
      else w.send (.core n) .hub 1 m

/-- A host access that failed (R510, R520): ACCESS_ERR and HOST_ERR_LOG, or QT_STATUS.ERR and QT_ERR_LOG, which capture the
first one while VALID is 0. -/
def hostErr (w : Chip) (r : HostReq) (code : Nat) : Chip :=
  if r.qspi then
    let w := w.setFlag Addr.qtStatus F.qtStatus_ERR true
    if w.flag Addr.qtErrLog F.qtErrLog_VALID then w
    else w.setReg Addr.qtErrLog (r.addr % 2 ^ 32 + code * 2 ^ 32 + 2 ^ 40)
  else
    let w := w.setFlag Addr.hostStatus F.hostStatus_ACCESS_ERR true
    if w.flag Addr.hostErrLog F.hostErrLog_VALID then w
    else w.setReg Addr.hostErrLog (r.off + r.window * 2 ^ 33 + b2n r.write * 2 ^ 36 + code * 2 ^ 40 + 2 ^ 48)

/-- A host access is over: a read through the endpoint is completed, with Completer Abort if it was refused (R510). -/
def hostDone (w : Chip) (r : HostReq) : Chip :=
  let w := if r.fault = 0 then w else w.hostErr r r.fault
  if r.write || r.qspi then w
  else { w with pcie := { w.pcie with
    tx := (if r.fault = 0 then HostTx.completion r.window r.off r.data else .abort r.window r.off) :: w.pcie.tx } }

/-- A READ frame is over: what the target drove (R519). -/
def qtDone (w : Chip) (r : HostReq) : Chip :=
  let w := if r.late.any fun i => decide (i < r.data.length) then w.setFlag Addr.qtStatus F.qtStatus_UNDERRUN true else w
  { w with io := { w.io with qtOut := r.data.zipIdx.map fun p => if r.late.contains p.2 then (0xFF : Byte) else p.1 } }

/-- One access of host access `tag` is done. Each piece of a read has its place in it, and one that is refused leaves in a READ
frame the 0xFF that stood there (R520). -/
def hostPart (w : Chip) (tag id : Nat) (a : Acc) : Chip :=
  let w := w.dropAcc id
  match spFind? w.io.hostReqs tag with
  | none => w
  | some r =>
    let frame := r.qspi && !r.write
    let w := if frame && a.fault != 0 then w.hostErr { r with addr := a.addr } a.fault else w
    let r := { r with
      left := r.left - 1
      fault := if r.fault = 0 && !frame then a.fault else r.fault
      data := if r.write || a.fault != 0 then r.data else patch r.data (a.addr - r.addr) a.data }
    if r.left = 0 then
      let w := { w with io := { w.io with hostReqs := spErase w.io.hostReqs tag } }
      if frame then w.qtDone r else w.hostDone r
    else { w with io := { w.io with hostReqs := spInsert w.io.hostReqs tag r } }

/-- What the end of access `id` does to the slot or host access that owns it. Other owners use their access in a command of their own. -/
def finishOwner (w : Chip) (id : Nat) : Chip :=
  let a := w.acc id
  match a.owner with
  | .frame n c => w.frameDone n c id a
  | .seqStore n c => w.opDone n c id a
  | .ctxOp n c => w.opDone n c id a
  | .imageWrite n c => w.imageWritten n c
  | .pushRead n c => w.pushSend n c id a
  | .host tag => w.hostPart tag id a
  | _ => w

end Chip

end Sys2Proof.Machine
end

