-- ==== Sys2Proof/Machine/Banks.lean ====
section
/-! DEFINITION. Local memory and bank groups (03_local_memory.md): the reads and writes of LM bytes, arbitration of a
bank cycle, what a grant performs, what its completion checks, the scrub and the starvation detector. -/

namespace Sys2Proof.Machine

/-- What an unlisted LM byte reads as: zero (R87). -/
def memDefault : Nat → Byte := fun _ => 0

/-- One byte of LM at a chip address. -/
def memByte (m : List Host.Cell) (a : Nat) : Byte := spGet memDefault m a

/-- Store one byte of LM. An address outside the LMs holds no byte. -/
def memPut (m : List Host.Cell) (a : Nat) (b : Byte) : List Host.Cell :=
  if a < 0x4000000 then spPut memDefault m a b else m

/-- `n` bytes of LM from a chip address. -/
def memRead (m : List Host.Cell) (a n : Nat) : List Byte := (List.range n).map fun i => memByte m (a + i)

/-- Store a run of bytes of LM. -/
def memWrite (m : List Host.Cell) (a : Nat) : List Byte → List Host.Cell
  | [] => m
  | b :: r => memWrite (memPut m a b) (a + 1) r

/-- The canonical form of the LM: rising addresses, all inside the LMs, no entry that reads zero. -/
def memWf (m : List Host.Cell) : Bool := spCanon memDefault m && m.all fun e => decide (e.1 < 0x4000000)

/-- The requester codes of Table MEM-3. -/
def requesters : List Nat := [1, 2, 3, 4, 5, 6, 7, 8, 9]

/-- Quarters (offsets of their first bytes) that a run of bytes touches, at most `n`. -/
def quartersOf (off len : Nat) : List Nat :=
  (List.range ((off % 8 + len + 7) / 8)).map fun i => off / 8 * 8 + i * 8

/-- Whether a run covers the whole quarter at offset `q` (R77). -/
def coversQuarter (off len q : Nat) : Bool := decide (off ≤ q) && decide (q + 8 ≤ off + len)

namespace Chip

/-! ## The snoop filter at a write (R121, R124, R128) -/

/-- Open invalidation record for `line` of core `n` from its entry, and send its SNOOP_INVs (R124): to each listed
sharer of an exact entry, to the hub of every member chip, this one included, for a broad one (R126). -/
def openRecord (w : Chip) (n line : Nat) (back : Bool) : Chip × Nat :=
  let c := w.cohOf n
  let set := line % 512
  let ways := spGet (fun _ => []) c.sf set
  match ways.find? fun e => e.line == line with
  | none => (w, c.nextTid)
  | some e =>
    let tid := c.nextTid
    let members := (List.range 255).filter fun k => w.isMember k && !w.isSelf k
    let exp := if e.broad then (255, 0) :: members.map (fun k => (k, 0)) else e.sharers.map fun s => (s.chip, s.core)
    let c := { c with
      nextTid := (tid + 1) % 65536
      recs := c.recs ++ [⟨tid, line, exp, exp, e.broad, back⟩]
      sf := spPut (fun _ => []) c.sf set (ways.map fun x => if x.line = line then { x with inv := true } else x) }
    let w := w.setCoh n c
    let w := if e.broad then w.bump (Addr.sfBroadInv n) else w.addSat (Addr.sfInvSent n) ⟨31, 0⟩ exp.length
    let w := if back then w.bump (Addr.sfBackInv n) else w
    (exp.foldl (fun w p =>
      let m : Msg := { op := .snoopInv, dstChip := p.1, srcCore := n, srcUnit := 3, addr := lmAddr n (line * 64),
                       tid := tid, len := 64, arg := if e.broad then 1 else 0, pos := p.2 }
      w.send (.core n) (if e.broad then .hub else .core p.2) 0 m) w, tid)

/-- A write of access `id` to `line` of core `n`'s LM: with no entry nothing is owed (R121); with a record open for the
line the write waits for that record (R129); otherwise a record opens, or the write waits for one (R128). The bank write of a
write that waits goes on meanwhile (R124), and a newcomer that finds a record free takes it before those that wait: the spec
says neither (log entry 67). -/
def sfWrite (w : Chip) (n line id : Nat) : Chip :=
  let c := w.cohOf n
  if (w.acc id).recWait != 0 && c.waiting.any (fun x => x.line == line && x.acc == some id) then w
  else match c.recs.find? fun r => r.line == line with
  | some r =>
    if (w.acc id).recd.contains r.tid then w
    else w.setAcc id { w.acc id with recd := r.tid :: (w.acc id).recd }
  | none =>
    if (spGet (fun _ => []) c.sf (line % 512)).any fun e => e.line == line then
      if c.recs.length < 16 then
        let (w, tid) := w.openRecord n line false
        w.setAcc id { w.acc id with recd := tid :: (w.acc id).recd }
      else
        let w := w.setCoh n { c with waiting := c.waiting ++ [⟨line, some id⟩] }
        (w.setFlag (Addr.sfStatus n) F.sfStatus_TRACKER_FULL true).setAcc id { w.acc id with recWait := (w.acc id).recWait + 1 }
    else w

/-! ## Arbitration -/

/-- Some grant of access `id` is still to come: words not granted, retried words, or owed merged writes. -/
def ungranted (w : Chip) (id : Nat) (a : Acc) : Bool :=
  !a.todo.isEmpty || [0, 1, 2, 3].any fun g =>
    (w.group a.home g).retry.any (fun y => y.acc == id) || (w.group a.home g).merges.any fun m => m.acc == id

/-- An earlier access of the same stream to the same home is not yet performed (R135). -/
def behind (w : Chip) (id : Nat) (a : Acc) : Bool :=
  a.stream != 0 && w.accs.any fun p =>
    decide (p.1 < id) && p.2.stream == a.stream && p.2.home == a.home && !p.2.remote && w.ungranted p.1 p.2

/-- Words of core `n` that requester `r` waits with in group `g` and no grant has taken: those of its oldest access
there, in one stripe. -/
def freshWords (w : Chip) (n g r : Nat) : List WordReq :=
  match w.accs.find? fun p => p.2.home == n && p.2.reqr == r && !p.2.remote &&
      p.2.todo.any (fun x => lmGroup x.off == g) && !w.behind p.1 p.2 with
  | none => []
  | some (_, a) =>
    let mine := a.todo.filter fun x => lmGroup x.off == g
    match mine with
    | [] => []
    | x :: _ => mine.filter fun y => y.off / 128 == x.off / 128

/-- Whether requester `r` has a waiting request in group `g` of core `n`. -/
def requesting (w : Chip) (n g r : Nat) : Bool :=
  let x := w.group n g
  x.merges.any (fun m => m.reqr == r) || x.retry.any (fun y => y.reqr == r) || !(w.freshWords n g r).isEmpty

/-- The requesters waiting in group `g` of core `n`. -/
def waitingReqs (w : Chip) (n g : Nat) : List Nat := requesters.filter fun r => w.requesting n g r

/-- The group is in Slotted mode (committed MODE). -/
def slotted (w : Chip) (n g : Nat) : Bool := w.cfg (Addr.bgMode n g) F.bgMode_SLOTTED = 1

/-- The group is Shared (committed MODE, R75). -/
def shared (w : Chip) (n g : Nat) : Bool := w.cfg (Addr.bgMode n g) F.bgMode_SHARED = 1

/-- Slot code `s` of the committed wheel (Table MEM-9). -/
def slotCode (w : Chip) (n g s : Nat) : Nat := bits (w.cfgRd (Addr.bgWheel n g)) (4 * s + 3) (4 * s)

/-- Whether some slot of the committed wheel names requester `r` (R73, Table MEM-4). -/
def named (w : Chip) (n g r : Nat) : Bool :=
  (List.range 8).any fun s =>
    let k := w.slotCode n g s
    k == r || (k == 0xA && (r == 7 || r == 8))

end Chip

/-- Priority mode (R65, R66): the first processor-side requester; otherwise DMR, DMW, RMT in round-robin order after
the last one given such a cycle. -/
def priorityWinner (rr : Nat) (ws : List Nat) : Option Nat :=
  match [1, 2, 3, 4, 5, 6].find? fun r => ws.contains r with
  | some r => some r
  | none =>
    let order := if rr = 7 then [8, 9, 7] else if rr = 8 then [9, 7, 8] else [7, 8, 9]
    order.find? fun r => ws.contains r

/-- Slotted mode (R71, R72): the requester the slot's code names, if it waits; DMX gives DMR or DMW, the one not granted
at the previous DMX grant where both wait. -/
def slottedWinner (code dmx : Nat) (ws : List Nat) : Option Nat :=
  if 1 ≤ code ∧ code ≤ 9 then (if ws.contains code then some code else none)
  else if code = 0xA then
    if ws.contains 7 && ws.contains 8 then some (if dmx = 7 then 8 else 7)
    else if ws.contains 7 then some 7
    else if ws.contains 8 then some 8
    else none
  else none

/-- Greedy choice of words in banks not yet used (R62). -/
def pickBanks : List Nat → List WordReq → List WordReq
  | _, [] => []
  | used, x :: r => if used.contains (lmBank x.off) then pickBanks used r else x :: pickBanks (lmBank x.off :: used) r

/-- Whether another requester's merged write protects a quarter that word `x` touches (R79). -/
def protectedBy (merges : List Merge) (x : WordReq) : Bool :=
  merges.any fun m => m.reqr != x.reqr && (quartersOf x.off x.len).contains m.off

/-- What a grant to requester `r` performs (R62, R78, R79, R624): the merged writes it owes with the retried writes to
other banks; else its retried words of one kind; else the words of its oldest access. Answers the merges, the words
performed, and the words put off. -/
def grantPlan (x : Group) (fresh : List WordReq) (r : Nat) : List Merge × List WordReq × List WordReq :=
  let owed := x.merges.filter fun m => m.reqr == r
  let mine := x.retry.filter fun y => y.reqr == r
  let others := x.retry.filter fun y => y.reqr != r
  match owed with
  | _ :: _ =>
    let go := (pickBanks (owed.map fun m => lmBank m.off) (mine.filter fun y => y.write)).filter
      fun y => !protectedBy x.merges y
    (owed, go, others ++ mine.filter fun y => !go.contains y)
  | [] =>
    match mine with
    | y0 :: _ =>
      let go := (pickBanks [] (mine.filter fun y => y.write == y0.write)).filter fun y => !protectedBy x.merges y
      ([], go, others ++ mine.filter fun y => !go.contains y)
    | [] =>
      let go := fresh.filter fun y => !protectedBy x.merges y
      ([], go, others ++ fresh.filter fun y => protectedBy x.merges y)

/-- The LM and the block together: what a grant works on. -/
abbrev Both := List Host.Cell × Chip

/-- `n` bytes of LM from a chip address as a read delivers them (R81, R623). -/
def seenBytes (mem : List Host.Cell) (w : Chip) (a n : Nat) : List Byte :=
  (List.range n).map fun i => w.eccByte (a + i) (memByte mem (a + i))

/-- A write of a whole quarter clears its error and cancels a scrub pending for it (R77, R82). What a read in flight found
there is still reported, and needs no scrub. -/
def quarterWritten (w : Chip) (n q : Nat) : Chip :=
  let w := w.setEcc (lmAddr n q / 8) 0
  let x := w.group n (lmGroup q)
  let old (e : EccSeen) : EccSeen := if e.off = q then { e with live := false } else e
  w.setGroup n (lmGroup q) { x with
    scrub := if x.scrub = some q then none else x.scrub
    scrubXor := if x.scrub = some q then 0 else x.scrubXor
    flying := x.flying.map fun f => { f with errs := f.errs.map old } }

/-- The quarters of a word whose content a grant reads: all of a read, the partly covered ones of a write, all of an
ATOMIC_ADD. -/
def readQuarters (a : Acc) (x : WordReq) : List Nat :=
  match a.kind with
  | .wr => (quartersOf x.off x.len).filter fun q => !coversQuarter x.off x.len q
  | _ => quartersOf x.off x.len

/-- The quarters with bits in error that word `x` reads on core `n`, lowest first. -/
def eccSeenBy (w : Chip) (n : Nat) (x : WordReq) : List EccSeen :=
  ((readQuarters (w.acc x.acc) x).filter fun q => w.eccMask (lmAddr n q / 8) != 0).map fun q =>
    { acc := x.acc, reqr := x.reqr, off := q, mask := w.eccMask (lmAddr n q / 8) }

/-- Owe the merged write of quarter `q` for word `x` (R78), with its new value; none where the read of the quarter finds an
error it cannot correct (R84). -/
def oweMerge (n : Nat) (x : WordReq) (q : Nat) (new : List Byte) (w : Chip) : Chip :=
  if (eccRead (w.eccMask (lmAddr n q / 8))).1 = .uncorrectable then w
  else
    let gr := w.group n (lmGroup q)
    let w := w.setGroup n (lmGroup q) { gr with merges := gr.merges ++ [⟨x.reqr, x.acc, q, new, false⟩] }
    w.setAcc x.acc { w.acc x.acc with merging := (w.acc x.acc).merging + 1 }

/-- Perform one word of a grant on core `n` (R77, R78): a read takes its bytes; a write stores its whole quarters and
owes a merged write for each quarter it covers in part; an ATOMIC_ADD takes the old value and owes the sum (R110). What is
read is what the ECC delivers at the grant (R81, R84). -/
def performWord (n : Nat) (b : Both) (x : WordReq) : Both :=
  let (mem, w) := b
  let a := w.acc x.acc
  let base := lmAddr n x.off
  let w := w.setAcc x.acc { a with todo := a.todo.filter (fun y => y != x), flying := a.flying + 1 }
  let a := w.acc x.acc
  match a.kind with
  | .rd => (mem, w.setAcc x.acc { a with data := patch a.data x.pos (seenBytes mem w base x.len) })
  | .wr =>
    let w := w.sfWrite n (x.off / 64) x.acc
    let d := slice a.data x.pos x.len
    (quartersOf x.off x.len).foldl (fun (b : Both) q =>
      let (mem, w) := b
      if coversQuarter x.off x.len q then
        (memWrite mem (lmAddr n q) (slice d (q - x.off) 8), quarterWritten w n q)
      else
        let s := max q x.off
        let e := min (q + 8) (x.off + x.len)
        (mem, oweMerge n x q (patch (seenBytes mem w (lmAddr n q) 8) (s - q) (slice d (s - x.off) (e - s))) w)) (mem, w)
  | .add =>
    let w := w.sfWrite n (x.off / 64) x.acc
    let old := seenBytes mem w base x.len
    let q := x.off / 8 * 8
    let sum := toLE x.len ((leNat old + leNat (slice a.data x.pos x.len)) % 256 ^ x.len)
    let w := oweMerge n x q (patch (seenBytes mem w (lmAddr n q) 8) (x.off - q) sum) w
    let a := w.acc x.acc
    (mem, w.setAcc x.acc { a with data := patch a.data x.pos old })

/-- ECC_LOG captures the first error while VALID is 0 (R85); `syn` is the syndrome it holds. -/
def eccCapture (w : Chip) (n q kind reqr syn : Nat) : Chip :=
  let a := Addr.bgEccLog n (lmGroup q)
  if w.flag a F.bgEccLog_VALID then w
  else
    let v := q + syn % 256 * 2 ^ 20 + kind * 2 ^ 28 + 2 ^ 31 + reqr * 2 ^ 32
    (w.setReg a v).notice { kind := 4, code := kind, core := n, slot := lmGroup q, time := w.time, data := toLE 8 v }

/-- Access `id` asks for no more words (R166). -/
def Chip.stopAcc (w : Chip) (id : Nat) : Chip :=
  let a := w.acc id
  let w := w.setAcc id { a with todo := [] }
  [0, 1, 2, 3].foldl (fun (w : Chip) g =>
    let x := w.group a.home g
    w.setGroup a.home g { x with retry := x.retry.filter fun y => y.acc != id }) w

/-- A corrected error in quarter `q` of core `n` (R81, R82, R85); `chg` are the bits that the corrected quarter changes of the
data stored, and `live` says that no write has replaced the quarter since it was read. -/
def eccCorrected (w : Chip) (n q reqr syn chg : Nat) (live : Bool) : Chip :=
  let g := lmGroup q
  let w := eccCapture ((w.bump (Addr.bgCeCount n g)).setFlag (Addr.bgStatus n g) F.bgStatus_CE true) n q 1 reqr syn
  let x := w.group n g
  if !live then w
  else match x.scrub with
  | none => w.setGroup n g { x with scrub := some q, scrubXor := chg }
  | some p => if p = q then w else w.setFlag (Addr.bgStatus n g) F.bgStatus_SCRUB_DROP true

/-- An uncorrectable error in quarter `q` of core `n`, met by access `id` (R83, R85); a matrix command's access stops (R166). -/
def eccUncorrectable (w : Chip) (n q reqr syn id : Nat) : Chip :=
  let g := lmGroup q
  let w := eccCapture ((w.bump (Addr.bgUeCount n g)).setFlag (Addr.bgStatus n g) F.bgStatus_UE true) n q 2 reqr syn
  match spFind? w.accs id with
  | some a =>
    let w := w.setAcc id { a with fault := 0x0F, addr := lmAddr n q }
    match a.owner with
    | .mx _ _ => w.stopAcc id
    | _ => w
  | none => w

/-- Write a merged quarter (R78), with valid check bits. -/
def performMerge (n : Nat) (b : Both) (m : Merge) : Both :=
  let (mem, w) := b
  let g := lmGroup m.off
  let gr := w.group n g
  let w := w.setGroup n g { gr with merges := gr.merges.filter fun y => y != m }
  (memWrite mem (lmAddr n m.off) m.data, quarterWritten w n m.off)

/-- Group `g` of core `n` grants requester `r` (R62): what the grant performs is in flight until it completes. -/
def performGrant (n g r : Nat) (b : Both) : Both :=
  let (mem, w) := b
  let x := w.group n g
  let (owed, go, put) := grantPlan x (w.freshWords n g r) r
  let w := w.setGroup n g { x with retry := put, granted := true, waits := spErase x.waits r }
  let w := put.foldl (fun (w : Chip) y => w.setAcc y.acc { w.acc y.acc with todo := (w.acc y.acc).todo.filter fun z => z != y }) w
  let errs := go.flatMap fun y => eccSeenBy w n y
  let b := owed.foldl (fun b m => performMerge n b m) (mem, w)
  let b := go.foldl (fun b y => performWord n b y) b
  let x := b.2.group n g
  (b.1, b.2.setGroup n g { x with flying := x.flying ++ [⟨w.cycle n, go, owed, errs⟩] })

/-- The count of a bank cycle's losers (R68): each waiting requester that was not granted has waited one cycle more. -/
def countWaits (x : Group) (ws : List Nat) (winner : Option Nat) : Group :=
  { x with waits := ws.foldl (fun t r => if winner = some r then spErase t r
      else spPut (fun _ => 0) t r (spGet (fun _ => 0) t r + 1)) x.waits }

/-- BANK_GRANT: one arbitration of group `g` of core `n` in the present bank cycle (R61 to R73, R80). A write that a
commit point left owing takes the cycle first (R80); otherwise the mode's winner is granted, and a requester that no
slot of a Slotted wheel names sets NOSLOT (R73). -/
def bankGrant (n g : Nat) (b : Both) : Both :=
  let (mem, w) := b
  let x := w.group n g
  if !w.runs n || decide (4 ≤ g) || x.arbitrated || x.taken then b
  else
    match x.merges.find? fun m => m.forced with
    | some m =>
      let w := w.setGroup n g { x with taken := true, flying := x.flying ++ [⟨w.cycle n, [], [m], []⟩] }
      performMerge n (mem, w) m
    | none =>
      let ws := w.waitingReqs n g
      let sl := w.slotted n g
      let win := if sl then slottedWinner (w.slotCode n g (w.fld (Addr.wheelPos n) F.wheelPos_POS)) x.dmx ws
        else priorityWinner x.rr ws
      let w := if sl && ws.any (fun r => !w.named n g r) then
        w.setFlag (Addr.bgStatus n g) F.bgStatus_NOSLOT true else w
      match win with
      | none => (mem, w.setGroup n g { countWaits x ws none with arbitrated := true })
      | some r =>
        let w := if !sl && decide (r ≤ 6) && ws.any (fun q => decide (7 ≤ q)) then w.bump (Addr.bgStarveCycles n g) else w
        let w := w.irisSample 0x05 (fun sel => bits sel 5 0 == n && bits sel 9 8 == g &&
          (bits sel 15 12 == 0 || bits sel 15 12 == r)) ((spGet (fun _ => 0) x.waits r : Nat) : Int)
        let x := { countWaits x ws (some r) with
          arbitrated := true
          rr := if !sl && decide (7 ≤ r) then r else x.rr
          dmx := if sl && w.slotCode n g (w.fld (Addr.wheelPos n) F.wheelPos_POS) == 0xA then r else x.dmx }
        performGrant n g r (mem, w.setGroup n g x)

/-- BANK_GRANT (R62). -/
def execBankGrant (core grp : Nat) (s : State) : Out :=
  let r := bankGrant core grp (s.mem, s.w)
  .next { s with mem := r.1, w := r.2 }

/-- The end of a bank cycle of core `n` (R70): the wheel advances, and each Slotted group that granted no requester in
the cycle, and whose cycle no write under R80 took, counts it in LOST_SLOTS (R71, R80). -/
def wheelAdvance (n : Nat) (w : Chip) : Chip :=
  if !w.runs n then w
  else
    let w := [0, 1, 2, 3].foldl (fun (w : Chip) g =>
      let x := w.group n g
      let w := if w.slotted n g && !x.granted && !x.taken then w.bump (Addr.bgLostSlots n g) else w
      w.setGroup n g { x with arbitrated := false, granted := false, taken := false }) w
    let w := w.setFld (Addr.wheelPos n) F.wheelPos_POS ((w.fld (Addr.wheelPos n) F.wheelPos_POS + 1) % 8)
    { w with lm := { w.lm with cycle := spPut (fun _ => 0) w.lm.cycle n (w.cycle n + 1) } }

/-- WHEEL_ADVANCE (R70). -/
def execWheelAdvance (core : Nat) (s : State) : Out := s.onChip (wheelAdvance core)

/-- The eight bytes at a chip address with the bits `chg` changed. -/
def changeQuarter (mem : List Host.Cell) (a chg : Nat) : List Host.Cell :=
  memWrite mem a (toLE 8 (leNat (memRead mem a 8) ^^^ chg))

/-- SCRUB_WRITE (R82): the pending scrub of a group writes the corrected quarter in a bank cycle that no requester is
granted. The data stored change only where three or more bits in error had been miscorrected (R623). -/
def scrubWrite (n g : Nat) (b : Both) : Both :=
  let (mem, w) := b
  let x := w.group n g
  match x.scrub with
  | none => b
  | some q =>
    if w.runs n && x.arbitrated && !x.granted && !x.taken then
      (if x.scrubXor = 0 then mem else changeQuarter mem (lmAddr n q) x.scrubXor,
       (w.setEcc (lmAddr n q / 8) 0).setGroup n g { x with scrub := none, scrubXor := 0 })
    else b

def execScrubWrite (core grp : Nat) (s : State) : Out :=
  let r := scrubWrite core grp (s.mem, s.w)
  .next { s with mem := r.1, w := r.2 }

/-- STARVE_DETECT (R68): a request of DMR, DMW or RMT in a Priority group that has waited more than STARVE_LIMIT
arbitrated bank cycles sets STARVED; LIMIT 0 disables the detector. -/
def starveDetect (n g : Nat) (w : Chip) : Chip :=
  let lim := w.fld (Addr.bgStarveLimit n g) F.bgStarveLimit_LIMIT
  let x := w.group n g
  if w.runs n && decide (g < 4) && !w.slotted n g && lim != 0 &&
      [7, 8, 9].any (fun r => decide (lim < spGet (fun _ => 0) x.waits r)) then
    w.setFlag (Addr.bgStatus n g) F.bgStatus_STARVED true
  else w

def execStarveDetect (core grp : Nat) (s : State) : Out := s.onChip (starveDetect core grp)

/-! ## Completion of a group access -/

/-- Report what a completed access of core `n` found in a quarter (R81, R83, R623). -/
def eccReport (n : Nat) (w : Chip) (e : EccSeen) : Chip :=
  match eccRead e.mask with
  | (.clean, _) => w
  | (.corrected, chg) => eccCorrected w n e.off e.reqr (eccSyndrome e.mask) chg e.live
  | (.uncorrectable, _) => eccUncorrectable w n e.off e.reqr (eccSyndrome e.mask) e.acc

namespace Chip

/-- Some word of access `id` waits to be retried at a group of core `n` (R79). -/
def retrying (w : Chip) (n id : Nat) : Bool :=
  [0, 1, 2, 3].any fun g => (w.group n g).retry.any fun y => y.acc == id

/-- An access whose words are all done, with no merged write owed, no record to wait for and no line request open, is
complete; a remote request served here is answered (R111, R124). -/
def settle (w : Chip) (id : Nat) : Chip :=
  let a := w.acc id
  if a.done || !a.todo.isEmpty || w.retrying a.home id || a.flying != 0 || a.merging != 0 || !a.recd.isEmpty || a.recWait != 0 || a.parts != 0 then w
  else
    match a.owner with
    | .serve mid =>
      match w.msgRec? mid with
      | none => w.dropAcc id
      | some r =>
        let w := (w.dropAcc id).dropMsg mid
        let m := r.msg
        let back := Place.core a.home
        if a.fault != 0 then
          w.answer back m (if m.op = .read || m.op = .atomicAdd then .readData else .writeAck) a.fault 0 []
        else match m.op with
          | .read => w.answer back m .readData 0 0 a.data m.uncached m.fillTag
          | .atomicAdd => w.answer back m .readData 0 0 a.data true 0
          | _ => w.answer back m .writeAck 0 0 []
    | .none => w.dropAcc id
    | _ => (w.setAcc id { a with done := true }).finishOwner id

end Chip

/-- One word of a completed group access: its access has one word fewer in flight. -/
def completeWord (w : Chip) (x : WordReq) : Chip :=
  (w.setAcc x.acc { w.acc x.acc with flying := (w.acc x.acc).flying - 1 }).settle x.acc

/-- One merged write of a completed group access. -/
def completeMerge (w : Chip) (m : Merge) : Chip :=
  (w.setAcc m.acc { w.acc m.acc with merging := (w.acc m.acc).merging - 1 }).settle m.acc

/-- GROUP_ACCESS_COMPLETE (R63): the oldest granted access of group `g`, once 2 bank cycles have passed since its grant.
What it found in the quarters it read at its grant is reported in the order of its words, the lowest quarter of a word first:
the spec does not say which of several errors is the first for ECC_LOG and for the one pending scrub (log entry 4). `flips`
are errors the array has taken since (quarter as chip address / 8, bits), which a later grant finds. -/
def groupAccessComplete (n g : Nat) (flips : List (Nat × Nat)) (w : Chip) : Chip :=
  let x := w.group n g
  match x.flying with
  | [] => w
  | f :: rest =>
    if !w.runs n || decide (w.cycle n < f.cycle + 2) then w
    else
      let w := flips.foldl (fun (w : Chip) p => w.eccFlip p.1 p.2) w
      let w := w.setGroup n g { x with flying := rest }
      let w := f.errs.foldl (eccReport n) w
      let w := f.merges.foldl completeMerge w
      f.words.foldl completeWord w

def execGroupAccessComplete (core grp : Nat) (flips : List (Nat × Nat)) (s : State) : Out :=
  s.onChip (groupAccessComplete core grp flips)

end Sys2Proof.Machine
end

