-- ==== Sys2Proof/Machine/Mesh.lean ====
section
/-! DEFINITION. Arbitration at the shared resources (04_arbitration.md) and the on-chip mesh (R625): the choice of a
grant by force, credit, wait count and tie order (R94 to R99), the remote port and mesh entry arbiters, and a hop. -/

namespace Sys2Proof.Machine

/-- The parameters of an arbiter (Table ARB-2): its classes in tie order, their refills, whether it has the wait limit
of 32 (R97), and the classes with a quota of 16 (R99). -/
structure ArbParams where
  tie : List Nat
  refill : Nat → Nat
  limited : Bool
  quota : List Nat

/-- Remote port: classes 0 REQ_LOCAL, 1 REQ_POD, 2 COH, 3 SYNC; tie order SYNC, COH, REQ_POD, REQ_LOCAL (Table ARB-2). -/
def portParams : ArbParams := ⟨[3, 2, 1, 0], fun c => if c ≤ 1 then 32 else 16, true, []⟩

/-- Mesh entry: classes 0 COH, 1 CORE, 2 to 5 DMA[0] to DMA[3] (Table ARB-2). -/
def entryParams : ArbParams := ⟨[0, 1, 2, 3, 4, 5], fun c => if c ≤ 1 then 16 else 8, true, []⟩

/-- Link output: classes VC0 to VC3; tie order VC3, VC2, VC1, VC0; quota of VC3 and VC2 (Table ARB-2). -/
def linkParams : ArbParams := ⟨[3, 2, 1, 0], fun c => if 2 ≤ c then 64 else 32, false, [3, 2]⟩

/-- A counter of an arbiter. -/
def tget (t : Table Nat) (k : Nat) : Nat := spGet (fun _ => 0) t k
/-- Write a counter of an arbiter. -/
def tput (t : Table Nat) (k v : Nat) : Table Nat := spPut (fun _ => 0) t k v

/-- The first grant of a window refills every credit counter and clears every quota mask (R94). -/
def refillWindow (p : ArbParams) (a : Arb) : Arb :=
  if a.grants = 0 then { a with credit := p.tie.foldl (fun t c => tput t c (p.refill c)) [], quota := [] } else a

/-- A class is masked once it has taken its 16th grant of the window (R99). -/
def masked (p : ArbParams) (a : Arb) (c : Nat) : Bool := p.quota.contains c && decide (16 ≤ tget a.quota c)

/-- The classes of a list that have the highest value of `f`. -/
def argMax (f : Nat → Nat) (l : List Nat) : List Nat :=
  let m := l.foldl (fun m c => max m (f c)) 0
  l.filter fun c => f c == m

/-- The winner of a grant among the eligible classes (R98, R99). -/
def arbWinner (p : ArbParams) (a : Arb) (elig : List Nat) : Option Nat :=
  let forced := if p.limited then elig.filter fun c => decide (32 ≤ tget a.wait c) else []
  let open_ := elig.filter fun c => !masked p a c
  let pool := if !forced.isEmpty then forced
    else argMax (tget a.credit) (if open_.isEmpty then elig else open_)
  let best := argMax (tget a.wait) pool
  p.tie.find? fun c => best.contains c

/-- The counters after a grant to `win` (R95, R96, R99): its credit falls by 1 and its wait count is 0; an eligible
loser's wait count rises by 1; a class with nothing to send has wait count 0. -/
def arbCount (p : ArbParams) (a : Arb) (win : Nat) (elig ready : List Nat) : Arb :=
  { a with
    credit := tput a.credit win (tget a.credit win - 1)
    wait := p.tie.foldl (fun t c =>
      if c = win || !ready.contains c then tput t c 0
      else if elig.contains c then tput t c (tget t c + 1) else t) a.wait
    quota := if p.quota.contains win then tput a.quota win (tget a.quota win + 1) else a.quota
    grants := (a.grants + 1) % 64 }

/-- Of a list of messages, the one that reached its place first (R100). -/
def oldest : List (Nat × MsgRec) → Option (Nat × MsgRec)
  | [] => none
  | x :: r => some (r.foldl (fun b y => if y.2.stamp < b.2.stamp then y else b) x)

/-- Bytes of the LM word of an ATOMIC_ADD: 8 or 4 by its width bit (R110, Table POD-2). -/
def addLen (m : Msg) : Nat := if bit m.arg 0 then 8 else 4

/-- The bank groups that a request to an LM touches. -/
def groupsOf (m : Msg) : List Nat :=
  [0, 1, 2, 3].filter fun g => decide (lmGroup (m.addr % 0x100000) ≤ g) && decide (g ≤ lmGroup (m.addr % 0x100000 + (m.len - 1)))

namespace Chip

/-- The status with which core `n`'s remote port refuses a message before arbitration, or 0 (R75, R111, R112). An ATOMIC_ADD
of a word that is not naturally aligned, which no T64 sends (R109, R110), is answered ALIGN (log entry 65). -/
def portRefusal (w : Chip) (n : Nat) (m : Msg) : Nat :=
  let lm := match m.op with
    | .read | .write => true
    | .atomicAdd => !bit m.arg 1
    | _ => false
  if (lm || m.op == Op.atomicAdd) && (!w.coreUp n || w.goingDown.contains n) then 0x0A
  else if lm && (groupsOf m).any (fun g => w.cfg (Addr.bgMode n g) F.bgMode_SHARED == 0) then 0x04
  else if lm && m.op == Op.atomicAdd && m.addr % addLen m != 0 then 0x03
  else 0

/-- Messages that wait at core `n`'s remote port in class `c`. -/
def atPort (w : Chip) (n c : Nat) : List (Nat × MsgRec) :=
  w.net.msgs.filter fun p => p.2.stage == .portQ && p.2.dst == .core n && p.2.cls == c && w.portRefusal n p.2.msg == 0

/-- Entries in use of core `n`'s remote-access queue (R626); coherence messages use none. -/
def inboundUsed (w : Chip) (n : Nat) : Nat :=
  (w.net.msgs.filter fun p => (p.2.stage == .admitted || p.2.stage == .serving) && p.2.dst == .core n && p.2.cls != 2).length

/-- Messages that wait at core `n`'s mesh entry in class `c`. -/
def atEntry (w : Chip) (n c : Nat) : List (Nat × MsgRec) :=
  w.net.msgs.filter fun p => p.2.stage == .entry && p.2.src == .core n && p.2.cls == c

/-- Injection buffers in use of class `c` at core `n`'s router, of two (R93). -/
def buffersUsed (w : Chip) (n c : Nat) : Nat := (w.net.flits.filter fun f => f.entry == some (n, c)).length

/-- Classes of an arbiter that have nothing to send have wait count 0 (R96). -/
def restArb (w : Chip) (k : Nat) (p : ArbParams) (ready : List Nat) : Chip :=
  let a := w.arb k
  w.setArb k { a with wait := p.tie.foldl (fun t c => if ready.contains c then t else tput t c 0) a.wait }

/-- The classes with a transaction at core `n`'s remote port. -/
def portReady (w : Chip) (n : Nat) : List Nat := portParams.tie.filter fun c => !(w.atPort n c).isEmpty

/-- The classes with a flit at core `n`'s mesh entry. -/
def entryReady (w : Chip) (n : Nat) : List Nat := entryParams.tie.filter fun c => !(w.atEntry n c).isEmpty

/-- The remote ports and mesh entries of this chip after messages have left them without a grant (R96). -/
def restCores (w : Chip) : Chip :=
  let w := ((w.net.arbs.map fun p => p.1).filter fun k => decide (k < 64)).foldl (fun (w : Chip) k =>
    w.restArb k portParams (w.portReady k)) w
  ((w.net.arbs.map fun p => p.1).filter fun k => decide (64 ≤ k) && decide (k < 128)).foldl (fun (w : Chip) k =>
    w.restArb k entryParams (w.entryReady (k - 64))) w

/-- The remote port arbiter of core `n` admits one transaction (R90, R93, R98). -/
def portGrant (w : Chip) (n : Nat) : Chip :=
  let ready := w.portReady n
  let elig := ready.filter fun c => c == 2 || decide (w.inboundUsed n < 32)
  let a := refillWindow portParams (w.arb n)
  match arbWinner portParams a elig with
  | none => w
  | some c =>
    match oldest (w.atPort n c) with
    | none => w
    | some (id, r) => (w.setArb n (arbCount portParams a c elig ready)).setMsg id { r with stage := .admitted }

/-- One granted flit of message `id` enters the mesh at core `n` in class `c` (R101): it stands in the core's router,
or has already arrived where the message goes no hop. -/
def enterFlit (w : Chip) (n c id : Nat) (r : MsgRec) : Chip :=
  let b := routerOf w.switchedOn r.dst r.src
  let here : Bool := b == n
  let r := { r with sent := r.sent + 1, stage := if r.sent + 1 = r.total then .mesh else .entry,
                    arrived := if here then r.arrived + 1 else r.arrived }
  let w := w.setMsg id r
  if here then (if r.arrived = r.total then w.arriveMsg id r else w)
  else { w with net := { w.net with flits := w.net.flits ++ [⟨id, n, some (n, c)⟩] } }

/-- The mesh entry arbiter of core `n` places one flit on the mesh (R90, R93, R98, R101). -/
def entryGrant (w : Chip) (n : Nat) : Chip :=
  let ready := w.entryReady n
  let elig := ready.filter fun c => decide (w.buffersUsed n c < 2)
  let a := refillWindow entryParams (w.arb (64 + n))
  match arbWinner entryParams a elig with
  | none => w
  | some c =>
    match oldest (w.atEntry n c) with
    | none => w
    | some (id, r) => (w.setArb (64 + n) (arbCount entryParams a c elig ready)).enterFlit n c id r

/-- The first flit of message `id` that may hop: no flit ahead of it in its router wants the same next router. -/
def hopFlit? (w : Chip) (id dst : Nat) : List Flit → List Flit → Option (Flit × List Flit)
  | _, [] => none
  | before, f :: r =>
    if f.msg = id then
      let nx := nextRouter f.router dst
      if before.any fun g => g.router == f.router && (match w.msgRec? g.msg with
          | some q => nextRouter g.router (routerOf w.switchedOn q.dst q.src) == nx
          | none => false) then none
      else some (f, before ++ r)
    else hopFlit? w id dst (before ++ [f]) r

end Chip

/-- MESH_HOP (R625): a flit of message `id` passes into the next router on its way, along the row and then along the
column; in its last router it is ejected. -/
def meshHop (id : Nat) (w : Chip) : Chip :=
  if !w.live then w
  else match w.msgRec? id with
    | none => w
    | some r =>
      let d := routerOf w.switchedOn r.dst r.src
      match w.hopFlit? id d [] w.net.flits with
      | none => w
      | some (f, rest) =>
        let nx := nextRouter f.router d
        if nx = d then
          let w := { w with net := { w.net with flits := rest } }
          let r := { r with arrived := r.arrived + 1 }
          let w := w.setMsg id r
          if r.arrived = r.total then w.arriveMsg id r else w
        else { w with net := { w.net with flits := rest ++ [{ f with router := nx, entry := none }] } }

def execMeshHop (msg : Nat) (s : State) : Out := s.onChip (meshHop msg)

end Sys2Proof.Machine
end

