-- ==== Sys2Proof/Machine/Coherence.lean ====
section
/-! DEFINITION. Remote access and coherence (05_remote_access_and_coherence.md): the remote line cache, requests at
their home, the snoop filter, invalidation records, sweeps and flushes. -/

namespace Sys2Proof.Machine

/-- The line number of a pod address: chip number (255 for this chip), then the chip address of the line (R114). -/
def lineOf (chip addr : Nat) : Nat := chip * 2 ^ 32 + addr / 64 * 64

/-- The RLC set of a line: bits [12:6] of its pod address. -/
def rlcSet (line : Nat) : Nat := bits line 12 6

namespace Chip

/-! ## The remote line cache -/

/-- The RLC serves and fills reads: ENABLE is 1 and no flush is in progress (R114, R120). -/
def rlcOn (w : Chip) (n : Nat) : Bool :=
  w.flag (Addr.rlcCtrl n) F.rlcCtrl_ENABLE && !w.flag (Addr.rlcStatus n) F.rlcStatus_FLUSHING

/-- The ways of an RLC set, most recently used first. -/
def rlcWays (w : Chip) (n set : Nat) : List RlcLine := spGet (fun _ => []) (w.cohOf n).sets set

/-- Replace the ways of an RLC set. -/
def setRlcWays (w : Chip) (n set : Nat) (l : List RlcLine) : Chip :=
  let c := w.cohOf n
  w.setCoh n { c with sets := spPut (fun _ => []) c.sets set l }

/-- Send EVICT_NOTE for a line and its fill tag to its home (R118). -/
def evictNote (w : Chip) (n line tag : Nat) : Chip :=
  let chip := line / 2 ^ 32
  let a := line % 2 ^ 32
  (w.bump (Addr.rlcEvicts n)).inject (.core n) (w.towards chip (.core (a / 0x100000))) 0
    { op := .evictNote, dstChip := chip, srcCore := n, srcUnit := 3, addr := a, fillTag := tag, epoch := w.epoch }

/-- Install a filled line as most recently used; the least recently used line of a full set leaves with a notice
(R116, R118). A copy of the same line is replaced. -/
def rlcInstall (w : Chip) (n : Nat) (l : RlcLine) : Chip :=
  let s := rlcSet l.line
  let ways := l :: (w.rlcWays n s).filter fun x => x.line != l.line
  let w := w.setRlcWays n s (ways.take 4)
  (ways.drop 4).foldl (fun w x => w.evictNote n x.line x.tag) w

/-- Drop every line with a notice, and let the fills in flight be announced when they arrive (R120). -/
def rlcDropAll (w : Chip) (n : Nat) : Chip :=
  let c := w.cohOf n
  let all := c.sets.flatMap fun p => p.2
  let w := w.setCoh n { c with sets := [], fills := c.fills.map fun f => { f with flushed := true } }
  let w := w.setFlag (Addr.rlcStatus n) F.rlcStatus_FLUSHING true
  all.foldl (fun w x => w.evictNote n x.line x.tag) w

/-- Lines of core `n`'s RLC take parity errors (R119). -/
def rlcStrike (w : Chip) (n : Nat) (lines : List Nat) : Chip :=
  lines.foldl (fun (w : Chip) l =>
    if (w.rlcWays n (rlcSet l)).any fun x => x.line == l then
      w.setRlcWays n (rlcSet l) ((w.rlcWays n (rlcSet l)).map fun x => if x.line = l then { x with perr := true } else x)
    else w) w

/-- One line request of a remote read: the part at `pos` of access `id`, `len` bytes at `addr`. A hit delivers at once
(R115); a parity error drops the line with a notice and reads it again (R119); a miss fetches the whole line (R116);
without the RLC the bytes asked for are read. -/
def readPart (w : Chip) (n unit slot chip addr len id pos : Nat) : Chip :=
  let line := lineOf chip addr
  let home := Place.core (addr / 0x100000)
  let use := w.rlcOn n && decide (addr < 0x4000000)
  if use then
    let ways := w.rlcWays n (rlcSet line)
    match ways.find? fun x => x.line == line with
    | some x =>
      if x.perr then
        let w := (w.setRlcWays n (rlcSet line) (ways.filter fun y => y.line != line)).evictNote n x.line x.tag
        let w := ((w.setFlag (Addr.rlcStatus n) F.rlcStatus_PERR true).bump (Addr.rlcPerrCount n)).bump (Addr.rlcMisses n)
        let c := w.cohOf n
        let w := w.setCoh n { c with fills := c.fills ++ [{ line := line, acc := id, pos := pos, len := len }] }
        w.send (.core n) home 1 { op := .read, dstChip := chip, srcCore := n, srcUnit := unit, srcSlot := slot,
                                  addr := addr / 64 * 64, len := 64, acc := id, pos := pos }
      else
        let w := (w.setRlcWays n (rlcSet line) (x :: ways.filter fun y => y.line != line)).bump (Addr.rlcHits n)
        let a := w.acc id
        w.setAcc id { a with data := patch a.data pos (slice x.data (addr % 64) len), parts := a.parts - 1 }
    | none =>
      let w := w.bump (Addr.rlcMisses n)
      let c := w.cohOf n
      let w := w.setCoh n { c with fills := c.fills ++ [{ line := line, acc := id, pos := pos, len := len }] }
      w.send (.core n) home 1 { op := .read, dstChip := chip, srcCore := n, srcUnit := unit, srcSlot := slot,
                                addr := addr / 64 * 64, len := 64, acc := id, pos := pos }
  else
    w.send (.core n) home 1 { op := .read, dstChip := chip, srcCore := n, srcUnit := unit, srcSlot := slot, addr := addr,
                              len := len, acc := id, pos := pos, uncached := true }

/-- A remote read by the sequencer, matrix or vector engine of core `n` (R109, R114). -/
def remoteRead (w : Chip) (owner : AccOwner) (n unit slot chip addr len : Nat) (stream : Nat := 0) : Chip :=
  let id := w.nextId
  let chip := w.resolve chip
  let flt := w.issueFault chip addr
  let w := (w.setAcc id { owner := owner, core := n, remote := true, kind := .rd, chip := chip, addr := addr, len := len,
                          data := List.replicate len 0, parts := if flt != 0 then 0 else if len = 128 then 2 else 1,
                          fault := flt, stream := stream, born := w.time }).bumpId
  let w := if flt != 0 then w
    else if len = 128 then (w.readPart n unit slot chip addr 64 id 0).readPart n unit slot chip (addr + 64) 64 id 64
    else w.readPart n unit slot chip addr len id 0
  w.settle id

/-- A request of another kind than an LM access, tracked as an operation of its requester until it is answered. -/
def trackOp (w : Chip) (owner : AccOwner) (n chip addr fault stream : Nat) : Chip :=
  (w.setAcc w.nextId { owner := owner, core := n, remote := true, chip := chip, addr := addr,
                       parts := if fault = 0 then 1 else 0, fault := fault, stream := stream, born := w.time }).bumpId

/-- An access of the chip blocks to LM, from the block hub (R296, R330, R524): one request to its home. -/
def hubAccess (w : Chip) (owner : AccOwner) (unit core chip addr : Nat) (kind : AccKind) (len : Nat) (data : List Byte)
    (stream : Nat := 0) : Chip :=
  let id := w.nextId
  let flt := if 0x4000000 ≤ addr ∨ 0x100000 < addr % 0x100000 + len then 2 else w.issueFault chip addr
  let w := (w.setAcc id { owner := owner, core := core, remote := true, kind := kind, chip := w.resolve chip, addr := addr,
                          len := len, data := match kind with | .rd => List.replicate len 0 | _ => data,
                          parts := if flt != 0 then 0 else 1, fault := flt, stream := stream, born := w.time }).bumpId
  if flt != 0 then w.settle id
  else w.send .hub (.core (addr / 0x100000)) 1
    { op := match kind with | .rd => .read | _ => .write, dstChip := w.resolve chip, srcCore := core, srcUnit := unit,
      addr := addr, len := len, data := data, acc := id, uncached := true }

/-! ## Records -/

/-- Accesses that waited for record `tid` of core `h` no longer wait for it. -/
def releaseRecord (w : Chip) (h tid : Nat) : Chip :=
  let ids := (w.accs.filter fun p => p.2.home == h && !p.2.remote && p.2.recd.contains tid).map fun p => p.1
  ids.foldl (fun w id => (w.setAcc id { w.acc id with recd := (w.acc id).recd.filter fun t => t != tid }).settle id) w

/-- Remove the entry of `line` from core `h`'s snoop filter. -/
def sfFree (w : Chip) (h line : Nat) : Chip :=
  let c := w.cohOf h
  let ways := spGet (fun _ => []) c.sf (line % 512)
  w.setCoh h { c with sf := spPut (fun _ => []) c.sf (line % 512) (ways.filter fun e => e.line != line) }

/-- A record without answers to come is complete: its entry is freed and its accesses go on (R124). -/
def recordDone (w : Chip) (h : Nat) (r : InvRec) : Chip :=
  let c := w.cohOf h
  let w := w.setCoh h { c with recs := c.recs.filter fun x => x.tid != r.tid }
  (w.sfFree h r.line).releaseRecord h r.tid

/-- An answer discarded under R127. -/
def lateAnswer (w : Chip) (h : Nat) : Chip := w.bump (Addr.sfLateCount h)

/-- Count an answer of `who` for record `r` of core `h`, if it is expected and not yet counted (R127). -/
def countAnswer (w : Chip) (h : Nat) (r : InvRec) (who : Nat × Nat) : Chip :=
  if r.left.contains who then
    let r := { r with left := r.left.filter fun x => x != who }
    if r.left.isEmpty then w.recordDone h r
    else
      let c := w.cohOf h
      w.setCoh h { c with recs := c.recs.map fun x => if x.tid = r.tid then r else x }
  else w.lateAnswer h

/-- Start the back-invalidation of an entry: it opens a record, or waits for one (R123). -/
def backInvalidate (w : Chip) (h line : Nat) : Chip :=
  let c := w.cohOf h
  if c.recs.length < 16 then (w.openRecord h line true).1
  else
    let ways := spGet (fun _ => []) c.sf (line % 512)
    w.setCoh h { c with
      waiting := c.waiting ++ [⟨line, none⟩]
      sf := spPut (fun _ => []) c.sf (line % 512) (ways.map fun e => if e.line = line then { e with inv := true } else e) }

/-- Sweep group `g` of core `h`: every entry of the group without an outstanding invalidation is back-invalidated
(R131, R132). -/
def sweepGroup (w : Chip) (h g : Nat) : Chip :=
  let c := w.cohOf h
  let lines := (c.sf.flatMap fun p => p.2).filter fun e => !e.inv && lmGroup (e.line * 64) == g
  let w := w.setCoh h { c with sweep := if c.sweep.contains g then c.sweep else c.sweep ++ [g] }
  let w := w.setFlag (Addr.sfStatus h) F.sfStatus_SWEEP true
  lines.foldl (fun w e => w.backInvalidate h e.line) w

/-! ## Requests at their home -/

/-- The stream of a remote request (R135, R136): its context, whose sequencer and vector engine (units 0 and 2) share it; or
the unit that sends it. The matrix engine's accesses are ordered by MX_WAIT alone (R163). -/
def reqStream (m : Msg) : Nat :=
  2 ^ 20 + ((m.srcChip * 64 + m.srcCore) * 16 + (if m.srcUnit = 2 then 0 else m.srcUnit)) * 4 + m.srcSlot

/-- Whether message `r` is admitted and the first of its requester's admitted requests at core `h` (R135). -/
def mayServe (w : Chip) (h : Nat) (r : MsgRec) : Bool :=
  r.stage == .admitted && !(w.net.msgs.any fun p => p.2.stage == .admitted && p.2.dst == .core h &&
    reqStream p.2.msg == reqStream r.msg && decide (p.2.stamp < r.stamp))

/-- Refuse a request at the remote port of core `h` (R111): it leaves the port without a grant (R96). -/
def refuseAt (w : Chip) (h id : Nat) (r : MsgRec) (status : Nat) : Chip :=
  let w := w.dropMsg id
  (w.restArb h portParams (w.portReady h)).answer (.core h) r.msg (if r.msg.op == Op.read || (r.msg.op == Op.atomicAdd && !bit r.msg.arg 1) then .readData else .writeAck)
    status 0 []

/-- Whether a read may fill: a whole-line read of a sequencer, matrix or vector engine that looked up its RLC (R114,
R123). -/
def mayFill (m : Msg) : Bool := decide (m.srcUnit ≤ 2) && !m.uncached && m.len == 64 && m.addr % 64 == 0

/-- The entry of an allowed fill (R122): the requester is listed with the new tag; a fifth sharer turns it broad. -/
def addSharer (e : SfEntry) (s : Sharer) : SfEntry :=
  if e.broad then e
  else
    let rest := e.sharers.filter fun x => !(x.chip == s.chip && x.core == s.core)
    if rest.length < 4 then { e with sharers := rest ++ [s] } else { e with broad := true, sharers := [] }

/-- Snoop filter work of a read at core `h` (R122, R123): the mark of its answer, with the fill tag if it may fill. A read
admitted before its group became Private or before its core began to power down does not fill, so that the sweep leaves no
copy (R131, R132; log entry 66). -/
def recordSharer (w : Chip) (h : Nat) (m : Msg) : Chip × Bool × Nat :=
  let line := m.addr % 0x100000 / 64
  let c := w.cohOf h
  let ways := spGet (fun _ => []) c.sf (line % 512)
  let g := lmGroup (line * 64)
  if !mayFill m || !w.shared h g || c.sweep.contains g || w.goingDown.contains h || c.recs.any (fun r => r.line == line) then (w, true, 0)
  else
    let tag := c.nextTag
    let s : Sharer := ⟨m.srcChip, m.srcCore, tag⟩
    match ways.find? fun e => e.line == line with
    | some e =>
      if e.inv then (w, true, 0)
      else
        let ways := ways.map fun x => if x.line = line then addSharer x s else x
        (w.setCoh h { c with nextTag := (tag + 1) % 65536, sf := spPut (fun _ => []) c.sf (line % 512) ways }, false, tag)
    | none =>
      if ways.length < 8 then
        let ways := ways ++ [{ line := line, sharers := [s] }]
        (w.setCoh h { c with nextTag := (tag + 1) % 65536, sf := spPut (fun _ => []) c.sf (line % 512) ways }, false, tag)
      else
        let w := w.bump (Addr.sfNofillCount h)
        match ways.find? fun e => !e.inv with
        | some v => (w.backInvalidate h v.line, true, 0)
        | none => (w, true, 0)

/-- The lines that a run of bytes touches. -/
def linesOf (off len : Nat) : List Nat := (List.range ((off % 64 + len + 63) / 64)).map fun i => off / 64 + i

/-- Serve request `id` at core `h` by accesses of its remote port (RMT). -/
def serveAt (w : Chip) (h id : Nat) (r : MsgRec) (kind : AccKind) : Chip :=
  let len := match kind with | .add => addLen r.msg | _ => r.msg.len
  (w.setMsg id { r with stage := .serving }).localAcc (.serve id) h h 9 kind (r.msg.addr % 0x100000) len
    (r.msg.data.take len) (reqStream r.msg)

/-- The lookup of a write on its arrival (R121, R124). -/
def lookupWrite (w : Chip) (h id : Nat) (m : Msg) : Chip :=
  (linesOf (m.addr % 0x100000) m.len).foldl (fun w l => w.sfWrite h l id) w

/-- LM bytes that a failing command leaves undefined count as written for coherence, so that no RLC keeps a copy from before
(R121, R125). -/
def sfTouch (w : Chip) (n off len : Nat) : Chip :=
  let id := w.nextId
  let w := (w.setAcc id { core := n, home := n, kind := .wr, addr := lmAddr n off, len := len }).bumpId
  ((linesOf off len).foldl (fun w l => w.sfWrite n l id) w).settle id

/-- A request of kind `op` reaches its home core (R111): the port refuses it before arbitration, or, once admitted, it
is performed by `go`. -/
def atHome (w : Chip) (id : Nat) (isOp : Msg → Bool) (go : Nat → MsgRec → Chip) : Chip :=
  match w.msgRec? id with
  | none => w
  | some r =>
    match r.dst with
    | .core h =>
      if !w.live || !isOp r.msg then w
      else if r.stage == .portQ && w.portRefusal h r.msg != 0 then w.refuseAt h id r (w.portRefusal h r.msg)
      else if w.mayServe h r then go h r
      else w
    | _ => w

end Chip

open Chip in
/-- REMOTE_READ_AT_HOME (R111, R122, R123). -/
def remoteReadAtHome (id : Nat) (w : Chip) : Chip :=
  w.atHome id (fun m => m.op == Op.read) fun h r =>
    let (w, unc, tag) := w.recordSharer h r.msg
    w.serveAt h id { r with msg := { r.msg with uncached := unc, fillTag := tag } } .rd

def execRemoteReadAtHome (msg : Nat) (s : State) : Out := s.onChip (remoteReadAtHome msg)

/-- REMOTE_WRITE_AT_HOME (R124, R128). -/
def remoteWriteAtHome (id : Nat) (w : Chip) : Chip :=
  w.atHome id (fun m => m.op == Op.write) fun h r =>
    let k := w.nextId
    (w.serveAt h id r .wr).lookupWrite h k r.msg

def execRemoteWriteAtHome (msg : Nat) (s : State) : Out := s.onChip (remoteWriteAtHome msg)

/-- ATOMIC_ADD (R110): an add in an LM word of 4 or 8 bytes; it counts as a write for coherence. -/
def atomicAdd (id : Nat) (w : Chip) : Chip :=
  w.atHome id (fun m => m.op == Op.atomicAdd && !bit m.arg 1) fun h r =>
    let k := w.nextId
    (w.serveAt h id r .add).lookupWrite h k { r.msg with len := addLen r.msg }

def execAtomicAdd (msg : Nat) (s : State) : Out := s.onChip (atomicAdd msg)

namespace Chip

/-! ## Answers at the requester -/

/-- The probe sample of a remote read that missed its RLC (REMOTE_READ_LAT of Table FLT-1). -/
def readLatency (w : Chip) (a : Acc) : Chip :=
  w.irisSample 0x01 (fun sel => bits sel 5 0 == a.core &&
    (bits sel 15 8 == 255 || bits sel 15 8 == (if a.chip = 255 then (w.chipNum?).getD 255 else a.chip)))
    ((w.time - a.born : Nat) : Int)

/-- Deliver answered data to part `m.pos` of its access, and install the line of a fill (R116, R120). -/
def deliver (w : Chip) (n : Nat) (m : Msg) : Chip :=
  let a := w.acc m.acc
  let c := w.cohOf n
  let isFill (f : Fill) : Bool := f.acc == m.acc && f.pos == m.pos
  match c.fills.find? isFill with
  | none => w.setAcc m.acc { a with data := patch a.data m.pos m.data }
  | some f =>
    let w := w.setCoh n { c with fills := c.fills.filter fun f => !isFill f }
    if m.status != 0 then w
    else
      let off := (a.addr + m.pos) % 64
      let w := w.setAcc m.acc { a with data := patch a.data m.pos (slice m.data off f.len) }
      if m.uncached || f.snooped then w
      else if f.flushed || !w.rlcOn n then w.evictNote n f.line m.fillTag
      else w.rlcInstall n { line := f.line, data := m.data, tag := m.fillTag }

/-- A response has reached the requester of access `m.acc` on this chip (R116, R124, R421). -/
def takeAnswer (w : Chip) (n : Nat) (m : Msg) (data : Bool) : Chip :=
  match spFind? w.accs m.acc with
  | none => w
  | some a =>
    if a.parts = 0 then w
    else
      let w := if data then w.deliver n m else w
      let a := w.acc m.acc
      let w := w.setAcc m.acc { a with
        parts := a.parts - 1
        fault := if a.fault != 0 then a.fault else m.status
        detail := if a.fault != 0 then a.detail else if m.status != 0 then m.addr else a.detail }
      let engine := match a.owner with | .mx _ _ | .vx _ _ => true | _ => false
      let w := if data && engine && a.kind == AccKind.rd && m.status == 0 then w.readLatency a else w
      w.settle m.acc

end Chip

/-- A response at its place of arrival, taken by its requester. -/
def takeResponse (id : Nat) (isOp : Op → Bool) (data : Bool) (w : Chip) : Chip :=
  match w.msgRec? id with
  | none => w
  | some r =>
    if !w.live || !isOp r.msg.op then w
    else match r.stage, r.dst with
      | .resp, .core n => (w.dropMsg id).takeAnswer n r.msg data
      | .hub, .hub => (w.dropMsg id).takeAnswer r.msg.srcCore r.msg data
      | _, _ => w

/-! ## Snoops and their answers -/

/-- SNOOP_INV (R116, R627): the RLC drops the line and answers INV_ACK, or NOT_HELD. A SNOOP_INV of the broadcast unit
names the line's home chip in `fillTag` and is answered to the hub. -/
def snoopInv (id : Nat) (w : Chip) : Chip :=
  match w.msgRec? id with
  | none => w
  | some r =>
    match r.stage, r.dst with
    | .admitted, .core n =>
      if !w.live || r.msg.op != Op.snoopInv then w
      else
        let fromHub := r.msg.arg == 2
        let line := lineOf (if fromHub then r.msg.fillTag else r.msg.srcChip) r.msg.addr
        let ways := w.rlcWays n (rlcSet line)
        let c := w.cohOf n
        let pend := c.fills.any fun f => f.line == line
        let held := ways.any (fun x => x.line == line) || pend
        let w := (w.setCoh n { c with
            fills := c.fills.map fun f => if f.line = line then { f with snooped := true } else f }).setRlcWays n
          (rlcSet line) (ways.filter fun x => x.line != line)
        let w := if held then w.bump (Addr.rlcSnoopHits n) else w.bump (Addr.rlcSnoopMisses n)
        let m : Msg := { r.msg with op := if held then .invAck else .notHeld, dstChip := if fromHub then 255 else r.msg.srcChip,
                                    srcChip := 255, arg := 0, pos := n, data := [] }
        (w.dropMsg id).inject (.core n) (if fromHub then .hub else w.towards r.msg.srcChip (.core r.msg.srcCore)) 0 m
    | _, _ => w

def execSnoopInv (msg : Nat) (s : State) : Out := s.onChip (snoopInv msg)

/-- An INV_ACK or NOT_HELD reaches a home core, which counts or discards it (Table COH-2), or the broadcast unit, which
collects it (R126). `m.pos` is the answering core, `m.arg` 1 marks the answer of a broadcast unit. -/
def snoopAnswer (op : Op) (id : Nat) (w : Chip) : Chip :=
  match w.msgRec? id with
  | none => w
  | some r =>
    if !w.live || r.msg.op != op then w
    else match r.stage, r.dst with
      | .admitted, .core h =>
        let w := w.dropMsg id
        let who := if r.msg.arg = 1 then (r.msg.srcChip, 0) else (r.msg.srcChip, r.msg.pos)
        match (w.cohOf h).recs.find? fun x => x.tid == r.msg.tid && x.broad == (r.msg.arg == 1) with
        | some x => w.countAnswer h x who
        | none => w.lateAnswer h
      | .hub, .hub =>
        let w := w.dropMsg id
        { w with net := { w.net with bcast := w.net.bcast.map fun b =>
            if b.id = r.msg.acc then { b with left := b.left.filter fun n => n != r.msg.pos } else b } }
      | _, _ => w

/-- INV_ACK (R127). -/
def execInvAck (msg : Nat) (s : State) : Out := s.onChip (snoopAnswer .invAck msg)
/-- NOT_HELD (R127). -/
def execNotHeld (msg : Nat) (s : State) : Out := s.onChip (snoopAnswer .notHeld msg)

/-- EVICT_NOTE at the home (Table COH-2). Whether a record is open or not, a notice with another fill tag than the listed one
is discarded: its core has filled the line again (R125, R127). -/
def evictNoteAt (id : Nat) (w : Chip) : Chip :=
  match w.msgRec? id with
  | none => w
  | some r =>
    match r.stage, r.dst with
    | .admitted, .core h =>
      if !w.live || r.msg.op != Op.evictNote then w
      else
        let w := w.dropMsg id
        let line := r.msg.addr % 0x100000 / 64
        let c := w.cohOf h
        let ways := spGet (fun _ => []) c.sf (line % 512)
        match ways.find? fun e => e.line == line with
        | none => w.lateAnswer h
        | some e =>
          let me (s : Sharer) : Bool := s.chip == r.msg.srcChip && s.core == r.msg.srcCore && s.tag == r.msg.fillTag
          if e.broad then w.lateAnswer h
          else match c.recs.find? fun x => x.line == line with
            | some x =>
              if e.sharers.any me then w.countAnswer h x (r.msg.srcChip, r.msg.srcCore) else w.lateAnswer h
            | none =>
              if e.sharers.any me then
                let left := e.sharers.filter fun s => !me s
                if left.isEmpty then w.sfFree h line
                else
                  let ways := ways.map fun x => if x.line = line then { x with sharers := left } else x
                  w.setCoh h { c with sf := spPut (fun _ => []) c.sf (line % 512) ways }
              else w.lateAnswer h
    | _, _ => w

def execEvictNote (msg : Nat) (s : State) : Out := s.onChip (evictNoteAt msg)

/-- INVALIDATION_RECORD_OPEN (R128): the first write or back-invalidation that waits for a record of core `h` takes its
turn. A write joins a record open for its line (R129); one whose line has no entry any more needs none (R121). -/
def invalidationRecordOpen (h : Nat) (w : Chip) : Chip :=
  let c := w.cohOf h
  match c.waiting with
  | [] => w
  | x :: rest =>
    if !w.live || decide (16 ≤ c.recs.length) then w
    else
      let w := w.setCoh h { c with waiting := rest }
      let entry := (spGet (fun _ => []) c.sf (x.line % 512)).any fun e => e.line == x.line
      match x.acc with
      | none => if entry && !(c.recs.any fun r => r.line == x.line) then (w.openRecord h x.line true).1 else w
      | some id =>
        let w := w.setAcc id { w.acc id with recWait := (w.acc id).recWait - 1 }
        match c.recs.find? fun r => r.line == x.line with
        | some r => w.setAcc id { w.acc id with recd := r.tid :: (w.acc id).recd }
        | none =>
          if entry then
            let (w, tid) := w.openRecord h x.line false
            w.setAcc id { w.acc id with recd := tid :: (w.acc id).recd }
          else w.settle id

def execInvalidationRecordOpen (core : Nat) (s : State) : Out := s.onChip (invalidationRecordOpen core)

/-- BROAD_SNOOP_INV (R126): the hub's broadcast unit passes it to the RLCs of its chip; a powered-down core counts as
answered at once. -/
def broadSnoopInv (id : Nat) (w : Chip) : Chip :=
  match w.msgRec? id with
  | none => w
  | some r =>
    if !w.live || r.stage != .hub || r.msg.op != Op.snoopInv then w
    else
      let k := w.nextId
      let ups := (List.range 64).filter fun n => w.coreUp n
      let w := (w.dropMsg id).bumpId
      let w := { w with net := { w.net with bcast := w.net.bcast ++ [⟨k, r.msg, ups⟩] } }
      ups.foldl (fun w n => w.inject .hub (.core n) 0
        { r.msg with srcChip := 255, dstChip := 255, arg := 2, fillTag := r.msg.srcChip, acc := k }) w

def execBroadSnoopInv (msg : Nat) (s : State) : Out := s.onChip (broadSnoopInv msg)

/-- BROADCAST_COMPLETE (R126): all RLCs have answered broadcast `bcast`, and one INV_ACK goes to the home. -/
def broadcastComplete (k : Nat) (w : Chip) : Chip :=
  match w.net.bcast.find? fun b => b.id == k with
  | none => w
  | some b =>
    if !w.live || !b.left.isEmpty then w
    else
      let w := { w with net := { w.net with bcast := w.net.bcast.filter fun b => b.id != k } }
      w.inject .hub (w.towards b.msg.srcChip (.core b.msg.srcCore)) 0
        { b.msg with op := .invAck, dstChip := b.msg.srcChip, srcChip := 255, arg := 1, data := [] }

def execBroadcastComplete (bcast : Nat) (s : State) : Out := s.onChip (broadcastComplete bcast)

/-- SWEEP_COMPLETE (R131): no entry of the swept groups of core `h` remains. -/
def sweepComplete (h : Nat) (w : Chip) : Chip :=
  let c := w.cohOf h
  if w.live && !c.sweep.isEmpty &&
      !((c.sf.flatMap fun p => p.2).any fun e => c.sweep.contains (lmGroup (e.line * 64))) then
    (w.setCoh h { c with sweep := [] }).setFlag (Addr.sfStatus h) F.sfStatus_SWEEP false
  else w

def execSweepComplete (core : Nat) (s : State) : Out := s.onChip (sweepComplete core)

/-- RLC_FLUSH (R120): the write of 1 to RLC_CTRL.FLUSH. -/
def rlcFlush (n : Nat) (w : Chip) : Chip :=
  if !w.runs n then w else (w.setFlag (Addr.rlcCtrl n) F.rlcCtrl_FLUSH true).rlcDropAll n

def execRlcFlush (core : Nat) (s : State) : Out := s.onChip (rlcFlush core)

/-- RLC_DISABLE (R120): the change of RLC_CTRL.ENABLE from 1 to 0. -/
def rlcDisable (n : Nat) (w : Chip) : Chip :=
  if w.runs n && w.flag (Addr.rlcCtrl n) F.rlcCtrl_ENABLE then
    (w.setFlag (Addr.rlcCtrl n) F.rlcCtrl_ENABLE false).rlcDropAll n
  else w

def execRlcDisable (core : Nat) (s : State) : Out := s.onChip (rlcDisable core)

/-- RLC_FLUSH_COMPLETE (R120): every fill pending at the start has arrived and every notice has been sent. -/
def rlcFlushComplete (n : Nat) (w : Chip) : Chip :=
  if w.live && w.flag (Addr.rlcStatus n) F.rlcStatus_FLUSHING && !((w.cohOf n).fills.any fun f => f.flushed) &&
      !(w.net.msgs.any fun p => p.2.stage == .entry && p.2.src == .core n && p.2.msg.op == Op.evictNote) then
    (w.setFlag (Addr.rlcStatus n) F.rlcStatus_FLUSHING false).setFlag (Addr.rlcCtrl n) F.rlcCtrl_FLUSH false
  else w

def execRlcFlushComplete (core : Nat) (s : State) : Out := s.onChip (rlcFlushComplete core)

end Sys2Proof.Machine
end

