-- ==== Sys2Proof/Machine/QueueRegs.lean ====
section
/-! DEFINITION. Queues as their registers give them (11_queue_engine.md): type, entry count and size, indices, bindings. -/

namespace Sys2Proof.Machine

namespace Chip

/-- The TYPE a queue acts as (R293): NONE (0) while CFG_BAD. -/
def qType (w : Chip) (q : Nat) : Nat :=
  if w.flag (Addr.qStatus q) F.qStatus_CFG_BAD then 0
  else
    let t := w.cfg (Addr.qQcfg q) F.qQcfg_TYPE
    if 6 ≤ t then 0 else t

/-- Number of entries N (R295). -/
def qN (w : Chip) (q : Nat) : Nat := 2 ^ w.cfg (Addr.qQcfg q) F.qQcfg_LOG
/-- Entry size in bytes (R295). -/
def qE (w : Chip) (q : Nat) : Nat := 16 * 2 ^ w.cfg (Addr.qQcfg q) F.qQcfg_ESIZE
def qProd (w : Chip) (q : Nat) : Nat := w.fld (Addr.qIndex q) F.qIndex_PROD
def qCons (w : Chip) (q : Nat) : Nat := w.fld (Addr.qIndex q) F.qIndex_CONS
/-- Depth D (R297). -/
def qDepth (w : Chip) (q : Nat) : Nat := (w.qProd q + 2 ^ 32 - w.qCons q) % 2 ^ 32
/-- BIND of a queue (Table QUE-1). -/
def qBind (w : Chip) (q : Nat) : Nat := w.cfg (Addr.qQcfg q) F.qQcfg_BIND
/-- CTRL.HOLD is 1 (R310). -/
def qHeld (w : Chip) (q : Nat) : Bool := w.flag (Addr.qCtrl q) F.qCtrl_HOLD

/-- Queues with a committed descriptor, in rising order. -/
def qListed (w : Chip) : List Nat :=
  (w.committed.filter fun p => decide (0x4000000 ≤ p.1) && decide (p.1 < 0x4100000) && p.1 % 64 == 8).map fun p =>
    (p.1 - 0x4000000) / 64

/-- The queue of a type with a BIND (R294, R350): the lowest-numbered. -/
def qBound? (w : Chip) (type bind : Nat) : Option Nat := w.qListed.find? fun q => w.qType q == type && w.qBind q == bind

/-- The DMA queue of channel `h` of core `n` (R314). -/
def dmaQueue? (w : Chip) (n h : Nat) : Option Nat := w.qBound? 2 (n + h * 64)
/-- The EVENT queue of target `t` (R350). -/
def evQueue? (w : Chip) (t : Nat) : Option Nat := w.qBound? 3 t

/-- The host port has no write in progress that a later access of it would pass (R303, R521). -/
def portClear (w : Chip) (qspi : Bool) : Bool := w.io.hostReqs.all fun p => p.2.qspi != qspi || !p.2.write

/-- A doorbell write of `p` comes in its turn: the earlier writes of a host port to LM are complete (R303). -/
def doorbellTurn (w : Chip) : WritePort → Bool
  | .pcie => w.portClear false
  | .qspi => w.portClear true
  | _ => true

end Chip

end Sys2Proof.Machine
end

