-- ==== Sys2Proof/Machine/Counters.lean ====
section
/-! DEFINITION. What waits are waits for (10_synchronisation.md): counter comparisons, barrier phases and generations,
the wait limit; the freeze of the chip (R588) and the errors of chip-block RAMs (R593). -/

namespace Sys2Proof.Machine

/-- 2^48, the range of a sync counter (R258). -/
def cnt48 : Nat := 2 ^ 48

/-- Whether a counter value satisfies a target under its mode (R260). -/
def satisfied (wrap : Bool) (v t : Nat) : Bool :=
  if wrap then decide ((v + cnt48 - t % cnt48) % cnt48 < 2 ^ 47) else decide (t % cnt48 ≤ v)

/-- A counter after an add (R259): its value and whether it saturated. -/
def addCount (wrap : Bool) (v a : Nat) : Nat × Bool :=
  if wrap then ((v + a) % cnt48, false)
  else if cnt48 ≤ v + a then (cnt48 - 1, true) else (v + a, false)

namespace Chip

/-! ## Freeze and chip-block RAMs -/

/-- The chip freezes (R588): FROZEN is set, READY is cleared, and the snapshot is due. -/
def freeze (w : Chip) (cause : Nat) : Chip :=
  if w.frozen then w
  else
    let w := (w.setFlag Addr.wdStatus F.wdStatus_FROZEN true).setFlag Addr.stwStatus F.stwStatus_READY false
    { w with wd := { w.wd with cause := cause, frozenAt := w.time, snapped := false } }

/-- CHIP_ECC_LOG captures an error while its VALID is 0 (R593), which the steward observes (Table FLT-5). -/
def chipEccLog (w : Chip) (ram word kind : Nat) : Chip :=
  let a := Addr.chipEccLog
  if w.flag a F.chipEccLog_VALID then w
  else
    let w := (((w.setFld a F.chipEccLog_RAM ram).setFld a F.chipEccLog_KIND kind).setFlag a F.chipEccLog_VALID true).setFld
      a F.chipEccLog_WORD word
    w.notice { kind := 4, code := kind, time := w.time, data := toLE 4 (w.rd a) }

/-- What a chip-block RAM word with errors does to the operation that uses it (R593). -/
inductive RamWord where
  | good                    -- the operation goes on with the right word
  | bad                     -- the chip has frozen and the operation is not performed
  | open_ (v : Nat)         -- the word reads a value the spec leaves open
deriving DecidableEq, Repr

/-- A word of a chip-block RAM is used with `bits` of it in error (R593). With three or more bits in error the outcome is
one of three that the spec leaves open. -/
def chipEcc (w : Chip) (ram word bits : Nat) : Chip × RamWord :=
  let ce (w : Chip) : Chip :=
    ((w.addSat Addr.chipEcc F.chipEcc_CE_COUNT 1).setFlag Addr.chipEcc F.chipEcc_CE true).chipEccLog ram word 1
  let ue (w : Chip) : Chip := ((w.addSat Addr.chipEcc F.chipEcc_UE_COUNT 1).chipEccLog ram word 2).freeze 2
  match bits with
  | 0 => (w, .good)
  | 1 => (ce w, .good)
  | 2 => (ue w, .bad)
  | _ =>
    let k := w.freeNat 32 % 3
    let v := (w.drew).freeNat 64
    let w := w.drewN 2
    match k with
    | 0 => (ue w, .bad)
    | 1 => (ce w, .open_ v)
    | _ => (w, .open_ v)

/-! ## Waits -/

/-- Whether slot `c`'s wait limit had passed at time `t` (R286). -/
def pastLimit (w : Chip) (n c t : Nat) : Bool :=
  let l := w.fld (Addr.ctxWdLimit n c) F.ctxWdLimit_WD_LIMIT
  l != 0 && decide ((w.slot n c).waitStart + l * 1000 < t)

/-- The condition of a slot's wait has become true: the context is woken, unless its limit has already passed (R286,
R287). -/
def condTrue (w : Chip) (n c : Nat) : Chip :=
  let k := w.fld (Addr.ctxSched n c) F.ctxSched_WAIT_KIND
  if (k == 1 || k == 2 || k == 4) && w.pastLimit n c w.time then w
  else w.setSlot n c { w.slot n c with notified := true }

/-- Local counter `k` of core `n` satisfies target `t` (R260, R262). -/
def localSat (w : Chip) (n k t : Nat) : Bool :=
  let a := Addr.ctxLc n (k / 4) (k % 4)
  satisfied (w.flag a F.ctxLc_MODE) (w.fld a F.ctxLc_VALUE) t

/-- Bloom line `l` has completed phase `p` (R276). -/
def bloomSat (w : Chip) (l p : Nat) : Bool := w.fld (Addr.bloomState l) F.bloomState_PHASE != p % 2

/-- Aster barrier `b` has completed generation `g` (R281). -/
def asterSat (w : Chip) (b g : Nat) : Bool :=
  let d := (w.fld (Addr.asterState b) F.asterState_GEN + 65536 - g % 65536) % 65536
  decide (1 ≤ d) && decide (d ≤ 32768)

/-- A context that waits for its COMMAND queue takes its step again (R206): the queue holds an entry, or the slot no longer
waits on a queue bound to it. -/
def takeDue (w : Chip) (n c : Nat) : Bool :=
  let b := Addr.ctxQbind n c
  let q := w.fld b F.ctxQbind_QUEUE
  !(w.flag b F.ctxQbind_BOUND && w.flag b F.ctxQbind_TAKE && w.qType q == 1 && w.qBind q == n + c * 64 && w.qDepth q == 0)

/-- The condition of the wait that slot `c` holds, where the core tests it itself: a local counter (unless the wait met an
image being written, R216), a barrier, descriptors, or an entry of its queue (R206, R215, R240, R243, R252). -/
def waitTrue (w : Chip) (n c : Nat) : Bool :=
  let w0 := w.rd (Addr.ctxWaitArg n c)
  let t := w.rd (Addr.ctxWaitTarget n c)
  match w.fld (Addr.ctxSched n c) F.ctxSched_WAIT_KIND with
  | 1 => !bit w0 39 && !(w.slot n c).heldWait && w.localSat n (bits w0 3 0) t
  | 2 => if bit w0 8 then w.asterSat (bits w0 5 0) t else w.bloomSat (bits w0 2 0) t
  | 4 => (w.slot n c).dmaWait.isEmpty
  | 5 => w.takeDue n c
  | _ => false

/-- Test again the wait of a WAITING slot. -/
def retest (w : Chip) (n c : Nat) : Chip :=
  if w.slotState n c == slWaiting && !(w.slot n c).notified && w.waitTrue n c then w.condTrue n c else w

/-- Test again the waits of every slot of core `n`. -/
def retestCore (w : Chip) (n : Nat) : Chip := [0, 1, 2, 3].foldl (fun w c => w.retest n c) w

/-- Test again the waits of every core. -/
def retestAll (w : Chip) : Chip := (List.range 64).foldl (fun w n => w.retestCore n) w

end Chip

end Sys2Proof.Machine
end

