-- ==== Sys2Proof/Machine/Operands.lean ====
section
/-! DEFINITION. Command words and their operand forms (09_command_reference.md, R227 to R234): the fields of word 0,
indexed operands, pod addresses, and the checks made at issue in the order of R231. -/

namespace Sys2Proof.Machine

/-- A command at issue: its offset and its words (0 for a second word it does not have). -/
structure Cmd where
  cp : Nat
  w0 : Nat
  w1 : Nat
deriving DecidableEq, Repr

/-- Opcodes of two words (Table CMD-2). -/
def twoWords (op : Nat) : Bool :=
  op == 0x08 || op == 0x09 || op == 0x11 || op == 0x20 || op == 0x21 || op == 0x24 || (decide (0x30 ≤ op) && decide (op ≤ 0x34))
    || op == 0x60 || op == 0x70

/-- The opcodes of Table CMD-2. -/
def knownOpcode (op : Nat) : Bool :=
  decide (op ≤ 0x09) || (decide (0x10 ≤ op) && decide (op ≤ 0x15)) || (decide (0x20 ≤ op) && decide (op ≤ 0x26)) ||
  (decide (0x30 ≤ op) && decide (op ≤ 0x34)) || op == 0x40 || op == 0x41 || op == 0x50 || op == 0x51 || op == 0x60 ||
  (decide (0x70 ≤ op) && decide (op ≤ 0x72))

/-- Opcode of a word 0 (Table CMD-1). -/
def opcodeOf (w0 : Nat) : Nat := bits w0 63 56

/-- Every bit of `v` outside the listed ranges is 0 (R229). -/
def onlyBits (v : Nat) (rs : List (Nat × Nat)) : Bool := v == (rs.map fun r => bits v r.1 r.2 * 2 ^ r.2).sum

/-- A check at issue: whether it fails, the fault code, its DETAIL, and the pod address it names. -/
structure Chk where
  bad : Bool
  code : Nat
  detail : Nat := 0
  addr : Nat := 0

/-- Bits that the entry does not define (R229): `ops` are the operand fields of word 0 beside its opcode, CF flags are
given at their bits of [54:51], `ind` says that the entry has an indexed operand (R230). -/
def resvChk (x : Cmd) (ops : List (Nat × Nat)) (ops1 : List (Nat × Nat)) (ind : Bool) : Chk :=
  let i := bit x.w0 55
  { bad := (i && !ind) || !onlyBits x.w0 ([(63, 56), (55, 55)] ++ (if i then [(50, 48)] else []) ++ ops) ||
      !onlyBits x.w1 ops1
    code := 1, detail := 2 }

/-- RANGE (Table CMD-3). -/
def rangeChk (b : Bool) : Chk := { bad := b, code := 1, detail := 3 }
/-- COMBINATION (Table CMD-3). -/
def combChk (b : Bool) : Chk := { bad := b, code := 1, detail := 4 }
/-- SCOPE (Table CMD-3). -/
def scopeChk (b : Bool) : Chk := { bad := b, code := 1, detail := 5 }
/-- ALIGN. -/
def alignChk (b : Bool) (addr : Nat := 0) : Chk := { bad := b, code := 3, addr := addr }
/-- LM_RANGE. -/
def lmChk (b : Bool) (addr : Nat := 0) : Chk := { bad := b, code := 2, addr := addr }
/-- STACK_OVERFLOW. -/
def stackChk (b : Bool) : Chk := { bad := b, code := 6 }

/-- The checks that every command passes first (R231): its successor lies in LM (R228). -/
def nextChk (x : Cmd) : Chk :=
  let op := opcodeOf x.w0
  lmChk (op != 1 && op != 2 && op != 4 && decide (0x100000 ≤ x.cp + (if twoWords op then 16 else 8)))

/-- How a context goes on after a command: at the next command, at an LM offset, or unchanged. -/
inductive Flow where
  | next
  | jump (target : Nat)
  | keep
deriving DecidableEq, Repr

namespace Chip

/-- The value that IND adds to the command's indexed operand (R230). -/
def indexOf (w : Chip) (n c : Nat) (x : Cmd) : Nat := if bit x.w0 55 then w.scratch n c (bits x.w0 50 48) else 0

/-- An indexed operand of `k` bits (R230). -/
def indexed (w : Chip) (n c : Nat) (x : Cmd) (v k : Nat) : Nat := (v + w.indexOf n c x) % 2 ^ k

/-- A pod address lies in this core's own LM (R108). -/
def ownLm (w : Chip) (n a : Nat) : Bool :=
  w.isSelf (a / 2 ^ 32) && decide (a % 2 ^ 32 < 0x4000000) && a % 2 ^ 32 / 0x100000 == n

/-- REMOTE_UNREACHABLE and POWERED_DOWN of a pod address (R36, R37, R111). -/
def reachChk (w : Chip) (a : Nat) : Chk :=
  let f := w.issueFault (a / 2 ^ 32) (a % 2 ^ 32)
  { bad := f != 0, code := f, addr := a }

/-- A pod address outside every LM (R234). -/
def podLmChk (a : Nat) : Chk := lmChk (decide (0x4000000 ≤ a % 2 ^ 32)) a

end Chip

end Sys2Proof.Machine
end

