-- ==== Sys2Proof/Machine/VxFields.lean ====
section
/-! DEFINITION. The fields of a vector command (Table CMD-7), its operands and its step counts (R173, R191, R249). -/

namespace Sys2Proof.Machine

/-- Width of an element type in bytes (Table VEC-1). -/
def vxWidth (t : Nat) : Nat := if t ≤ 1 then 1 else if t ≤ 3 then 2 else 4
namespace VxCmd

def ty (v : VxCmd) : Nat := bits v.w0 10 8
/-- Positions or elements of the command. -/
def length (v : VxCmd) : Nat := bits v.w1 16 0
/-- Channels of a scan. -/
def channels (v : VxCmd) : Nat := 32 * bits v.w0 45 40
/-- OUT of a scan. -/
def out (v : VxCmd) : Nat := bits v.w0 6 4
/-- Conversion to bit-planes. -/
def planes (v : VxCmd) : Bool := v.op == 0x33 && bit v.w0 54
/-- Planes of a conversion. -/
def b (v : VxCmd) : Nat := bits v.w0 43 40
/-- SCALE of a conversion. -/
def scale (v : VxCmd) : Int := signed 16 (bits v.w1 47 32)

/-- Output type. -/
def outTy (v : VxCmd) : Nat :=
  match v.op with
  | 0x31 => bits v.w0 6 4
  | 0x33 => bits v.w0 6 4
  | 0x32 => if v.out = 3 then 3 else v.ty
  | _ => v.ty

/-- Elements per working step (R191, Table VEC-1). -/
def perStep (v : VxCmd) : Nat :=
  match v.op with
  | 0x30 =>
    let op := bits v.w0 5 0
    if op = 0x12 ∨ op = 0x13 then 32 else 128 / vxWidth v.ty
  | 0x31 => 32
  | 0x32 => 32
  | 0x33 => if v.planes then 128 else 128 / max (vxWidth v.ty) (vxWidth v.outTy)
  | _ => if bits v.w0 3 0 = 3 then 32 else 128 / vxWidth v.ty

/-- Elements that the command reads. -/
def count (v : VxCmd) : Nat :=
  match v.op with
  | 0x32 => v.length * v.channels
  | 0x33 => if v.planes then v.length * 4096 else v.length
  | _ => v.length

/-- Working steps (Table VEC-5). -/
def working (v : VxCmd) : Nat :=
  let k := (v.count + v.perStep - 1) / v.perStep
  if v.op = 0x34 then k + 5 else k

/-- Bytes from the destination base that the command may write. -/
def outBytes (v : VxCmd) : Nat :=
  match v.op with
  | 0x32 => if v.out = 2 then 0 else v.count * vxWidth v.outTy
  | 0x33 => if v.planes then v.length * v.b * 512 else v.count * vxWidth v.outTy
  | 0x34 => vxWidth v.ty
  | _ => v.count * vxWidth v.outTy

/-- The selectors of a command. -/
def selA (v : VxCmd) : Nat := bits v.w0 14 12
def selB (v : VxCmd) : Nat := bits v.w0 18 16
def selC (v : VxCmd) : Nat := bits v.w0 22 20
def selD (v : VxCmd) : Nat := bits v.w0 26 24

/-- VX_OP reads no source B: a scalar replaces it, or the operation has one operand (R179, R249). -/
def noB (v : VxCmd) : Bool := bit v.w0 53 || bits v.w0 5 0 == 0x14 || bits v.w0 5 0 == 0x15

/-- Bytes of a scan's carry operands. -/
def carryBytes (v : VxCmd) : Nat := v.channels * vxWidth v.ty

/-- The selectors of the sources that a command streams, each of `count` elements (R249). -/
def sources (v : VxCmd) : List Nat :=
  if v.op = 0x30 then
    [v.selA] ++ (if v.noB then [] else [v.selB]) ++ (if bits v.w0 5 0 = 0x08 then [v.selC] else [])
  else [v.selA]

/-- The selectors that a command uses, each with the bytes of its operand (R249). -/
def uses (v : VxCmd) : List (Nat × Nat) :=
  (v.sources.map fun s => (s, v.count * vxWidth v.ty)) ++
  (if v.op = 0x32 then [(v.selB, v.carryBytes), (v.selC, v.carryBytes)] else []) ++
  (if v.op = 0x32 ∧ v.out = 2 then [] else [(v.selD, v.outBytes)])

/-- The selectors that a command does not use (R249). -/
def unused (v : VxCmd) : List Nat :=
  match v.op with
  | 0x30 => (if v.noB then [v.selB] else []) ++ (if bits v.w0 5 0 = 0x08 then [] else [v.selC])
  | 0x32 => if v.out = 2 then [v.selD] else []
  | _ => [v.selB, v.selC]

end VxCmd

/-- A command record with no streams, from its words. -/
def vxBlank (c cp w0 w1 : Nat) : VxCmd :=
  { op := bits w0 63 56, slot := c, cp := cp, w0 := w0, w1 := w1, steps := 0, ins := [], dst := 0 }

end Sys2Proof.Machine
end

