-- ==== Sys2Proof/Machine/Sequencer.lean ====
section
/-! DEFINITION. The sequencer (08_sequencer_and_contexts.md, 09_command_reference.md): readiness and
choice, issue, the control commands, faults at their boundary, deadlines, and the slot operations. -/

namespace Sys2Proof.Machine

namespace Chip

/-! ## Readiness (R201 to R203) -/

/-- A run of bytes lies wholly in core `n`'s own LM (R108). -/
def wholeOwn (w : Chip) (n a len : Nat) : Bool := w.ownLm n a && decide (a % 0x100000 + len ≤ 0x100000)

/-- Whether the next command of slot `c` would issue a remote request (R626): a vector command with an operand it uses that is not
wholly in the own LM; a signal but to an own local counter; the registration of a wait; an arrival; a queue, descriptor or event
operation. -/
def needsRemote (w : Chip) (n c w0 w1 : Nat) : Bool :=
  let op := opcodeOf w0
  if decide (0x30 ≤ op) && decide (op ≤ 0x34) then
    (vxBlank c 0 w0 w1).uses.any fun u => !w.wholeOwn n (w.scratch n c u.1 % 2 ^ 40) u.2
  else if op = 0x10 then bit w0 39 || !w.isSelf (bits w0 47 40) || bits w0 37 32 != n
  else if op = 0x11 then bit w0 39
  else op == 0x13 || op == 0x14 || op == 0x40 || op == 0x50 || op == 0x51 || op == 0x60

/-- The BLOCK code of an ACTIVE slot (Table SEQ-2), YIELD apart. A command whose second word would lie past LM waits for no
fetch: it faults at issue (R228). -/
def blockBase (w : Chip) (n c : Nat) : Nat :=
  let s := w.slot n c
  let p := w.cp n c
  if s.pend.isSome || s.taking.isSome || w.flag (Addr.ctxQbind n c) F.ctxQbind_TAKE && w.flag (Addr.ctxQbind n c) F.ctxQbind_BOUND then 1
  else if (match w.vxOf n with | some v => v.slot == c | none => false) then 3
  else if s.fence.isSome then 4
  else if p % 8 != 0 then 0
  else match w.wordAt n c p with
    | none => 1
    | some w0 =>
      let op := opcodeOf w0
      if twoWords op && decide (p + 8 < 0x100000) && (w.wordAt n c (p + 8)).isNone then 1
      else if 0x20 ≤ op ∧ op ≤ 0x25 ∧ 8 ≤ (w.mxOf n).queue.length then 2
      else if 0x30 ≤ op ∧ op ≤ 0x34 ∧ (w.vxOf n).isSome then 3
      else if 32 ≤ w.outstanding n && w.needsRemote n c w0 ((w.wordAt n c (p + 8)).getD 0) then 5
      else 0

/-- Ready but for a YIELD. -/
def readyBase (w : Chip) (n c : Nat) : Bool :=
  let s := w.slot n c
  w.runs n && w.slotState n c == slActive && s.frame.isNone && s.quiesce == .no && s.faults.isEmpty && w.blockBase n c == 0

/-- The slot is held by a YIELD (R203). -/
def yielding (w : Chip) (n c : Nat) : Bool := (w.slot n c).yieldFor.isSome

/-- The candidates of the present step: the ready slots; where every one of them is held by a YIELD, all of them. -/
def candidates (w : Chip) (n : Nat) : List Nat :=
  let r := [0, 1, 2, 3].filter fun c => w.readyBase n c
  let f := r.filter fun c => !w.yielding n c
  if f.isEmpty then r else f

/-- The slot that issues next (R200, R202): of the highest priority present, the first after the last issuer. A frozen
chip issues no command (R588), nor does a core whose power-down has begun (R564). -/
def chosen (w : Chip) (n : Nat) : Option Nat :=
  if w.frozen || w.goingDown.contains n then none else
  let cs := w.candidates n
  let hi := cs.filter fun c => w.flag (Addr.ctxSched n c) F.ctxSched_PRIORITY
  let pool := if hi.isEmpty then cs else hi
  let l := w.fld (Addr.seqStatus n) F.seqStatus_LAST
  [(l + 1) % 4, (l + 2) % 4, (l + 3) % 4, l].find? fun c => pool.contains c

/-- The BLOCK field (Table SEQ-2). A slot that a YIELD holds is ready where the YIELDs are released (R203). -/
def blockCode (w : Chip) (n c : Nat) : Nat :=
  if w.slotState n c != slActive then 0
  else
    let b := w.blockBase n c
    if b != 0 then b else if w.yielding n c && !(w.candidates n).contains c then 6 else 0

/-! ## Issue -/

/-- Where every slot that is otherwise ready is held by a YIELD, all of them are released together (R203). -/
def releaseYields (w : Chip) (n : Nat) : Chip :=
  let r := [0, 1, 2, 3].filter fun c => w.readyBase n c
  if r.all fun c => w.yielding n c then
    r.foldl (fun (w : Chip) c => w.setSlot n c { w.slot n c with yieldFor := none }) w
  else w

/-- A command has issued: LAST, the counters, and the YIELDs that waited for it (R200, R203). -/
def issued (w : Chip) (n c : Nat) : Chip :=
  let w := (w.releaseYields n).setFld (Addr.seqStatus n) F.seqStatus_LAST c
  let w := (w.addWrap (Addr.ctxIssued n c) F.ctxIssued_ISSUED 1).addWrap (Addr.seqSteps n) F.seqSteps_COUNT 1
  let w := w.setSlot n c { w.slot n c with yieldFor := none }
  [0, 1, 2, 3].foldl (fun (w : Chip) k =>
    let s := w.slot n k
    match s.yieldFor with
    | some l =>
      let l := l.filter fun x => x != c
      w.setSlot n k { s with yieldFor := if l.isEmpty then none else some l }
    | none => w) w

/-- A fault of the command being issued (R221): CP names it, and it has no effect. -/
def syncFault (w : Chip) (n c : Nat) (x : Cmd) (k : Chk) : Chip :=
  w.raiseFault n c { code := k.code, unit := 0, detail := k.detail, srcCp := x.cp, word0 := x.w0, word1 := x.w1,
                     addr := k.addr, time := w.time } 0 false

/-- The command that slot `c` of core `n` issues in this step, if the slot is the one chosen and its next command has opcode
`op`. -/
def issuing (w : Chip) (n c op : Nat) : Option Cmd :=
  if w.chosen n != some c then none
  else
    let p := w.cp n c
    match w.wordAt n c p with
    | none => none
    | some w0 =>
      if p % 8 != 0 || opcodeOf w0 != op then none
      else some ⟨p, w0, if twoWords op then (w.wordAt n c (p + 8)).getD 0 else 0⟩

/-- Issue the next command of slot `c` of core `n`, if the slot is the one chosen and its next command has opcode `op`:
the first failing check faults (R231); otherwise `go` has the command's effect and says how the context goes on. -/
def issue (w : Chip) (n c op : Nat) (checks : Chip → Cmd → List Chk) (go : Chip → Cmd → Chip × Flow) : Chip :=
  match w.issuing n c op with
  | none => w
  | some x =>
    match (nextChk x :: checks w x).find? fun k => k.bad with
    | some k => w.syncFault n c x k
    | none =>
      let (w, f) := go (w.issued n c) x
      match f with
      | .next => ((w.setCp n c ((x.cp + (if twoWords op then 16 else 8)) % 2 ^ 20)).trimFetch n c).fetchDue n c
      | .jump t => w.redirect n c t
      | .keep => w

/-- The record of an operation that fences and the quiesce wait for (R137, R212). -/
def outOp (w : Chip) (n c id chip : Nat) (own : Bool) (x : Cmd) (dmaPost : Bool := false) (fenced : Bool := true) : Chip :=
  let s := w.slot n c
  w.setSlot n c { s with outs := s.outs ++
    [{ id := id, chip := chip, own := own, srcCp := x.cp, word0 := x.w0, word1 := x.w1, dmaPost := dmaPost, fenced := fenced }] }

/-- The context stream of slot `c` (R135). -/
def ctxStream (n c : Nat) : Nat := 1 + n * 4 + c

/-! ## Waits -/

/-- A waiting command deschedules its context (Table CMD-2): WAIT_ARG holds its word 0, WAIT_TARGET its target. -/
def enterWait (w : Chip) (n c kind target : Nat) (x : Cmd) : Chip :=
  let w := (w.setSlotState n c slWaiting).setFld (Addr.ctxSched n c) F.ctxSched_WAIT_KIND kind
  let w := (w.setReg (Addr.ctxWaitArg n c) x.w0).setReg (Addr.ctxWaitTarget n c) target
  w.setSlot n c { w.slot n c with waitStart := w.time, notified := false, resend := none,
                                  waitWords := if twoWords (opcodeOf x.w0) then 2 else 1, waitW1 := x.w1,
                                  heldWait := false }

/-- A wait's condition has become true: the context is ready again (R205), and the time waited is sampled. -/
def wake (w : Chip) (n c : Nat) : Chip :=
  let k := w.waitKind n c
  let s := w.slot n c
  let w := if k = 1 ∨ k = 2 then
    w.irisSample 0x0B (fun sel => bits sel 5 0 == n && bit sel (16 + c)) ((w.time - s.waitStart : Nat) : Int) else w
  let w := (w.setSlotState n c slActive).setFld (Addr.ctxSched n c) F.ctxSched_WAIT_KIND 0
  (w.setSlot n c { w.slot n c with notified := false, resend := none, mxWait := [], dmaWait := [] }).fetchDue n c

/-- A slot that can be woken: WAITING, with no fault being taken and no quiesce. -/
def waitingIn (w : Chip) (n c kind : Nat) : Bool :=
  w.runs n && w.slotState n c == slWaiting && w.waitKind n c == kind && (w.slot n c).frame.isNone &&
    (w.slot n c).quiesce == .no && (w.slot n c).faults.isEmpty

end Chip

open Chip

/-- COMMAND_FETCH_COMPLETE (R204): the stripe in flight has arrived. A fetch that met a double-bit error faults its
context (Table MEM-6). -/
def commandFetchComplete (n c : Nat) (w : Chip) : Chip :=
  let s := w.slot n c
  match s.fetch with
  | none => w
  | some id =>
    let a := w.acc id
    if !w.runs n || !a.done then w
    else
      let w := w.dropAcc id
      if a.fault != 0 then
        (w.setSlot n c { s with fetch := none }).postFault n c
          { code := a.fault, unit := 0, srcCp := w.cp n c, addr := 255 * 2 ^ 32 + a.addr }
      else
        let p := w.cp n c
        let s' := if s.fbuf.isEmpty then { s with fetch := none, fbuf := a.data.drop (p - s.fetchOff), fbase := max p s.fetchOff }
          else { s with fetch := none, fbuf := s.fbuf ++ a.data }
        (w.setSlot n c s').fetchDue n c

def execCommandFetchComplete (core slot : Nat) (s : State) : Out := s.onChip (commandFetchComplete core slot)

/-- MISALIGNED_CP (R227): ALIGN, before any check of R231. -/
def misalignedCp (n c : Nat) (w : Chip) : Chip :=
  if w.chosen n = some c && w.cp n c % 8 != 0 then w.syncFault n c ⟨w.cp n c, 0, 0⟩ (alignChk true) else w

def execMisalignedCp (core slot : Nat) (s : State) : Out := s.onChip (misalignedCp core slot)

/-- UNKNOWN_OPCODE (R229): ILLEGAL_CMD as a one-word command. -/
def unknownOpcode (n c : Nat) (w : Chip) : Chip :=
  match w.wordAt n c (w.cp n c) with
  | none => w
  | some w0 =>
    if knownOpcode (opcodeOf w0) then w
    else w.issue n c (opcodeOf w0) (fun _ _ => [{ bad := true, code := 1, detail := 1 }]) (fun w _ => (w, .keep))

def execUnknownOpcode (core slot : Nat) (s : State) : Out := s.onChip (unknownOpcode core slot)

/-! ## Control commands (R233 to R238) -/

/-- NOP. -/
def nopCmd (n c : Nat) (w : Chip) : Chip := w.issue n c 0x00 (fun _ x => [resvChk x [] [] false]) fun w _ => (w, .next)
def execNop (core slot : Nat) (s : State) : Out := s.onChip (nopCmd core slot)

/-- JUMP (R235). -/
def jumpCmd (n c : Nat) (w : Chip) : Chip :=
  w.issue n c 0x02
    (fun w x => [resvChk x [(19, 0)] [] true, alignChk (w.indexed n c x (bits x.w0 19 0) 20 % 8 != 0)])
    fun w x => (w, .jump (w.indexed n c x (bits x.w0 19 0) 20))
def execJump (core slot : Nat) (s : State) : Out := s.onChip (jumpCmd core slot)

/-- CSP, CSP_LIMIT and CSP_TOP of a slot. -/
def Chip.csp (w : Chip) (n c : Nat) : Nat := w.fld (Addr.ctxCstack n c) F.ctxCstack_CSP

/-- CALL (R235, R210). The entry is written as 8 bytes from CSP − 8 as it stands: the spec says nothing of a CSP that is not
aligned to 8, nor of an entry that runs past the end of LM (log entry 69). -/
def callCmd (n c : Nat) (w : Chip) : Chip :=
  w.issue n c 0x03
    (fun w x => [resvChk x [(19, 0)] [] true, alignChk (w.indexed n c x (bits x.w0 19 0) 20 % 8 != 0),
      stackChk (decide (w.csp n c < w.fld (Addr.ctxCstack n c) F.ctxCstack_CSP_LIMIT + 8))])
    fun w x =>
      let sp := w.csp n c - 8
      let id := w.nextId
      let t := w.indexed n c x (bits x.w0 19 0) 20
      let w := w.localAcc (.seqStore n c) n n 1 .wr sp 8 (toLE 8 (x.cp + 8)) (ctxStream n c)
      let w := w.outOp n c id 255 true x
      (w.setFld (Addr.ctxCstack n c) F.ctxCstack_CSP sp, .jump t)
def execCall (core slot : Nat) (s : State) : Out := s.onChip (callCmd core slot)

/-- RET starts the read of the return offset (R235, R210), 8 bytes from CSP as it stands (log entry 69). -/
def retCmd (n c : Nat) (w : Chip) : Chip :=
  w.issue n c 0x04
    (fun w x => [resvChk x [] [] false, stackChk (w.csp n c == w.fld (Addr.ctxCstack n c) F.ctxCstack_CSP_TOP)])
    fun w _ =>
      let id := w.nextId
      let w := (w.dropFetch n c).localAcc (.retOff n c) n n 1 .rd (w.csp n c) 8 [] (ctxStream n c)
      (w.setSlot n c { w.slot n c with pend := some id }, .keep)
def execRet (core slot : Nat) (s : State) : Out := s.onChip (retCmd core slot)

/-- RET_OFFSET_READ (R235): CSP rises and CP is set; an offset with bits [2:0] not 0 faults ALIGN and CSP keeps its
value. -/
def retOffsetRead (n c : Nat) (w : Chip) : Chip :=
  let s := w.slot n c
  match s.pend with
  | none => w
  | some id =>
    let a := w.acc id
    if !w.runs n || a.owner != .retOff n c || !a.done then w
    else
      let w := (w.dropAcc id).setSlot n c { s with pend := none }
      let x : Cmd := ⟨w.cp n c, 0x04 * 2 ^ 56, 0⟩
      let v := leNat a.data
      if a.fault != 0 then
        w.syncFault n c x { bad := true, code := a.fault, addr := 255 * 2 ^ 32 + a.addr }
      else if v % 8 != 0 then w.syncFault n c x (alignChk true)
      else (w.setFld (Addr.ctxCstack n c) F.ctxCstack_CSP ((w.csp n c + 8) % 2 ^ 20)).redirect n c (v % 2 ^ 20)
def execRetOffsetRead (core slot : Nat) (s : State) : Out := s.onChip (retOffsetRead core slot)

/-- Loop levels in use. -/
def Chip.loopDepth (w : Chip) (n c : Nat) : Nat := w.fld (Addr.ctxSched n c) F.ctxSched_LOOP_DEPTH

/-- LOOP (R236). -/
def loopCmd (n c : Nat) (w : Chip) : Chip :=
  let count (w : Chip) (x : Cmd) : Nat := w.indexed n c x (bits x.w0 47 20) 32
  w.issue n c 0x05
    (fun w x => [resvChk x [(19, 0), (47, 20)] [] true, alignChk (bits x.w0 19 0 % 8 != 0),
      stackChk (count w x != 0 && w.loopDepth n c == 4)])
    fun w x =>
      let k := count w x
      if k = 0 then (w, .jump (bits x.w0 19 0))
      else
        let d := w.loopDepth n c
        ((w.setReg (Addr.ctxLoop n c d) (x.cp + 8 + k * 2 ^ 32)).setFld (Addr.ctxSched n c) F.ctxSched_LOOP_DEPTH (d + 1), .next)
def execLoop (core slot : Nat) (s : State) : Out := s.onChip (loopCmd core slot)

/-- ENDLOOP (R236). -/
def endloopCmd (n c : Nat) (w : Chip) : Chip :=
  w.issue n c 0x06 (fun w x => [resvChk x [] [] false, stackChk (w.loopDepth n c == 0)])
    fun w x =>
      let d := w.loopDepth n c - 1
      let a := Addr.ctxLoop n c d
      let k := (w.fld a F.ctxLoop_COUNT + 2 ^ 32 - 1) % 2 ^ 32
      let w := w.setFld a F.ctxLoop_COUNT k
      if k != 0 then (w, .jump (w.fld a F.ctxLoop_START))
      else (w.setFld (Addr.ctxSched n c) F.ctxSched_LOOP_DEPTH d, .jump (x.cp + 8))
def execEndloop (core slot : Nat) (s : State) : Out := s.onChip (endloopCmd core slot)

/-- YIELD (R203): held until each other slot that was ready, and not held itself, has issued once. -/
def yieldCmd (n c : Nat) (w : Chip) : Chip :=
  let w1 := w.releaseYields n
  let others := [0, 1, 2, 3].filter fun k => k != c && w1.readyBase n k && !w1.yielding n k
  w.issue n c 0x07 (fun _ x => [resvChk x [] [] false])
    fun w _ => (w.setSlot n c { w.slot n c with yieldFor := if others.isEmpty then none else some others }, .next)
def execYield (core slot : Nat) (s : State) : Out := s.onChip (yieldCmd core slot)

/-- SETREG (R237). -/
def setregCmd (n c : Nat) (w : Chip) : Chip :=
  let mode (x : Cmd) : Nat := bits x.w0 6 4
  let addr (w : Chip) (x : Cmd) : Nat := w.indexed n c x (bits x.w1 19 0) 20
  w.issue n c 0x08
    (fun w x =>
      let ls := mode x == 4 || mode x == 5
      [resvChk x ([(2, 0), (6, 4)] ++ (if mode x = 2 then [(10, 8)] else []))
          (if ls then [(19, 0)] else if mode x = 2 then [] else [(63, 0)]) ls,
       rangeChk (decide (6 ≤ mode x)),
       alignChk (ls && addr w x % 8 != 0)])
    fun w x =>
      let d := bits x.w0 2 0
      match mode x with
      | 0 => (w.setScratch n c d x.w1, .next)
      | 1 => (w.setScratch n c d (w.scratch n c d + x.w1), .next)
      | 2 => (w.setScratch n c d (w.scratch n c (bits x.w0 10 8)), .next)
      | 3 => (w.setScratch n c d (Nat.land (w.scratch n c d) x.w1), .next)
      | 4 =>
        let id := w.nextId
        let w := w.localAcc (.srLoad n c) n n 1 .rd (addr w x) 8 [] (ctxStream n c)
        (w.setSlot n c { w.slot n c with pend := some id }, .keep)
      | _ =>
        let id := w.nextId
        let w := w.localAcc (.seqStore n c) n n 1 .wr (addr w x) 8 (toLE 8 (w.scratch n c d)) (ctxStream n c)
        (w.outOp n c id 255 true x, .next)
def execSetreg (core slot : Nat) (s : State) : Out := s.onChip (setregCmd core slot)

/-- SETREG_LOAD_DATA (R237): the data of the LOAD at CP arrives and is written to its scratch value. -/
def setregLoadData (n c : Nat) (w : Chip) : Chip :=
  let s := w.slot n c
  match s.pend with
  | none => w
  | some id =>
    let a := w.acc id
    if !w.runs n || a.owner != .srLoad n c || !a.done then w
    else
      let p := w.cp n c
      let w0 := (w.wordAt n c p).getD 0
      let w1 := (w.wordAt n c (p + 8)).getD 0
      let w := (w.dropAcc id).setSlot n c { s with pend := none }
      if a.fault != 0 then
        w.syncFault n c ⟨p, w0, w1⟩ { bad := true, code := a.fault, addr := 255 * 2 ^ 32 + a.addr }
      else
        (((w.setScratch n c (bits w0 2 0) (leNat a.data)).setCp n c ((p + 16) % 2 ^ 20)).trimFetch n c).fetchDue n c
def execSetregLoadData (core slot : Nat) (s : State) : Out := s.onChip (setregLoadData core slot)

/-- COND of BRANCH_IF between two 64-bit values (Table CMD-4). -/
def condHolds (k a b : Nat) : Bool :=
  match k with
  | 0 => a == b
  | 1 => a != b
  | 2 => decide (signed 64 a < signed 64 b)
  | 3 => decide (signed 64 b ≤ signed 64 a)
  | 4 => decide (a < b)
  | 5 => decide (b ≤ a)
  | 6 => Nat.land a b != 0
  | _ => Nat.land a b == 0

/-- BRANCH_IF (R238). -/
def branchIfCmd (n c : Nat) (w : Chip) : Chip :=
  w.issue n c 0x09
    (fun _ x => [resvChk x [(19, 0), (22, 20), (27, 24)] [(63, 0)] false, rangeChk (decide (8 ≤ bits x.w0 27 24)),
      alignChk (bits x.w0 19 0 % 8 != 0)])
    fun w x => (w, if condHolds (bits x.w0 27 24) (w.scratch n c (bits x.w0 22 20)) x.w1 then .jump (bits x.w0 19 0) else .next)
def execBranchIf (core slot : Nat) (s : State) : Out := s.onChip (branchIfCmd core slot)

/-- FENCE (R241, R137): the operations of its scope that are not complete (Table COH-3). -/
def fenceCmd (n c : Nat) (w : Chip) : Chip :=
  w.issue n c 0x12 (fun _ x => [resvChk x [(1, 0)] [] false, rangeChk (bits x.w0 1 0 == 3)])
    fun w x =>
      let sc := bits x.w0 1 0
      let s := w.slot n c
      let ids := (s.outs.filter fun o => o.fenced && (if sc = 0 then o.own else if sc = 1 then o.chip == 255 else true)).map
        fun o => o.id
      if ids.isEmpty then (w, .next)
      else (w.setSlot n c { s with fence := some ids, waitStart := w.time, fenceW0 := x.w0, fenceDone := none }, .next)
def execFence (core slot : Nat) (s : State) : Out := s.onChip (fenceCmd core slot)

/-- FENCE_COMPLETE (R137). -/
def fenceComplete (n c : Nat) (w : Chip) : Chip :=
  let s := w.slot n c
  match s.fence with
  | none => w
  | some ids =>
    if w.runs n && ids.all (fun i => s.outs.all fun o => o.id != i) && !w.pastLimit n c (s.fenceDone.getD 0) then (w.setSlot n c { s with fence := none }).fetchDue n c
    else w
def execFenceComplete (core slot : Nat) (s : State) : Out := s.onChip (fenceComplete core slot)

/-- TIMESTAMP (R257). -/
def timestampCmd (n c : Nat) (w : Chip) : Chip :=
  w.issue n c 0x72 (fun _ x => [resvChk x [(2, 0)] [] false])
    fun w x => (w.setScratch n c (bits x.w0 2 0) w.time, .next)
def execTimestamp (core slot : Nat) (s : State) : Out := s.onChip (timestampCmd core slot)

/-! ## Deadlines (R217 to R220, R256) -/

namespace Chip

def dlArmed (w : Chip) (n c : Nat) : Bool := w.flag (Addr.ctxSched n c) F.ctxSched_DL_ARMED
def dlMissed (w : Chip) (n c : Nat) : Bool := w.flag (Addr.ctxSched n c) F.ctxSched_DL_MISSED
def deadline (w : Chip) (n c : Nat) : Nat := w.rd (Addr.ctxDeadline n c)
/-- The context's policy is ABORT. -/
def dlAbort (w : Chip) (n c : Nat) : Bool := w.flag (Addr.ctxSched n c) F.ctxSched_POLICY

/-- The slack probe (DEADLINE_SLACK of Table FLT-1). -/
def slackSample (w : Chip) (n c : Nat) (v : Int) : Chip :=
  w.irisSample 0x06 (fun sel => bits sel 5 0 == n && bit sel (16 + c)) v

/-- The miss of slot `c`'s deadline (R217, R225): DL_MISSED, the time of its detection, and its source with its payload, which
is high only while the slot is ACTIVE or WAITING. -/
def missed (w : Chip) (n c : Nat) : Chip :=
  let high := w.slotState n c == slActive || w.slotState n c == slWaiting
  ((w.setFlag (Addr.ctxSched n c) F.ctxSched_DL_MISSED true).setSlot n c { w.slot n c with
    missHigh := high, missAt := some w.time }).setPayload (n * 16 + 4 + c) (7 + w.ctxId n c * 65536)

/-- Raise DEADLINE_MISS (R219, R220, R578): OVERRUN is the timebase minus DEADLINE; LAST_OVERRUN receives it and DL_ARMED
clears. TIME is that of the detection (Table SEQ-6). -/
def raiseMiss (w : Chip) (n c : Nat) (x : Cmd) (goOn : Bool) : Chip :=
  let ov := w.time - w.deadline n c
  let w := (w.setReg (Addr.ctxLastOverrun n c) ov).setFlag (Addr.ctxSched n c) F.ctxSched_DL_ARMED false
  (w.slackSample n c (-(ov : Int))).raiseFault n c
    { code := 7, unit := 5, srcCp := x.cp, word0 := x.w0, word1 := x.w1, time := ((w.slot n c).missAt).getD w.time } ov goOn

/-- Raise DEADLINE_MISS where no command is being issued (R219, R220): the frame names the next command, with its words where
the fetch buffer holds them; of words that are not fetched it holds what the spec leaves open (log entry 70). -/
def raiseMissAtCp (w : Chip) (n c : Nat) (goOn : Bool) : Chip :=
  let p := w.cp n c
  let a := w.freeNat 64
  let b := w.drew.freeNat 64
  match w.wordAt n c p with
  | some w0 => (w.drewN 2).raiseMiss n c ⟨p, w0, if twoWords (opcodeOf w0) then (w.wordAt n c (p + 8)).getD b else 0⟩ goOn
  | none => (w.drewN 2).raiseMiss n c ⟨p, a, b⟩ goOn

/-- A context under CONTINUE has a miss not yet raised, at a point that raises it: detected, or passed at this very
moment under the comparison of R577. -/
def missPending (w : Chip) (n c : Nat) : Bool :=
  w.dlArmed n c && !w.dlAbort n c && (w.dlMissed n c || decide (w.deadline n c < w.time))

/-- A context under ABORT has a miss that is detected and not yet raised (R220). -/
def abortPending (w : Chip) (n c : Nat) : Bool := w.dlArmed n c && w.dlAbort n c && w.dlMissed n c

/-- Matrix commands of a context that have not started are discarded (R169), or those later than a command that failed
(R166). -/
def mxDiscard (w : Chip) (n c id : Nat) (after : Option Nat := none) : Chip :=
  let x := w.mxOf n
  w.setMx n { x with queue := x.queue.filter fun q =>
    !(q.slot == c && q.ctxId == id && (match after with | some k => decide (k < q.id) | none => true)) }

/-- A miss under ABORT (R220, R169): queued matrix commands are discarded, issue stops, and the slot is quiesced. The quiesce of
a STOP or SAVE in progress carries the miss. -/
def startAbort (w : Chip) (n c : Nat) : Chip :=
  let w := (w.missed n c).mxDiscard n c (w.ctxId n c)
  if (w.slot n c).quiesce == .no then
    let w := w.leaveWait n c
    w.setSlot n c { w.slot n c with quiesce := .abort }
  else w

end Chip

/-- DEADLINE_MISS (R217, R577): detection of a miss, in every state but EMPTY; one that comes while the image is being written is
detected at the restore. -/
def deadlineMiss (n c : Nat) (w : Chip) : Chip :=
  if w.runs n && w.slotState n c != slEmpty && (w.slot n c).quiesce != .write && w.dlArmed n c && !w.dlMissed n c &&
      decide (w.deadline n c < w.time) then
    if w.dlAbort n c then w.startAbort n c else w.missed n c
  else w
def execDeadlineMiss (core slot : Nat) (s : State) : Out := s.onChip (deadlineMiss core slot)

/-- Issue a command that raises a pending miss under CONTINUE first (R219): the frame is pushed, and the command is issued once
it is written, so that a frame which cannot be pushed leaves it unexecuted (R222). -/
def Chip.issueMiss (w : Chip) (n c op : Nat) (chk : Chip → Cmd → List Chk) (go : Chip → Cmd → Chip × Flow) : Chip :=
  match w.issuing n c op with
  | none => w
  | some x =>
    if w.missPending n c && (nextChk x :: chk w x).all (fun k => !k.bad) then w.raiseMiss n c x true
    else w.issue n c op chk go

/-- A deadline command (R256): a late one under ABORT does not execute, and the miss stops issue before it; under
CONTINUE a pending miss is raised first. `go` sets the new state of the deadline, and the deadline source falls (R225). -/
def Chip.deadlineCmd (w : Chip) (n c op : Nat) (chk : Chip → Cmd → List Chk) (go : Chip → Cmd → Chip) : Chip :=
  let late := w.dlArmed n c && decide (w.deadline n c < w.time)
  let onTime := w.dlArmed n c && !late && !w.dlMissed n c
  let d := w.deadline n c
  if w.dlAbort n c && late && (w.issuing n c op).isSome then w.startAbort n c
  else w.issueMiss n c op chk fun w x =>
    let w := if onTime then w.slackSample n c ((d : Int) - (w.time : Int)) else w
    (go (w.setSlot n c { w.slot n c with missHigh := false, missAt := none }) x, .next)

/-- DEADLINE_SET (R256, R577). -/
def deadlineSetCmd (n c : Nat) (w : Chip) : Chip :=
  w.deadlineCmd n c 0x70 (fun _ x => [resvChk x [(54, 54)] [(63, 0)] true]) fun w x =>
    let d := (x.w1 + w.indexOf n c x + (if bit x.w0 54 then w.time else 0)) % 2 ^ 64
    let w := (w.setReg (Addr.ctxDeadline n c) d).setFlag (Addr.ctxSched n c) F.ctxSched_DL_ARMED true
    w.setFlag (Addr.ctxSched n c) F.ctxSched_DL_MISSED false
def execDeadlineSet (core slot : Nat) (s : State) : Out := s.onChip (deadlineSetCmd core slot)

/-- DEADLINE_CLEAR (R256, R577). -/
def deadlineClearCmd (n c : Nat) (w : Chip) : Chip :=
  w.deadlineCmd n c 0x71 (fun _ x => [resvChk x [] [] false]) fun w _ =>
    (w.setFlag (Addr.ctxSched n c) F.ctxSched_DL_ARMED false).setFlag (Addr.ctxSched n c) F.ctxSched_DL_MISSED false
def execDeadlineClear (core slot : Nat) (s : State) : Out := s.onChip (deadlineClearCmd core slot)

/-- END (R206, R207, R219): a pending CONTINUE miss is raised first; a bound context takes an entry next; another one stops. CP
stays at the END, which has no successor (R228). -/
def endCmd (n c : Nat) (w : Chip) : Chip :=
  w.issueMiss n c 0x01 (fun _ x => [resvChk x [] [] false]) fun w _ =>
    if w.flag (Addr.ctxQbind n c) F.ctxQbind_BOUND then
      ((w.dropFetch n c).setFlag (Addr.ctxQbind n c) F.ctxQbind_TAKE true, .keep)
    else
      (((w.dropFetch n c).setSlotState n c slStopped).setFld (Addr.ctxHdr n c) F.ctxHdr_STOP_CAUSE 1, .keep)
def execEndCommand (core slot : Nat) (s : State) : Out := s.onChip (endCmd core slot)

/-! ## Asynchronous faults -/

/-- The context is at a command boundary (R628). A take in progress is awaited as well (log entry 25). -/
def Chip.atBoundary (w : Chip) (n c : Nat) : Bool :=
  let s := w.slot n c
  s.frame.isNone && s.pend.isNone && s.fence.isNone && s.taking.isNone && (match w.vxOf n with | some v => v.slot != c | none => true)

/-- ASYNC_FAULT_RAISE (R628, R218): the oldest fault that waits is raised at the command boundary, where a slot that issues
nothing already stands. -/
def asyncFaultRaise (n c : Nat) (w : Chip) : Chip :=
  let s := w.slot n c
  match s.faults with
  | [] => w
  | f :: rest =>
    if w.runs n && w.atBoundary n c && w.slotState n c != slEmpty && s.quiesce != .write then
      let w := w.leaveWait n c
      ((w.setSlot n c { w.slot n c with faults := rest }).dropFetch n c).raiseFault n c f 0 false
    else w
def execAsyncFaultRaise (core slot : Nat) (s : State) : Out := s.onChip (asyncFaultRaise core slot)

/-! ## Slot operations (R211 to R216) -/

/-- SEQ_OP_START (R211). -/
def execSeqOpStart (core slot : Nat) (s : State) : Out := s.onChip fun w => w.seqGo core 1 (slot % 4)
/-- SEQ_OP_STOP (R211, R212). -/
def execSeqOpStop (core slot : Nat) (s : State) : Out := s.onChip fun w => w.seqGo core 2 (slot % 4)
/-- SEQ_OP_SAVE (R214). -/
def execSeqOpSave (core slot : Nat) (s : State) : Out := s.onChip fun w => w.seqGo core 3 (slot % 4)
/-- SEQ_OP_RESTORE (R215). -/
def execSeqOpRestore (core slot : Nat) (s : State) : Out := s.onChip fun w => w.seqGo core 4 (slot % 4)
/-- SEQ_OP_CLEAR (R211). -/
def execSeqOpClear (core slot : Nat) (s : State) : Out := s.onChip fun w => w.seqGo core 5 (slot % 4)

/-- The work that a quiesce waits for is complete (R212): the vector command, the matrix commands, the accesses and
operations, and any frame push. -/
def Chip.quiet (w : Chip) (n c : Nat) : Bool :=
  let s := w.slot n c
  let x := w.mxOf n
  let mine (q : MxCmd) : Bool := q.slot == c && q.ctxId == w.ctxId n c
  w.atBoundary n c && s.faults.isEmpty && s.outs.isEmpty && !x.queue.any mine && !x.runs.any fun r => mine r.cmd

/-- The FENCE of a slot being quiesced ends with its operations. -/
def Chip.fenceQuiet (w : Chip) (n c : Nat) : Chip :=
  let s := w.slot n c
  match s.fence with
  | some ids => if ids.all (fun i => s.outs.all fun o => o.id != i) then w.setSlot n c { s with fence := none } else w
  | none => w

/-- The DEADLINE_MISS of an abort whose quiesce is done (R220). -/
def Chip.abortRaise (w : Chip) (n c : Nat) : Chip :=
  (((w.setFld (Addr.ctxHdr n c) F.ctxHdr_STOP_CAUSE 3).raiseMissAtCp n c false)).dropFetch n c

/-- QUIESCE_COMPLETE (R212, R219, R220): the quiesce of a STOP, a SAVE or an abort ends. A miss that the STOP or SAVE met is raised
first: the operation ends once its frame is written. -/
def quiesceComplete (n c : Nat) (w : Chip) : Chip :=
  let w1 := w.fenceQuiet n c
  let s := w1.slot n c
  let st := w1.slotState n c
  if !w.runs n || !w1.quiet n c then w
  else match s.quiesce with
    | .stop =>
      if w1.abortPending n c then w1.abortRaise n c
      else if w1.missPending n c then w1.raiseMissAtCp n c true
      else
        let w := (w1.setSlot n c { s with quiesce := .no }).dropFetch n c
        if st = slFaulted ∨ st = slNoFrame then w.opEnd n 0
        else
          let w := w.setFld (Addr.ctxSched n c) F.ctxSched_WAIT_KIND 0
          ((w.setSlotState n c slStopped).setFld (Addr.ctxHdr n c) F.ctxHdr_STOP_CAUSE 2).opEnd n 0
    | .save =>
      if w1.abortPending n c then w1.abortRaise n c
      else (w1.dropFetch n c).setSlot n c { (w1.dropFetch n c).slot n c with quiesce := .dma }
    | .dma => if w1.abortPending n c then w1.abortRaise n c else w
    | .abort => w1.abortRaise n c
    | _ => w

def execQuiesceComplete (core slot : Nat) (s : State) : Out := s.onChip (quiesceComplete core slot)

/-- The 512 bytes of a context image (Table SEQ-3): the registers at 0x000 to 0x0EF, with the state the SAVE records; the
rest zero (R208). -/
def Chip.imageBytes (w : Chip) (n c : Nat) : List Byte :=
  ((List.range 30).flatMap fun i =>
    let v := w.rd (Addr.ctxHdr n c + 8 * i)
    toLE 8 (if i = 0 then putBits v 11 8 (w.slot n c).savedState else v)) ++ List.replicate 272 0

/-- SAVE_IMAGE_WRITE (R214, R216): once DMA_OUT is 0 the image is written at CSA; from here on the slot's local counters
refuse signals. -/
def saveImageWrite (n c : Nat) (w : Chip) : Chip :=
  let s := w.slot n c
  if w.runs n && s.quiesce == .dma && s.frame.isNone && s.faults.isEmpty && !w.abortPending n c &&
      w.fld (Addr.ctxStatus n c) F.ctxStatus_DMA_OUT == 0 then
    (w.localAcc (.imageWrite n c) n n 1 .wr (w.fld (Addr.ctxCsa n c) F.ctxCsa_CSA) 512 (w.imageBytes n c)).setSlot n c
      { s with quiesce := .write }
  else w
def execSaveImageWrite (core slot : Nat) (s : State) : Out := s.onChip (saveImageWrite core slot)

/-- The bits of the register at address `a` that hold a field (R44). -/
def fieldBits (a : Nat) : List (Nat × Nat) :=
  match catalogue.find? fun r => inFamily r.base r.dims a with
  | some r => r.fields.map fun f => (f.pos.hi, f.pos.lo)
  | none => []

/-- A value with the reserved bits of register `a` cleared. -/
def maskReg (a v : Nat) : Nat := ((fieldBits a).map fun r => bits v r.1 r.2 * 2 ^ r.2).sum

/-- RESTORE_IMAGE_READ (R215): the slot takes every field of the image, or the RESTORE ends BAD_IMAGE. A context restored
in WAITING tests its condition again, and its watchdog counts from here (R286); so do the waits of the other slots on the local
counters that it brings (R205). The image carries neither the code of a fault (R225) nor the time of a missed deadline's
detection: the code is open, the time that of the restore (log entry 71). -/
def restoreImageRead (n c : Nat) (w : Chip) : Chip :=
  match w.accsOf (.imageRead n c) with
  | [] => w
  | (id, a) :: _ =>
    if !w.runs n || !a.done then w
    else
      let w := w.dropAcc id
      let hdr := leNat (slice a.data 0 8)
      let st := bits hdr 11 8
      if a.fault != 0 || bits hdr 7 0 != 1 || st == slEmpty || st == slSaving || decide (7 ≤ st) then w.opEnd n 3
      else
        let w := (List.range 30).foldl (fun (w : Chip) i =>
          let r := Addr.ctxHdr n c + 8 * i
          w.setReg r (maskReg r (leNat (slice a.data (8 * i) 8)))) w
        let stopped := st == slFaulted || st == slNoFrame
        let code := if stopped then 1 + w.freeNat 32 % 15 else 0
        let w := if stopped then w.drew else w
        let w := (w.setFld (Addr.ctxStatus n c) F.ctxStatus_DMA_OUT 0).setSlot n c {
          cancel := (w.slot n c).cancel, code := code, missAt := if w.dlMissed n c then some w.time else none,
          waitStart := w.time,
          resend := if st = slWaiting then some w.time else none,
          waitWords := if twoWords (opcodeOf (w.rd (Addr.ctxWaitArg n c))) then 2 else 1,
          waitW1 := if opcodeOf (w.rd (Addr.ctxWaitArg n c)) = 0x11 then w.rd (Addr.ctxWaitTarget n c) else 0 }
        (((w.slotPayload n c code st).retestCore n).fetchDue n c).opEnd n 0
def execRestoreImageRead (core slot : Nat) (s : State) : Out := s.onChip (restoreImageRead core slot)

end Sys2Proof.Machine
end

