-- ==== Sys2Proof/Machine/Sync.lean ====
section
/-! DEFINITION. Counters and barriers (10_synchronisation.md): signals, waits and their registrations, Bloom lines,
Aster barriers, and the wait watchdog. -/

namespace Sys2Proof.Machine

namespace Chip

/-! ## Requests at the block hub -/

/-- The block of the hub that a message is for: 0 counters, 1 barriers, 2 queues, 3 events, 4 others. -/
def hubBlock (m : Msg) : Nat :=
  match m.op with
  | .atomicAdd | .waitNotify => 0
  | .barrierArrive | .barrierRelease => 1
  | .queuePush | .queuePop => 2
  | .eventMsg => 3
  | _ => 4

/-- Whether a message has arrived at the hub and is the first of its requester for its block (R135). -/
def hubTurn (w : Chip) (r : MsgRec) : Bool :=
  w.live && r.stage == .hub && !(w.net.msgs.any fun p => p.2.stage == .hub && hubBlock p.2.msg == hubBlock r.msg &&
    reqStream p.2.msg == reqStream r.msg && decide (p.2.stamp < r.stamp))

/-- Message `id` of operation `op` at the hub, taken by `go` in its turn. -/
def atHub (w : Chip) (id : Nat) (op : Op) (go : MsgRec → Chip) : Chip :=
  match w.msgRec? id with
  | none => w
  | some r => if r.msg.op == op && w.hubTurn r then go r else w

/-! ## Registrations -/

/-- WAIT_NOTIFY NOTIFY (1) or FULL (3) to the slot that sent registration `m` (R266, R268). -/
def notify (w : Chip) (m : Msg) (arg : Nat) : Chip :=
  w.inject .hub (w.towards m.srcChip (.core m.srcCore)) 0
    { m with op := .waitNotify, arg := arg, dstChip := m.srcChip, srcChip := 255, data := [] }

/-- The key of a waiting slot in the registration table (R267). -/
def regKey (m : Msg) : Nat := m.srcChip * 256 + m.srcCore * 4 + m.srcSlot

/-- Chip counter `n` satisfies target `t` (R260). -/
def ccSat (w : Chip) (n t : Nat) : Bool :=
  satisfied (w.flag (Addr.ccCfg n) F.ccCfg_MODE) (w.fld (Addr.ccValue n) F.ccValue_VALUE) t

/-- Test every registration of counter `n`: each one satisfied is notified and freed (R266, R270). -/
def testRegs (w : Chip) (n : Nat) : Chip :=
  let hit := w.sync.regsHeld.filter fun p => p.2.counter == n && w.ccSat n p.2.target
  let w := { w with sync := { w.sync with regsHeld := w.sync.regsHeld.filter fun p =>
    !(p.2.counter == n && w.ccSat n p.2.target) } }
  hit.foldl (fun w p => w.notify p.2.msg 1) w

/-! ## Chip counters -/

/-- The partner of chip counter `n` if the two form a pair (R264), with whether `n` is the producer. -/
def pairOf (w : Chip) (n : Nat) : Option (Nat × Bool) :=
  let p := w.fld (Addr.ccCfg n) F.ccCfg_PARTNER
  let cfgOf (k : Nat) (f : Fld) : Nat := w.fld (Addr.ccCfg k) f
  let b := cfgOf n F.ccCfg_BOUND
  if cfgOf n F.ccCfg_PAIR_EN = 1 ∧ cfgOf p F.ccCfg_PAIR_EN = 1 ∧ cfgOf n F.ccCfg_MODE = 0 ∧ cfgOf p F.ccCfg_MODE = 0 ∧
      cfgOf p F.ccCfg_PARTNER = n ∧ p ≠ n ∧ cfgOf n F.ccCfg_ROLE ≠ cfgOf p F.ccCfg_ROLE ∧ b = cfgOf p F.ccCfg_BOUND ∧
      b ≠ 0 then
    some (p, cfgOf n F.ccCfg_ROLE == 0)
  else none

/-- STATUS.PAIR_BAD of chip counter `n` (R264). -/
def pairBad (w : Chip) (n : Nat) : Bool := w.flag (Addr.ccCfg n) F.ccCfg_PAIR_EN && (w.pairOf n).isNone

/-- The DETAIL with which an add of `a` to counter `n` is refused (R265, Table SYN-1), if it is. -/
def pairRefusal (w : Chip) (n a : Nat) : Option Nat :=
  let v (k : Nat) : Nat := w.fld (Addr.ccValue k) F.ccValue_VALUE
  match w.pairOf n with
  | some (p, true) => if v p + w.fld (Addr.ccCfg n) F.ccCfg_BOUND < v n + a then some 0x200 else none
  | some (p, false) => if v p < v n + a then some 0x201 else none
  | none => none

/-- One add of the chip counter block (R259, R263, R265): the pair bound, the sum, and the waits it satisfies. It
answers the DETAIL of a refusal. -/
def ccAdd (w : Chip) (n a : Nat) : Chip × Option Nat :=
  match w.pairRefusal n a with
  | some d =>
    ((w.setFlag (Addr.ccStatus n) (if d = 0x200 then F.ccStatus_OVER else F.ccStatus_UNDER) true).bump
      (Addr.ccRefusedCount n), some d)
  | none =>
    let (v, sat) := addCount (w.flag (Addr.ccCfg n) F.ccCfg_MODE) (w.fld (Addr.ccValue n) F.ccValue_VALUE) a
    let w := w.setFld (Addr.ccValue n) F.ccValue_VALUE v
    let w := if sat then w.setFlag (Addr.ccStatus n) F.ccStatus_SAT true else w
    (w.testRegs n, none)

/-- The chip counter that a SIGNAL or VALUE register address names. -/
def ccIndex (a : Nat) : Nat := (a - 0x4200000) / 128 % 512

/-! ## Local counters -/

/-- A signal to local counter `k` of core `n` (R216, R259, R262): it adds, is refused, or (while the image of its slot
is being written) waits. -/
inductive LcResult where
  | done (w : Chip)
  | refused (w : Chip)
  | hold

/-- Apply a signal to a local counter. -/
def lcAdd (w : Chip) (n k a : Nat) : LcResult :=
  let c := k / 4
  if w.slotState n c = slEmpty then .refused (w.bump (Addr.seqSigRefused n))
  else if w.slotState n c = slSaving && (w.slot n c).quiesce == .write then .hold
  else
    let r := Addr.ctxLc n c (k % 4)
    let (v, sat) := addCount (w.flag r F.ctxLc_MODE) (w.fld r F.ctxLc_VALUE) a
    let w := w.setFld r F.ctxLc_VALUE v
    let w := if sat then w.setFlag r F.ctxLc_SAT true else w
    .done (w.retestCore n)

/-- An add that met the image write of its slot is refused once that write has ended, whatever the slot holds then (R216): the
status that the message carries. -/
def heldStatus : Nat := 9

/-- The local counter that an LCNT_SIGNAL register address names. -/
def lcIndex (a : Nat) : Nat := (a % 0x40000 - 0xB000) / 32 % 16

/-- Put an operation of core `n` on its own counters where it waits to be performed. -/
def localOp (w : Chip) (n : Nat) (m : Msg) : Chip :=
  (w.setMsg w.nextId { msg := m, src := .core n, dst := .core n, cls := 3, stage := .localOp, stamp := w.nextId }).bumpId

/-! ## Sending -/

/-- Checks of the counter that a SIGNAL or WAIT names (Table CMD-5, R239, R240), in the order of R231: `scope` says that its own
reach is passed. Table CMD-3 does not say which DETAIL a field that must be zero has: INDEX[8:4] of a local counter is RANGE, CORE
beside a chip counter COMBINATION (log entry 72). -/
def counterChks (w : Chip) (x : Cmd) (scope : Bool) : List Chk :=
  let loc := !bit x.w0 39
  let chip := bits x.w0 47 40
  [rangeChk (loc && bits x.w0 8 4 != 0), combChk (!loc && bits x.w0 37 32 != 0), scopeChk scope,
   { bad := !w.reachable chip, code := 0x0B }]

/-- The requests held for the waits of slot `c` that `p` picks are held no longer. -/
def dropWaitReqs (w : Chip) (n c : Nat) (p : Msg → Bool) : Chip :=
  { w with pod := { w.pod with outReqs := w.pod.outReqs.filter fun q =>
    !(q.2.msg.op == Op.waitNotify && q.2.msg.srcCore == n && q.2.msg.srcSlot == c && p q.2.msg) } }

/-- Send the cancellation that slot `c` owes (R269): it goes before any later registration of the slot, and is held, as it has no
answer, until the slot registers there again, so that it can be sent again after NAK_NOT_READY (R429). -/
def sendCancel (w : Chip) (n c : Nat) : Chip :=
  let s := w.slot n c
  match s.cancel with
  | none => w
  | some w0 =>
    let chip := w.resolve (bits w0 47 40)
    let w := (w.setSlot n c { s with cancel := none }).dropWaitReqs n c fun m => m.arg == 0 || m.dstChip == chip
    if chip == 255 || w.reachable chip then
      w.send (.core n) .hub 1
        { op := .waitNotify, arg := 2, dstChip := chip, srcCore := n, srcSlot := c, addr := Addr.ccValue (bits w0 8 0) }
    else w

/-- The registration of slot `c`'s wait (R266): the counter of its WAIT_ARG, its target. A cancellation of an earlier wait that the
core still owes goes first. -/
def sendRegister (w : Chip) (n c : Nat) : Chip :=
  let w0 := w.rd (Addr.ctxWaitArg n c)
  let chip := w.resolve (bits w0 47 40)
  let w := (w.sendCancel n c).dropWaitReqs n c fun m => m.dstChip == chip
  w.send (.core n) .hub 1
    { op := .waitNotify, arg := 0, dstChip := chip, srcCore := n, srcSlot := c,
      addr := Addr.ccValue (bits w0 8 0), len := 8, data := toLE 8 (w.rd (Addr.ctxWaitTarget n c)),
      acc := (w.slot n c).waitId }

end Chip

open Chip

/-- SIGNAL (R239). -/
def signalCmd (n c : Nat) (w : Chip) : Chip :=
  w.issue n c 0x10
    (fun w x => [resvChk x [(47, 40), (39, 39), (37, 32), (31, 16), (8, 0)] [] false, rangeChk (bits x.w0 31 16 == 0)] ++
      w.counterChks x false ++
      [{ bad := !bit x.w0 39 && w.isSelf (bits x.w0 47 40) && !w.coreUp (bits x.w0 37 32), code := 0x0A }])
    fun w x =>
      let chip := w.resolve (bits x.w0 47 40)
      let loc := !bit x.w0 39
      let h := bits x.w0 37 32
      let id := w.nextId
      let w := w.trackOp (.ctxOp n c) n chip 0 0 (ctxStream n c)
      let w := w.outOp n c id chip false x
      let m : Msg :=
        { op := .atomicAdd, arg := 3, dstChip := chip, srcCore := n, srcSlot := c,
          addr := if loc then Addr.lcntSignal h (bits x.w0 3 0) else Addr.ccSignal (bits x.w0 8 0), len := 8,
          data := toLE 8 (bits x.w0 31 16), acc := id }
      (if loc && chip == 255 && h == n then w.localOp n m
       else w.send (.core n) (if loc then .core h else .hub) 1 m, .next)
def execSignal (core slot : Nat) (s : State) : Out := s.onChip (signalCmd core slot)

/-- WAIT (R240, R266). A wait on a local counter of an EMPTY slot is refused; one that meets the image write of the slot is held
until that write has ended, and then refused (R216). -/
def waitCmd (n c : Nat) (w : Chip) : Chip :=
  w.issue n c 0x11
    (fun w x => [resvChk x [(47, 40), (39, 39), (37, 32), (31, 16), (8, 0)] [(47, 0)] true, rangeChk (bits x.w0 31 16 != 0)] ++
      w.counterChks x (!bit x.w0 39 && !(w.isSelf (bits x.w0 47 40) && bits x.w0 37 32 == n)))
    fun w x =>
      let w := w.enterWait n c 1 (w.indexed n c x (bits x.w1 47 0) 48) x
      if bit x.w0 39 then
        let w := (w.setSlot n c { w.slot n c with waitId := w.nextId }).bumpId
        (w.sendRegister n c, .next)
      else
        let k := bits x.w0 3 0
        if w.slotState n (k / 4) = slEmpty then
          ((w.bump (Addr.seqSigRefused n)).postFault n c
            { code := 9, unit := 4, detail := 0x100, srcCp := x.cp, word0 := x.w0, word1 := x.w1 }, .next)
        else if w.slotState n (k / 4) = slSaving && (w.slot n (k / 4)).quiesce == .write then
          (w.setSlot n c { w.slot n c with heldWait := true }, .next)
        else (w.retest n c, .next)
def execWait (core slot : Nat) (s : State) : Out := s.onChip (waitCmd core slot)

/-- LOCAL_COUNTER_ADD (R262, R216): a signal has reached a local counter. -/
def localCounterAdd (id : Nat) (w : Chip) : Chip :=
  let perform (h : Nat) (r : MsgRec) : Chip :=
    let refuse (w : Chip) : Chip :=
      (w.dropMsg id).answer (.core h) { r.msg with status := 0 } .writeAck 9 0x100 []
    match w.lcAdd h (lcIndex r.msg.addr) (leNat r.msg.data) with
    | .hold => w.setMsg id { r with msg := { r.msg with status := heldStatus } }
    | .done w' =>
      if r.msg.status = heldStatus then refuse (w.bump (Addr.seqSigRefused h))
      else (w'.dropMsg id).answer (.core h) r.msg .writeAck 0 0 []
    | .refused w => refuse w
  match w.msgRec? id with
  | none => w
  | some r =>
    if r.stage == .localOp then
      match r.dst with
      | .core h => if w.runs h then perform h r else w
      | _ => w
    else w.atHome id (fun m => m.op == Op.atomicAdd && bit m.arg 1) perform
def execLocalCounterAdd (msg : Nat) (s : State) : Out := s.onChip (localCounterAdd msg)

/-- COUNTER_ADD (R263): a signal has reached a chip counter; `ecc` bits of its word are in error (R593). -/
def counterAdd (id ecc : Nat) (w : Chip) : Chip :=
  w.atHub id .atomicAdd fun r =>
    let n := ccIndex r.msg.addr
    let (w, k) := w.chipEcc 3 n ecc
    let go (w : Chip) : Chip :=
      let (w, d) := w.ccAdd n (leNat r.msg.data)
      (w.dropMsg id).answer .hub r.msg .writeAck (if d.isSome then 9 else 0) (d.getD 0) []
    match k with
    | .good => go w
    | .bad => w
    | .open_ v => go (w.setFld (Addr.ccValue n) F.ccValue_VALUE v)
def execCounterAdd (msg ecc : Nat) (s : State) : Out := s.onChip (counterAdd msg ecc)

/-- COUNTER_SIGNAL_WRITE: a write of AMOUNT to a chip counter's SIGNAL register (R263, R265; Table SYN-4): a refusal
faults nothing. -/
def counterSignalWrite (n a : Nat) (w : Chip) : Chip :=
  if w.live && n < 512 && a % 2 ^ 32 != 0 then (w.ccAdd n (a % 2 ^ 32)).1 else w
def execCounterSignalWrite (counter amount : Nat) (s : State) : Out := s.onChip (counterSignalWrite counter amount)

/-- LCNT_SIGNAL_WRITE: a write of AMOUNT to a local counter's LCNT_SIGNAL register (R262; Table SYN-5). While the image
of the slot is being written it is held (R216). -/
def lcntSignalWrite (n k a : Nat) (w : Chip) : Chip :=
  if w.runs n && k < 16 && a % 2 ^ 32 != 0 then
    match w.lcAdd n k (a % 2 ^ 32) with
    | .done w => w
    | .refused w => w
    | .hold => w.localOp n { op := .atomicAdd, arg := 3, srcUnit := 12, addr := Addr.lcntSignal n k, len := 8,
                             data := toLE 8 (a % 2 ^ 32), status := heldStatus }
  else w
def execLcntSignalWrite (core counter amount : Nat) (s : State) : Out := s.onChip (lcntSignalWrite core counter amount)

/-- COUNTER_VALUE_WRITE: a software write to a chip counter's VALUE, or with `cfg` to its CFG, the mode and pair fields
(R258, R270): no pair bound is checked, and every wait is tested again. -/
def counterValueWrite (n : Nat) (cfg : Bool) (v : Nat) (w : Chip) : Chip :=
  if w.live && n < 512 then
    (if cfg then w.setReg (Addr.ccCfg n) (maskReg (Addr.ccCfg n) v)
     else w.setFld (Addr.ccValue n) F.ccValue_VALUE v).testRegs n
  else w
def execCounterValueWrite (counter : Nat) (cfg : Bool) (value : Nat) (s : State) : Out :=
  s.onChip (counterValueWrite counter cfg value)

/-- WAIT_REGISTER (R266 to R268): a registration has reached the counter's chip. A slot's new registration replaces its
earlier one; a cancellation removes it (R269). -/
def waitRegister (id : Nat) (w : Chip) : Chip :=
  w.atHub id .waitNotify fun r =>
    let m := r.msg
    let k := regKey m
    let w := w.dropMsg id
    let w := { w with sync := { w.sync with regsHeld := spErase w.sync.regsHeld k } }
    if m.arg = 2 then w
    else
      let n := ccIndex m.addr
      let t := leNat m.data
      if w.ccSat n t then w.notify m 1
      else if w.sync.regsHeld.length < 4096 then
        { w with sync := { w.sync with regsHeld := spInsert w.sync.regsHeld k ⟨n, t, m⟩ } }
      else (w.bump Addr.syncWtFullCount).notify m 3
def execWaitRegister (msg : Nat) (s : State) : Out := s.onChip (waitRegister msg)

/-- WAIT_NOTIFY (R266, R268, R269): the answer to a registration reaches the waiting core; one for a slot that no longer
waits is discarded. -/
def waitNotify (id : Nat) (w : Chip) : Chip :=
  match w.msgRec? id with
  | none => w
  | some r =>
    match r.stage, r.dst with
    | .resp, .core n =>
      if !w.live || r.msg.op != Op.waitNotify then w
      else
        let c := r.msg.srcSlot
        let s := w.slot n c
        let w := w.dropMsg id
        if w.slotState n c = slWaiting && w.waitKind n c = 1 && s.waitId = r.msg.acc then
          if r.msg.arg = 3 then w.setSlot n c { s with resend := some (w.time + 256) } else w.condTrue n c
        else w
    | _, _ => w
def execWaitNotify (msg : Nat) (s : State) : Out := s.onChip (waitNotify msg)

/-- REGISTRATION_RESEND (R268, R215): a registration answered FULL is sent again 256 ticks later; a restored context
registers again. -/
def registrationResend (n c : Nat) (w : Chip) : Chip :=
  match (w.slot n c).resend with
  | none => w
  | some t =>
    if w.waitingIn n c 1 && bit (w.rd (Addr.ctxWaitArg n c)) 39 && decide (t ≤ w.time) then
      let s := w.slot n c
      let chip := bits (w.rd (Addr.ctxWaitArg n c)) 47 40
      if w.reachable chip then
        let w := (w.setSlot n c { s with resend := none, waitId := if s.waitId = 0 then w.nextId else s.waitId }).bumpId
        w.sendRegister n c
      else
        (w.setSlot n c { s with resend := none }).postFault n c
          { code := 0x0B, unit := 4, srcCp := w.cp n c - 16, word0 := w.rd (Addr.ctxWaitArg n c), word1 := s.waitW1 }
    else w
def execRegistrationResend (core slot : Nat) (s : State) : Out := s.onChip (registrationResend core slot)

/-- WAIT_CANCEL (R269): the core cancels the registration of a context that has left WAITING. -/
def waitCancel (n c : Nat) (w : Chip) : Chip := if w.runs n then w.sendCancel n c else w
def execWaitCancel (core slot : Nat) (s : State) : Out := s.onChip (waitCancel core slot)

/-- WAIT_SATISFIED (R205): a context whose condition has become true is ready again. -/
def waitSatisfied (n c : Nat) (w : Chip) : Chip :=
  if (w.slot n c).notified && [1, 2, 4, 5].any (fun k => w.waitingIn n c k) then w.wake n c else w
def execWaitSatisfied (core slot : Nat) (s : State) : Out := s.onChip (waitSatisfied core slot)

/-- WAIT_TIMEOUT (R285 to R287): a covered wait, or a fence, has lasted more than WD_LIMIT × 1,000 ticks. -/
def waitTimeout (n c : Nat) (w : Chip) : Chip :=
  let s := w.slot n c
  let k := w.waitKind n c
  let fault (w0 w1 detail words : Nat) (w : Chip) : Chip :=
    let p := (w.cp n c + 2 ^ 20 - 8 * words) % 2 ^ 20
    w.raiseFault n c { code := 8, unit := 6, detail := detail, srcCp := p, word0 := w0, word1 := w1, time := w.time } 0
      false (some p)
  if !w.runs n || s.frame.isSome || !w.pastLimit n c w.time then w
  else if w.slotState n c = slWaiting && s.quiesce == .no && !s.notified && (k == 1 || k == 2 || k == 4) then
    fault (w.rd (Addr.ctxWaitArg n c)) s.waitW1 k s.waitWords (w.leaveWait n c)
  else if w.slotState n c = slActive && s.fence.isSome && w.pastLimit n c (s.fenceDone.getD w.time) then
    fault s.fenceW0 0 0x10 1 ((w.setSlot n c { s with fence := none }).dropFetch n c)
  else w
def execWaitTimeout (core slot : Nat) (s : State) : Out := s.onChip (waitTimeout core slot)

/-! ## Barriers (R274 to R284) -/

namespace Chip

/-- Address of MASK of a Bloom line or Aster barrier. -/
def barMask (aster : Bool) (i : Nat) : Nat := if aster then Addr.asterMask i else Addr.bloomMask i
/-- Address of ARRIVED of a Bloom line or Aster barrier. -/
def barArrived (aster : Bool) (i : Nat) : Nat := if aster then Addr.asterArrived i else Addr.bloomArrived i

/-- ARRIVED covers a MASK. -/
def covered (w : Chip) (aster : Bool) (i : Nat) : Bool :=
  Nat.land (w.rd (barMask aster i)) (w.rd (barArrived aster i)) == w.rd (barMask aster i)

/-- A core of Bloom line `l`'s MASK has no power: the line cannot complete (R278). -/
def bloomStalled (w : Chip) (l : Nat) : Bool := (List.range 64).any fun n => bit (w.rd (Addr.bloomMask l)) n && !w.coreUp n

/-- A Bloom line whose ARRIVED covers a non-zero MASK of powered cores completes (R274, R278): PHASE toggles, ARRIVED
clears, and its waiters are released. -/
def bloomTest (w : Chip) (l : Nat) : Chip :=
  if w.rd (Addr.bloomMask l) != 0 && w.covered false l && !w.bloomStalled l then
    let s := Addr.bloomState l
    let w := (w.setReg (Addr.bloomArrived l) 0).setFld s F.bloomState_PHASE (1 - w.fld s F.bloomState_PHASE)
    (w.bump (Addr.bloomCompletions l)).retestAll
  else w

/-- Every Bloom line is tested again, once cores have been given power (R278). -/
def bloomRetest (w : Chip) : Chip := (List.range 8).foldl bloomTest w

/-- The chip's parent in the combining tree, by its number: fixed at the adoption of the epoch (R279, R284). -/
def parentChip? (w : Chip) : Option Nat := w.pod.treeParent

/-- The chip's children in the combining tree, by their numbers: fixed at the adoption of the epoch (R279, R284). -/
def childChips (w : Chip) : List Nat := w.pod.treeKids

/-- Send a barrier message of generation `g` of barrier `b` to chip `c` (R280). -/
def barrierSend (w : Chip) (op : Op) (c b g : Nat) : Chip :=
  w.sendReq .hub 0 { op := op, dstChip := c, srcUnit := 10, addr := Addr.asterMask b, len := 8, data := toLE 8 g }

/-- Generation `g` of Aster barrier `b` is complete here (R280): GEN, ARRIVED, the waiters, and the children. -/
def asterRelease (w : Chip) (b g : Nat) : Chip :=
  let w := (w.setFld (Addr.asterState b) F.asterState_GEN (g + 1)).setReg (Addr.asterArrived b) 0
  let w := { w with sync := { w.sync with children := spErase w.sync.children b, arriveSent := spErase w.sync.arriveSent b } }
  (w.childChips.foldl (fun w c => w.barrierSend .barrierRelease c b g) w).retestAll

/-- Aster barrier `b` is tested (R280): once every core of MASK and every participating child has arrived, the root
completes the generation and another chip tells its parent, once. -/
def asterTest (w : Chip) (b : Nat) : Chip :=
  let kids := spGet (fun _ => []) w.sync.partKids b
  let there := spGet (fun _ => []) w.sync.children b
  let g := w.fld (Addr.asterState b) F.asterState_GEN
  if (w.rd (Addr.asterMask b) != 0 || !kids.isEmpty) && w.covered true b && kids.all (fun k => there.contains k) then
    match w.parentChip? with
    | none => w.asterRelease b g
    | some p =>
      if spGet (fun _ => false) w.sync.arriveSent b then w
      else
        let w := { w with sync := { w.sync with arriveSent := spInsert w.sync.arriveSent b true } }
        w.barrierSend .barrierArrive p b g
  else w

/-- The children that take part in barrier `b`, which no message of the spec reports: an input (log entry 15). -/
def setKids (w : Chip) (b : Nat) (kids : List Nat) : Chip :=
  { w with sync := { w.sync with partKids := spPut (fun _ => []) w.sync.partKids b (kids.filter fun k => w.childChips.contains k) } }

/-- Apply an arrival of core `n` (R274, R275, R282): the DETAIL of a refusal, or the arrival set. -/
def arrive (w : Chip) (aster : Bool) (i n : Nat) : Chip × Option Nat :=
  if !bit (w.rd (barMask aster i)) n then (w, some 0x202)
  else if bit (w.rd (barArrived aster i)) n then (w, some 0x203)
  else
    let w := w.setReg (barArrived aster i) (putBit (w.rd (barArrived aster i)) n true)
    (if aster then w.asterTest i else w.bloomTest i, none)

/-- A write to a MASK (R277, R282): it takes effect at once, clears the ARRIVED bits outside it, and may complete the
line or make the chip send its arrival. -/
def maskWrite (w : Chip) (aster : Bool) (i v : Nat) : Chip :=
  let w := w.setReg (barMask aster i) v
  let w := w.setReg (barArrived aster i) (Nat.land (w.rd (barArrived aster i)) (v % 2 ^ 64))
  if aster then w.asterTest i else w.bloomTest i

/-- The arrival message of core `n` at line or barrier `i`, tracked until it is applied or refused; no fence waits for
it (R137). `pos` names the scratch value of REC, counted from 1. -/
def sendArrival (w : Chip) (n c i : Nat) (aster : Bool) (rreg : Nat) (x : Cmd) : Chip :=
  let id := w.nextId
  let w := w.trackOp (.ctxOp n c) n 255 0 0 (ctxStream n c)
  let w := w.outOp n c id 255 false x (fenced := false)
  w.inject (.core n) .hub 1
    { op := .barrierArrive, arg := if aster then 2 else 1, srcCore := n, srcSlot := c, addr := i, acc := id,
      pos := if bit x.w0 54 then rreg + 1 else 0 }

/-- An arrival of a context reaches its line or barrier: it is refused, or set, and REC writes the phase or generation in which it
counts (R242, R281). -/
def applyArrival (w : Chip) (id : Nat) (m : Msg) (aster : Bool) : Chip :=
  let g := if aster then w.fld (Addr.asterState m.addr) F.asterState_GEN else w.fld (Addr.bloomState m.addr) F.bloomState_PHASE
  let mine := (w.slot m.srcCore m.srcSlot).outs.any fun o => o.id == m.acc
  let (w, d) := w.arrive aster m.addr m.srcCore
  let w := if d.isNone && m.pos != 0 && mine then w.setScratch m.srcCore m.srcSlot (m.pos - 1) g else w
  (w.dropMsg id).answer .hub m .writeAck (if d.isSome then 9 else 0) (d.getD 0) []

end Chip

/-- BLOOM_ARRIVE (R242). S[RREG] receives the phase when the arrival is applied; until then it keeps its value (log entry 73). -/
def bloomArriveCmd (n c : Nat) (w : Chip) : Chip :=
  w.issue n c 0x13
    (fun _ x => [resvChk x [(54, 54), (6, 4), (2, 0)] [] false])
    fun w x =>
      (w.sendArrival n c (bits x.w0 2 0) false (bits x.w0 6 4) x, .next)
def execBloomArrive (core slot : Nat) (s : State) : Out := s.onChip (bloomArriveCmd core slot)

/-- ASTER_ARRIVE (R242, R244, R281). S[RREG] receives the generation when the arrival is applied (log entry 73). -/
def asterArriveCmd (n c : Nat) (w : Chip) : Chip :=
  w.issue n c 0x14
    (fun w x => [resvChk x [(54, 54), (10, 8), (5, 0)] [] false, { bad := !w.switchedOn, code := 0x0A }])
    fun w x =>
      (w.sendArrival n c (bits x.w0 5 0) true (bits x.w0 10 8) x, .next)
def execAsterArrive (core slot : Nat) (s : State) : Out := s.onChip (asterArriveCmd core slot)

/-- WAIT_BARRIER (R243, R244, R276, R281). GEN[31:17] of a Bloom wait, which must be zero, is RANGE (log entry 72). -/
def waitBarrierCmd (n c : Nat) (w : Chip) : Chip :=
  let aster (x : Cmd) : Bool := bit x.w0 8
  w.issue n c 0x15
    (fun w x => [resvChk x [(31, 16), (8, 8), (5, 0)] [] true,
      rangeChk (!aster x && (decide (8 ≤ bits x.w0 5 0) || bits x.w0 31 17 != 0)),
      { bad := aster x && !w.switchedOn, code := 0x0A }])
    fun w x =>
      let t := if aster x then w.indexed n c x (bits x.w0 31 16) 16 else w.indexed n c x (bits x.w0 16 16) 1
      ((w.enterWait n c 2 t x).retest n c, .next)
def execWaitBarrier (core slot : Nat) (s : State) : Out := s.onChip (waitBarrierCmd core slot)

/-- BLOOM_ARRIVAL_APPLY (R274, R275). -/
def bloomArrivalApply (id : Nat) (w : Chip) : Chip :=
  w.atHub id .barrierArrive fun r =>
    if r.msg.arg != 1 then w
    else w.applyArrival id r.msg false
def execBloomArrivalApply (msg : Nat) (s : State) : Out := s.onChip (bloomArrivalApply msg)

/-- ASTER_ARRIVAL_APPLY (R281, R282): an arrival of a core; `kids` are the children that take part. -/
def asterArrivalApply (id : Nat) (kids : List Nat) (w : Chip) : Chip :=
  w.atHub id .barrierArrive fun r =>
    if r.msg.arg != 2 then w
    else if !w.switchedOn then (w.dropMsg id).answer .hub r.msg .writeAck 0x0A 0 []
    else (w.setKids r.msg.addr kids).applyArrival id r.msg true
def execAsterArrivalApply (msg : Nat) (kids : List Nat) (s : State) : Out := s.onChip (asterArrivalApply msg kids)

/-- The Aster barrier that a message between chips names. -/
def barrierOf (m : Msg) : Nat := (m.addr - 0x4211000) / 64 % 64

/-- BARRIER_ARRIVE (R280): a participating child has sent its arrival for a generation. -/
def barrierArrive (id : Nat) (kids : List Nat) (w : Chip) : Chip :=
  w.atHub id .barrierArrive fun r =>
    if r.msg.arg != 0 || !w.switchedOn then w
    else
      let b := barrierOf r.msg
      let w := (w.dropMsg id).setKids b kids
      let there := spGet (fun _ => []) w.sync.children b
      let w := if leNat r.msg.data = w.fld (Addr.asterState b) F.asterState_GEN && !there.contains r.msg.srcChip then
          { w with sync := { w.sync with children := spInsert w.sync.children b (r.msg.srcChip :: there) } }.asterTest b
        else w
      w.answer .hub r.msg .writeAck 0 0 []
def execBarrierArrive (msg : Nat) (kids : List Nat) (s : State) : Out := s.onChip (barrierArrive msg kids)

/-- BARRIER_RELEASE (R280): the release of a generation reaches this chip and goes on down the tree. One of another generation
than GEN is answered and ignored (log entry 28). -/
def barrierRelease (id : Nat) (w : Chip) : Chip :=
  w.atHub id .barrierRelease fun r =>
    if !w.switchedOn then w
    else
      let b := barrierOf r.msg
      let w := (w.dropMsg id).answer .hub r.msg .writeAck 0 0 []
      if leNat r.msg.data = w.fld (Addr.asterState b) F.asterState_GEN then w.asterRelease b (leNat r.msg.data) else w
def execBarrierRelease (msg : Nat) (s : State) : Out := s.onChip (barrierRelease msg)

/-- BARRIER_MASK_WRITE (R277, R282): a write to MASK of a Bloom line, or of an Aster barrier while it is powered. -/
def barrierMaskWrite (aster : Bool) (i v : Nat) (kids : List Nat) (w : Chip) : Chip :=
  if !w.live then w
  else if aster then (if w.switchedOn && i < 64 then (w.setKids i kids).maskWrite true i v else w)
  else if i < 8 then w.maskWrite false i v else w
def execBarrierMaskWrite (aster : Bool) (index mask : Nat) (kids : List Nat) (s : State) : Out :=
  s.onChip (barrierMaskWrite aster index mask kids)

end Sys2Proof.Machine
end

