-- ==== Sys2Proof/Machine/Hostmem.lean ====
section
/-! DEFINITION. Host memory as the chip reaches it (12_dma_and_host_translation.md, R325 to R335; R506, R512, R514): the
endpoint's requests, the host TLB, translation walks, and invalidations. -/

namespace Sys2Proof.Machine

/-- Host physical address `a` lies in a window of `size` bytes at a base. -/
def inBar (b : Option Nat) (size a : Nat) : Bool :=
  match b with
  | some x => decide (x ≤ a) && decide (a < x + size)
  | none => false

namespace Chip

/-- A host physical address lies in one of the endpoint's own windows (R327, Table HIO-2). -/
def ownWindow (w : Chip) (a : Nat) : Bool :=
  inBar w.pcie.bar0 0x10000 a || inBar w.pcie.bar2 0x4000000 a || inBar w.pcie.bar4 0x200000000 a

/-- The endpoint may make host accesses (R327, R512). -/
def busMaster (w : Chip) : Bool := w.pcie.linkUp && w.pcie.bme && !w.pcie.d3

/-- A host access fails: its fault and DETAIL (Table DMA-3). -/
def failAcc (w : Chip) (id code detail : Nat) : Chip :=
  (w.setAcc id { w.acc id with fault := code, detail := detail, parts := 0 }).settle id

/-- Transmit: what the endpoint has sent to the host. -/
def transmit (w : Chip) (t : HostTx) : Chip := { w with pcie := { w.pcie with tx := t :: w.pcie.tx } }

/-- Host reads that have been sent and have no whole completion. -/
def readsSent (w : Chip) : Nat := (w.pcie.reads.filter fun p => p.2.sent).length

def chan (w : Chip) (n h : Nat) : Chan := spGet (fun _ => {}) w.dma (n * 4 + h)
def setChan (w : Chip) (n h : Nat) (x : Chan) : Chip := { w with dma := spPut (fun _ => {}) w.dma (n * 4 + h) x }

/-- The stall probe (DMA_STALL of Table FLT-1): transaction `t` of channel `h` of core `n` issues. -/
def stallSample (w : Chip) (n h t : Nat) : Chip :=
  match (w.chan n h).txns.find? fun x => x.id == t with
  | none => w
  | some x => w.irisSample 0x04 (fun sel => bits sel 5 0 == n && bits sel 9 8 == h) ((w.time - x.readyAt : Nat) : Int)

/-- A part of access `id` has ended, with fault `code` or 0 for none; the first fault is the access's. -/
def partEnded (w : Chip) (id code detail : Nat) : Chip :=
  match spFind? w.accs id with
  | none => w
  | some a =>
    (w.setAcc id { a with parts := a.parts - 1, fault := if a.fault != 0 then a.fault else code,
                          detail := if a.fault != 0 then a.detail else detail }).settle id

/-- A read request of access `id` enters the endpoint: it is sent while fewer than 256 are outstanding (Table HIO-1). -/
def requestRead (w : Chip) (id : Nat) (p : Nat × Nat × Nat) : Chip :=
  let go := decide (w.readsSent < 256)
  ({ w with pcie := { w.pcie with
      reads := spInsert w.pcie.reads w.nextId ⟨id, p.2.2, p.2.1, p.2.1, w.time, go⟩ } } : Chip).bumpId

/-- Access `id` is made at host physical address `a` (R325 to R327), divided at multiples of the maximum read request or
payload size (log entry 33): a read is requested, a write is transmitted and so complete. -/
def hostGo (w : Chip) (id a : Nat) : Chip :=
  let x := w.acc id
  if !w.busMaster then w.failAcc id 0x0E 0x426
  else if w.ownWindow a then w.failAcc id 0x0E 0x424
  else match x.kind with
    | .rd =>
      let ps := pieces w.pcie.maxRead (x.len / w.pcie.maxRead + 2) a x.len 0
      let w := match x.owner with | .dma n h t => w.stallSample n h t | _ => w
      ps.foldl (fun (w : Chip) p => w.requestRead id p) (w.setAcc id { x with parts := ps.length })
    | _ =>
      let ps := pieces w.pcie.maxPayload (x.len / w.pcie.maxPayload + 2) a x.len 0
      let w := ps.foldl (fun (w : Chip) p => w.transmit (.write p.1 (slice x.data p.2.2 p.2.1))) w
      (w.setAcc id { x with parts := 0 }).settle id

/-- Access `id` has translation entry `e` (R332). -/
def hostWith (w : Chip) (id : Nat) (e : TlbEnt) : Chip :=
  let x := w.acc id
  let ok := match x.kind with | .rd => e.rd | _ => e.wr
  if ok then w.hostGo id (e.frame * 4096 + x.addr % 4096) else w.failAcc id 0x0C 0x403

/-- Host accesses that are complete leave the translation unit's record. -/
def pruneXl (w : Chip) : Chip :=
  { w with ht := { w.ht with xl := w.ht.xl.filter fun p => match spFind? w.accs p.1 with
      | some a => !a.done
      | none => false } }

/-- An access to host address `a` (R325, R328): translated by the TLB, or it waits for a walk. -/
def hostAcc (w : Chip) (owner : AccOwner) (core : Nat) (kind : AccKind) (a len : Nat) (data : List Byte)
    (stream : Nat := 0) : Chip :=
  let id := w.nextId
  let w := (w.pruneXl.setAcc id { owner := owner, core := core, remote := true, kind := kind, chip := 256, addr := a,
                                  len := len, data := match kind with | .rd => List.replicate len 0 | _ => data,
                                  parts := 1, stream := stream, born := w.time }).bumpId
  if !w.busMaster then w.failAcc id 0x0E 0x426
  else if w.flag Addr.htCtrl F.htCtrl_BYPASS then w.hostGo id a
  else
    let page := a / 4096
    match w.ht.tlb.find? fun e => e.page == page with
    | some e =>
      let w := { w with ht := { w.ht with
        tlb := e :: w.ht.tlb.filter (fun x => x.page != page)
        xl := spInsert w.ht.xl id ⟨page, kind != AccKind.rd, false⟩ } }
      (w.bump Addr.htHits).hostWith id e
    | none => { w with ht := { w.ht with xl := spInsert w.ht.xl id ⟨page, kind != AccKind.rd, true⟩ } }

/-! ## Walks -/

/-- The walk for a page. -/
def walkOf? (w : Chip) (page : Nat) : Option Walk := w.ht.walks.find? fun k => k.page == page
def setWalk (w : Chip) (k : Walk) : Chip :=
  { w with ht := { w.ht with walks := w.ht.walks.map fun x => if x.page = k.page then k else x } }

/-- The index of a page in the table of a level (R328). -/
def levelIndex (page lvl : Nat) : Nat := page / 512 ^ (3 - lvl) % 512

/-- Walk `k` reads its entry in the table at `base` (R330, R333). The tables of an LM tree lie in this chip's LM, whatever chip
their addresses name (log entry 33). -/
def walkRead (w : Chip) (k : Walk) (base : Nat) : Chip :=
  let a := base + levelIndex k.page k.lvl * 8
  if k.lm then
    let a := a % 2 ^ 40
    if 0x4000000 ≤ a % 2 ^ 32 ∧ a % 2 ^ 32 < 0x8000000 then w.setWalk { k with fault := some (0x0D, 0x410) }
    else
      let id := w.nextId
      let w := w.setWalk { k with rdAcc := some id }
      w.hubAccess (.walk k.page) 11 0 255 (a % 2 ^ 32) .rd 8 []
  else if w.ownWindow a then w.setWalk { k with fault := some (0x0D, 0x410) }
  else
    let id := w.nextId
    let w := w.setWalk { k with rdAcc := some id }
    let w := (w.setAcc id { owner := .walk k.page, remote := true, kind := .rd, chip := 256, addr := a, len := 8,
                            data := List.replicate 8 0, parts := 1, born := w.time }).bumpId
    w.hostGo id a

/-- Start the walk of a page (R331, R332, R335). -/
def walkStart (w : Chip) (page : Nat) : Chip :=
  let k : Walk := { page := page, lm := w.flag Addr.htRoot F.htRoot_SPACE }
  let w := (w.bump Addr.htMisses)
  let w := { w with ht := { w.ht with walks := w.ht.walks ++ [k] } }
  if 2 ^ 27 ≤ page then w.setWalk { k with fault := some (0x0C, 0x404) }
  else if !w.flag Addr.htRoot F.htRoot_VALID then w.setWalk { k with fault := some (0x0C, 0x406) }
  else w.walkRead k (w.fld Addr.htRoot F.htRoot_ADDR * 4096)

/-- An entry has been read (R329, R332): the next level, the leaf, or a fault. -/
def walkEntry (w : Chip) (k : Walk) (a : Acc) : Chip :=
  let e := leNat a.data
  let zero := bits e 11 3 == 0 && bits e 63 52 == 0 &&
    (k.lvl == 3 || (bits e 2 1 == 0 && (!k.lm || bits e 51 40 == 0)))
  if a.fault != 0 then w.setWalk { k with fault := some (0x0C, 0x401), rdAcc := none }
  else if !bit e 0 then w.setWalk { k with fault := some (0x0C, 0x402), rdAcc := none }
  else if !zero then w.setWalk { k with fault := some (0x0C, 0x405), rdAcc := none }
  else if k.lvl = 3 then w.setWalk { k with leaf := some e, rdAcc := none }
  else w.walkRead { k with lvl := k.lvl + 1, rdAcc := none } (bits e 51 12 * 4096)

/-- The accesses that wait for a page. -/
def xlWaiting (w : Chip) (page : Nat) : List Nat :=
  (w.ht.xl.filter fun p => p.2.page == page && p.2.pend).map fun p => p.1

/-- The accesses that walk `k` serves: those that wait for its page; where an invalidation met the walk, those that waited at
that moment (R334). The others wait for a new walk. -/
def walkServes (w : Chip) (k : Walk) : List Nat :=
  (w.xlWaiting k.page).filter fun id => !k.covered || w.ht.inv.contains id

/-- These accesses no longer wait for a translation. -/
def xlServed (w : Chip) (ids : List Nat) : Chip :=
  { w with ht := { w.ht with xl := w.ht.xl.map fun p => if ids.contains p.1 then (p.1, { p.2 with pend := false }) else p } }

end Chip

open Chip

/-- TRANSLATION_WALK (R331, R335): a miss starts a walk, of at most eight, or goes untranslated where BYPASS has been set
meanwhile; and a walk whose entry has been read goes to its next level. -/
def translationWalk (page : Nat) (w : Chip) : Chip :=
  if !w.live then w
  else match w.walkOf? page with
    | none =>
      if w.flag Addr.htCtrl F.htCtrl_BYPASS then
        (w.xlWaiting page).foldl (fun w id => w.hostGo id (w.acc id).addr) (w.xlServed (w.xlWaiting page))
      else if !(w.xlWaiting page).isEmpty && w.ht.walks.length < 8 then w.walkStart page
      else w
    | some k =>
      match k.rdAcc with
      | none => w
      | some id =>
        let a := w.acc id
        if a.done then (w.dropAcc id).walkEntry k a else w
def execTranslationWalk (page : Nat) (s : State) : Out := s.onChip (translationWalk page)

/-- TRANSLATION_WALK_COMPLETE (R331, R332, R334): the walk's result serves the accesses that wait for its page; a leaf
that permits each of them is installed in the TLB, unless an invalidation met the walk. -/
def translationWalkComplete (page : Nat) (w : Chip) : Chip :=
  if !w.live then w
  else match w.walkOf? page with
    | none => w
    | some k =>
      let ids := w.walkServes k
      let gone (w : Chip) : Chip :=
        ({ w with ht := { w.ht with walks := w.ht.walks.filter fun x => x.page != page } } : Chip).xlServed ids
      let bad (w : Chip) : Chip := (w.bump Addr.htFaults).setFlag Addr.htStatus F.htStatus_WALK_ERR true
      match k.fault, k.leaf with
      | some (c, d), _ => ids.foldl (fun w id => w.failAcc id c d) (bad (gone w))
      | none, some e =>
        let t : TlbEnt := ⟨page, bits e 51 12, bit e 1, bit e 2⟩
        let ok := ids.all fun id => match (w.acc id).kind with | .rd => t.rd | _ => t.wr
        let w := gone w
        let w := if ok then
            if k.covered then w
            else { w with ht := { w.ht with tlb := (t :: w.ht.tlb.filter fun x => x.page != page).take 256 } }
          else bad w
        ids.foldl (fun w id => w.hostWith id t) w
      | none, none => w
def execTranslationWalkComplete (page : Nat) (s : State) : Out := s.onChip (translationWalkComplete page)

/-! ## Invalidation (R334) -/

/-- An invalidation of the pages that `sel` covers starts, or INV_LOST records that one is in progress. -/
def Chip.htInvalidate (w : Chip) (sel : Nat → Bool) : Chip :=
  if !w.live then w
  else if w.flag Addr.htInv F.htInv_BUSY then w.setFlag Addr.htStatus F.htStatus_INV_LOST true
  else
    let w := w.pruneXl
    let walked (p : Nat) : Bool := w.ht.walks.any fun k => k.page == p
    let inv := (w.ht.xl.filter fun p => sel p.2.page && (!p.2.pend || walked p.2.page)).map fun p => p.1
    let w := w.setFlag Addr.htInv F.htInv_BUSY true
    { w with ht := { w.ht with
        tlb := w.ht.tlb.filter fun e => !sel e.page
        walks := w.ht.walks.map fun k => if sel k.page then { k with covered := true } else k
        inv := inv } }

/-- HT_INV_ALL (R334): a GO with MODE 1. -/
def execHtInvAll (s : State) : Out :=
  s.onChip fun w => if w.live then (w.setFld Addr.htInv F.htInv_MODE 1).htInvalidate fun _ => true else w

/-- HT_INV_PAGE (R334): a GO with MODE 2, for the page of HT_INV_ADDR. -/
def execHtInvPage (s : State) : Out :=
  s.onChip fun w =>
    if w.live then (w.setFld Addr.htInv F.htInv_MODE 2).htInvalidate fun p => p == w.fld Addr.htInvAddr F.htInvAddr_PAGE
    else w

/-- HT_INV_COMPLETE (R334): every access that used a dropped translation is complete. -/
def htInvComplete (w : Chip) : Chip :=
  if w.live && w.flag Addr.htInv F.htInv_BUSY && w.ht.inv.all (fun id => match spFind? w.accs id with
      | some a => a.done
      | none => true) then
    { w.setFlag Addr.htInv F.htInv_BUSY false with ht := { w.ht with inv := [] } }
  else w
def execHtInvComplete (s : State) : Out := s.onChip htInvComplete

/-! ## Completions of host reads -/

/-- A host read request leaves the endpoint; the first one that waits to be sent takes its place. While the endpoint may make
no host access, those that wait fail with DETAIL BUS_MASTER_OFF (R327). -/
def Chip.readGone (w : Chip) (tag : Nat) : Chip :=
  let rs := spErase w.pcie.reads tag
  let unsent := rs.filter fun p => !p.2.sent
  if w.busMaster then
    let rs := match unsent with
      | p :: _ => spInsert rs p.1 { p.2 with sent := true, born := w.time }
      | [] => rs
    { w with pcie := { w.pcie with reads := rs } }
  else unsent.foldl (fun (w : Chip) p => w.partEnded p.2.acc 0x0E 0x426)
    { w with pcie := { w.pcie with reads := rs.filter fun p => p.2.sent } }

/-- The DETAIL of a completion's error status (Table DMA-3): 1 Unsupported Request, 2 Completer Abort, else poisoned. -/
def completionDetail (status : Nat) : Nat := if status = 1 then 0x420 else if status = 2 then 0x421 else 0x423

/-- HOST_READ_COMPLETION (R325): data for the bytes from `pos` on of a host read request, or an error status. -/
def hostReadCompletion (tag status pos : Nat) (data : List Byte) (w : Chip) : Chip :=
  match spFind? w.pcie.reads tag with
  | none => w
  | some r =>
    if !w.live || !r.sent then w
    else if status != 0 then (w.readGone tag).partEnded r.acc 0x0E (completionDetail status)
    else if data.isEmpty || r.len < pos + data.length || r.left < data.length then w
    else
      let w := match spFind? w.accs r.acc with
        | some a => w.setAcc r.acc { a with data := patch a.data (r.pos + pos) data }
        | none => w
      if r.left = data.length then (w.readGone tag).partEnded r.acc 0 0
      else { w with pcie := { w.pcie with reads := spInsert w.pcie.reads tag { r with left := r.left - data.length } } }
def execHostReadCompletion (tag status pos : Nat) (data : List Byte) (s : State) : Out :=
  s.onChip (hostReadCompletion tag status pos data)

/-- COMPLETION_TIMEOUT (R514): 40 ms after a read request, at the default setting. -/
def completionTimeout (tag : Nat) (w : Chip) : Chip :=
  match spFind? w.pcie.reads tag with
  | none => w
  | some r =>
    if w.live && r.sent && decide (r.born + 40000000 ≤ w.time) then (w.readGone tag).partEnded r.acc 0x0E 0x422 else w
def execCompletionTimeout (tag : Nat) (s : State) : Out := s.onChip (completionTimeout tag)

end Sys2Proof.Machine
end

