-- ==== Sys2Proof/Machine/EvBase.lean ====
section
/-! DEFINITION. What the queue engine and the event controller share (11_queue_engine.md, 13_event_controller.md):
queues as their descriptors give them, the inputs and payloads of event sources, source states, and target interrupts. -/

namespace Sys2Proof.Machine

namespace Chip

/-- A queue's threshold condition holds (R307). -/
def thrHolds (w : Chip) (q : Nat) : Bool :=
  match w.fld (Addr.qThr q) F.qThr_MODE with
  | 1 => decide (w.fld (Addr.qThr q) F.qThr_LEVEL ≤ w.qDepth q)
  | 2 => decide (w.qDepth q ≤ w.fld (Addr.qThr q) F.qThr_LEVEL)
  | _ => false

/-- Some queue whose condition names SRC `k` holds it (R307). -/
def thrSource (w : Chip) (k : Nat) : Bool :=
  w.regs.any fun p => decide (0x4000000 ≤ p.1) && decide (p.1 < 0x4100000) && p.1 % 64 == 16 &&
    (let q := (p.1 - 0x4000000) / 64; w.fld (Addr.qThr q) F.qThr_SRC == k && w.thrHolds q)

/-- Some queue has RING_ERR or CFG_BAD set (R308). -/
def qErrors (w : Chip) : Bool :=
  w.regs.any fun p => decide (0x4100000 ≤ p.1) && decide (p.1 < 0x4200000) && p.1 % 64 == 16 &&
    bits p.2.toNat 2 1 != 0

/-! ## Inputs and payloads of event sources -/

/-- Milliseconds left of the chip watchdog (R587). -/
def wdLeft (w : Chip) : Nat :=
  if w.frozen then 0
  else (w.wd.fedAt + w.fld Addr.wdCfg F.wdCfg_PERIOD_MS * 1000000 + 999999 - w.time) / 1000000

/-- The input of core source `k` of core `n` (Table EVT-2). -/
def coreInput (w : Chip) (n k : Nat) : Bool :=
  let bg (f : Fld) : Bool := [0, 1, 2, 3].any fun g => w.flag (Addr.bgStatus n g) f
  if k < 4 then w.slotState n k == slFaulted || w.slotState n k == slNoFrame
  else if k < 8 then
    (w.slot n (k - 4)).missHigh && w.dlMissed n (k - 4) && (w.slotState n (k - 4) == slActive || w.slotState n (k - 4) == slWaiting)
  else match k with
    | 8 => w.flag (Addr.fsnapInfo n) F.fsnapInfo_VALID
    | 9 => w.flag (Addr.vxStatus n) F.vxStatus_ERR
    | 10 => w.flag (Addr.mxStatus n) F.mxStatus_ERR
    | 11 => w.flag (Addr.rlcStatus n) F.rlcStatus_PERR || w.flag (Addr.sfStatus n) F.sfStatus_TRACKER_FULL
    | 12 => bg F.bgStatus_STARVED || bg F.bgStatus_NOSLOT
    | 13 => bg F.bgStatus_CE
    | 14 => bg F.bgStatus_UE
    | _ => false

/-- TJ.MAX in degrees. -/
def tjMax (w : Chip) : Int := signed 16 (w.fld Addr.tj F.tj_MAX)

/-- The input that a block presents for source `s` (Table EVT-1; R225, R307, R291, R416, R542, R465, R585, R571, R600).
A source that no block drives reads 0. -/
def srcInput (w : Chip) (s : Nat) : Bool :=
  if s < 0x400 then w.coreInput (s / 16) (s % 16)
  else if s < 0x5FF then w.thrSource (s - 0x400)
  else if s = 0x5FF then w.qErrors
  else if s < 0x800 then
    let n := s - 0x600
    bits (w.rd (Addr.ccStatus n)) 2 0 != 0 || w.pairBad n
  else if s < 0x900 then
    let p := (s - 0x800) / 32
    let st := w.fld (Addr.lnkState p) F.lnkState_STATE
    match (s - 0x800) % 32 with
    | 0 => st == 0 || st == 1 || st == 5
    | 1 => w.rd (Addr.lnkErr p) != 0
    | 2 => st == 4
    | 3 => st == 5
    | _ => false
  else if s < 0x910 then bit (w.rd Addr.gpioIn) (s - 0x900)
  else if 0x920 ≤ s ∧ s < 0x923 then
    w.flag (Addr.audStatus (s - 0x920)) F.audStatus_OVERRUN || w.flag (Addr.audStatus (s - 0x920)) F.audStatus_FRAMING
  else if 0x928 ≤ s ∧ s < 0x92B then spGet (fun _ => false) w.audLevel (s - 0x928)
  else if 0x9F0 ≤ s ∧ s < 0x9F8 then w.fld (Addr.mbState (s - 0x9F0)) F.mbState_STATE == 3
  else if 0xA00 ≤ s ∧ s < 0xA20 then w.flag (Addr.irisStatus (s - 0xA00)) F.irisStatus_ALARM
  else match s with
    | 0x910 => w.pcie.linkUp
    | 0x911 => w.rd Addr.hostStatus != 0
    | 0x912 => !w.pins.perstN
    | 0x918 => w.rd Addr.qtStatus != 0
    | 0x930 => w.rd Addr.pmbStatus != 0
    | 0x931 => w.railAlarm
    | 0x9F8 => w.fld Addr.stwStatus F.stwStatus_PHASE == 5
    | 0x9F9 => w.flag Addr.stwStatus F.stwStatus_READY
    | 0xA40 => decide (w.fld Addr.vcoreStatus F.vcoreStatus_CEILING_MV < 900)
    | 0xA41 => w.flag Addr.pwrStatus F.pwrStatus_TRIPPED
    | 0xA42 => w.flag Addr.pwrStatus F.pwrStatus_BROWNOUT || w.flag Addr.pwrStatus F.pwrStatus_VCORE_LOST
    | 0xA43 => w.flag Addr.pwrStatus F.pwrStatus_WAKE_REFUSED
    | 0xA44 => w.fld Addr.pwrState F.pwrState_STATE == 0
    | 0xA45 =>
      let al := w.cfg Addr.thermCfg F.thermCfg_SPX_ALARM
      al != 0 && decide (w.fld Addr.spx F.spx_CORE < al) && w.fld Addr.pwrState F.pwrState_STATE == 0
    | 0xA46 => decide ((w.cfg Addr.thermCfg F.thermCfg_TJ_ALARM : Int) ≤ w.tjMax)
    | 0xA80 => w.flag Addr.tbStatus F.tbStatus_REF_LOST || w.flag Addr.tbStatus F.tbStatus_HOLDOVER
    | 0xA81 => decide (4 * w.wdLeft < w.fld Addr.wdCfg F.wdCfg_PERIOD_MS)
    | 0xA82 => w.frozen
    | 0xA83 => w.flag Addr.snapInfo F.snapInfo_VALID
    | 0xA84 => w.flag Addr.chipEcc F.chipEcc_CE
    | 0xA85 => w.rd Addr.jrnlStatus != 0
    | _ => false

/-- The payload presented with the input of source `s` (R345). -/
def srcPayloadNow (w : Chip) (s : Nat) : Nat :=
  if 0x800 ≤ s ∧ s < 0x900 then w.fld (Addr.lnkState ((s - 0x800) / 32)) F.lnkState_STATE
  else if 0x928 ≤ s ∧ s < 0x92B then w.rd (Addr.audBlocks (s - 0x928)) % 2 ^ 32
  else match s with
    | 0x910 => b2n w.pcie.linkUp + w.pcie.speed % 8 * 2 + w.pcie.width % 16 * 2 ^ 4
    | 0xA40 | 0xA41 | 0xA43 | 0xA46 => w.fld Addr.tj F.tj_MAX
    | 0xA45 => w.fld Addr.spx F.spx_CORE
    | 0xA81 => w.wdLeft
    | 0xA82 => w.wd.cause
    | 0xA83 => w.fld Addr.snapInfo F.snapInfo_CAUSE
    | _ => w.srcPayload s

/-! ## Source states -/

def evSrc (w : Chip) (s : Nat) : EvSrc := spGet (fun _ => {}) w.evt.srcs s
def setEvSrc (w : Chip) (s : Nat) (x : EvSrc) : Chip :=
  { w with evt := { w.evt with srcs := spPut (fun _ => {}) w.evt.srcs s x } }

/-- A software source (R346). -/
def swSource (s : Nat) : Bool := decide (0xAC0 ≤ s) || (decide (s < 0x400) && s % 16 == 15)

/-- SENSE of a source (Table EVT-3). -/
def sense (w : Chip) (s : Nat) : Nat := w.cfg (Addr.srcCfg s) F.srcCfg_SENSE

/-- A source whose block is Switched and unpowered (R373). -/
def srcAsleep (w : Chip) (s : Nat) : Bool :=
  !w.switchedOn && ((decide (16 ≤ s) && decide (s < 0x400)) || (decide (0x800 ≤ s) && decide (s < 0x900)))

/-- The input that the controller senses: while its block is unpowered in Sleep it is held at the inactive value of a
level mode, and unchanged for an edge mode (R373). -/
def sensedInput (w : Chip) (s : Nat) : Bool :=
  if w.srcAsleep s then
    match w.sense s with
    | 0 => false
    | 1 => true
    | _ => (w.evSrc s).sensed
  else w.srcInput s

/-- The sources of Switched blocks (Table EVT-1). -/
def switchedSources : List Nat := (List.range 0x3F0).map (16 + ·) ++ (List.range 256).map (0x800 + ·)

/-- The hold of R373 ends: an edge-mode input returns at what its block now drives, without an edge. -/
def releaseInputs (w : Chip) : Chip :=
  switchedSources.foldl (fun (w : Chip) s =>
    let x := w.evSrc s
    if 2 ≤ w.sense s && w.srcInput s != x.sensed then w.setEvSrc s { x with sensed := w.srcInput s } else w) w

/-- The level request of a source is asserted (Table EVT-3). -/
def levelOn (w : Chip) (s : Nat) : Bool :=
  !swSource s && (match w.sense s with | 0 => w.sensedInput s | 1 => !w.sensedInput s | _ => false)

/-- One edge event with a payload (R347, R348). -/
def edgeEvent (w : Chip) (s payload : Nat) : Chip :=
  let x := w.evSrc s
  let p := payload % 2 ^ 32
  if x.state = 0 then
    w.setEvSrc s { x with state := 1, payload := p, time := w.time, level := false, replay := false, counted := false,
                          withdrawn := false, stalled := [] }
  else if x.rep = 255 then w.setEvSrc s { x with sat := true, replayPayload := p }
  else w.setEvSrc s { x with rep := x.rep + 1, replayPayload := p }

/-- A level input is asserted (R347). -/
def levelEvent (w : Chip) (s : Nat) : Chip :=
  let x := w.evSrc s
  if x.state = 0 then
    w.setEvSrc s { x with state := 1, payload := w.srcPayloadNow s, time := w.time, level := true, replay := false,
                          counted := false, withdrawn := false, stalled := [] }
  else w

/-- A request is withdrawn (R357). -/
def withdraw (w : Chip) (s : Nat) : Chip :=
  let x := w.evSrc s
  match x.state with
  | 1 => w.setEvSrc s { x with state := 0, rep := 0, sat := false, level := false, replay := false, counted := false }
  | 2 => w.setEvSrc s { x with rep := 0, sat := false, withdrawn := true }
  | _ => w

/-- A source completes and is re-sampled (R360). -/
def completeSrc (w : Chip) (s : Nat) : Chip :=
  let x := w.evSrc s
  if x.rep != 0 then
    w.setEvSrc s { x with state := 1, payload := x.replayPayload, time := w.time, level := false, replay := true,
                          counted := true, withdrawn := false, stalled := [] }
  else if w.levelOn s then
    w.setEvSrc s { x with state := 1, payload := w.srcPayloadNow s, time := w.time, level := true, replay := true,
                          counted := false, withdrawn := false, stalled := [] }
  else w.setEvSrc s { x with state := 0, level := false, replay := false, counted := false, withdrawn := false }

/-! ## Targets -/

def evTgt (w : Chip) (t : Nat) : EvTgt := spGet (fun _ => {}) w.evt.tgts t
def setEvTgt (w : Chip) (t : Nat) (x : EvTgt) : Chip :=
  { w with evt := { w.evt with tgts := spPut (fun _ => {}) w.evt.tgts t x } }

/-- INT[t] (R364). -/
def tgtInt (w : Chip) (t : Nat) : Bool := w.flag (Addr.tgtStatus t) F.tgtStatus_INT

/-- A vector's Vector Control mask bit; every vector is masked at reset (R515). -/
def vecMasked (w : Chip) (v : Nat) : Bool := bit (spGet (fun k => if k % 4 = 3 then 1 else 0) w.pcie.vectors (4 * v + 3)) 0

/-- A vector may send its message (R368, R512, R513). -/
def vecOpen (w : Chip) (v : Nat) : Bool := w.busMaster && w.pcie.msixEn && !w.pcie.funcMask && !w.vecMasked v

/-- INT of host target 65 + v rises with IRQ = 0: one message, or the pending bit (R368, R513). -/
def msixRise (w : Chip) (v : Nat) : Chip :=
  if w.vecOpen v then w.transmit (.msix v)
  else { w with pcie := { w.pcie with pba := spPut (fun _ => false) w.pcie.pba v true } }

/-- The controller signals local counter SIG_LC of core `t` (R366); a refusal sets SIG_REFUSED. -/
def evSignal (w : Chip) (t amount : Nat) : Chip :=
  let bad (w : Chip) : Chip := w.setFlag (Addr.tgtStatus t) F.tgtStatus_SIG_REFUSED true
  if !w.coreUp t then bad w
  else match w.lcAdd t (w.cfg (Addr.tgtCfg t) F.tgtCfg_SIG_LC) amount with
    | .done w => w
    | .refused w => bad w
    | .hold => bad (w.bump (Addr.seqSigRefused t))

/-- A core target that signals its records (R366). -/
def signals (w : Chip) (t : Nat) : Bool := decide (t < 64) && w.cfg (Addr.tgtCfg t) F.tgtCfg_SIG_EN == 1

/-- INT[t] becomes 1 (R364, R366, R368). -/
def raiseInt (w : Chip) (t : Nat) : Chip :=
  let x := w.evTgt t
  let w := (w.setFlag (Addr.tgtStatus t) F.tgtStatus_INT true).setEvTgt t { x with timer := none }
  if w.signals t then (w.setEvTgt t { x with timer := none, sinceSig := 0 }).evSignal t x.sinceSig
  else if 65 ≤ t ∧ w.cfg (Addr.tgtCfg t) F.tgtCfg_IRQ = 0 then w.msixRise (t - 65)
  else w

/-- A record has been committed to target `t`'s queue (R364, R366). -/
def recordCommitted (w : Chip) (t q : Nat) : Chip :=
  let w := w.bump (Addr.tgtRecords t)
  let x := w.evTgt t
  let first := w.qDepth q == 1
  let coalT := w.cfg (Addr.tgtCfg t) F.tgtCfg_COAL_T
  let n := if first then 1 else x.count + 1
  let w := w.setEvTgt t
    { count := n, timer := if first && coalT != 0 then some (w.time + coalT) else x.timer, sinceSig := x.sinceSig + 1 }
  if w.tgtInt t then
    if w.signals t then (w.setEvTgt t { w.evTgt t with sinceSig := 0 }).evSignal t 1 else w
  else if max 1 (w.cfg (Addr.tgtCfg t) F.tgtCfg_COAL_N) ≤ n then w.raiseInt t
  else w

/-- The queue of target `t` is empty (R364, R513). -/
def targetEmptied (w : Chip) (t : Nat) : Chip :=
  let w := (w.setFlag (Addr.tgtStatus t) F.tgtStatus_INT false).setEvTgt t { w.evTgt t with count := 0, timer := none }
  if 65 ≤ t then { w with pcie := { w.pcie with pba := spPut (fun _ => false) w.pcie.pba (t - 65) false } } else w

/-- Sources in service on queue `q` that satisfy `sel` complete (R359). -/
def completeOn (w : Chip) (q : Nat) (sel : Nat → EvSrc → Bool) : Chip :=
  ((w.evt.srcs.filter fun p => p.2.state == 3 && p.2.queue == q && sel p.1 p.2).map fun p => p.1).foldl
    (fun w s => w.completeSrc s) w

/-- The consumer index of queue `q` has advanced (R359, R364): CONSUME sources whose record it has passed complete, and
an emptied EVENT queue lowers its target's interrupt. -/
def queueConsumed (w : Chip) (q : Nat) : Chip :=
  if w.qType q = 3 then
    let c := w.qCons q
    let w := w.completeOn q fun s x =>
      w.cfg (Addr.srcCfg s) F.srcCfg_COMP == 1 && decide ((c + 2 ^ 32 - x.index - 1) % 2 ^ 32 < 2 ^ 31)
    if w.qDepth q = 0 then w.targetEmptied (w.qBind q) else w
  else w

/-- The depth probe (QUEUE_DEPTH of Table FLT-1). -/
def depthSample (w : Chip) (q : Nat) : Chip := w.irisSample 0x03 (fun sel => bits sel 13 0 == q) (w.qDepth q : Nat)

end Chip

end Sys2Proof.Machine
end

