-- ==== Sys2Proof/Machine/Queue.lean ====
section
/-! DEFINITION. The queue engine (11_queue_engine.md): pushes, pops, takes, fetches, record writes and doorbell writes,
one at a time per queue (R298); the hold list; the queue commands of a context (R251 to R254). -/

namespace Sys2Proof.Machine

/-- The 64-bit word `i` of a run of bytes. -/
def wordOf (d : List Byte) (i : Nat) : Nat := leNat (slice d (8 * i) 8)

namespace Chip

/-! ## Operations in progress -/

def qOp? (w : Chip) (q : Nat) : Option QOp := spFind? w.que.ops q
def setQOp (w : Chip) (q : Nat) (o : QOp) : Chip := { w with que := { w.que with ops := spInsert w.que.ops q o } }
def dropQOp (w : Chip) (q : Nat) : Chip := { w with que := { w.que with ops := spErase w.que.ops q } }
def addWait (w : Chip) (r : QReq) : Chip := { w with que := { w.que with wait := w.que.wait ++ [r] } }

/-- Address of the entry of index `i` (R295). -/
def entryAddr (w : Chip) (q i : Nat) : Nat := w.cfg (Addr.qRingAddr q) F.qRingAddr_ADDR + i % w.qN q * w.qE q

/-- A ring access (R296): through the owning core's remote port, or to host memory. -/
def ringAcc (w : Chip) (q i : Nat) (kind : AccKind) (data : List Byte) : Chip :=
  let a := w.entryAddr q i
  if w.cfg (Addr.qQcfg q) F.qQcfg_SPACE = 1 then w.hostAcc (.qop q) 0 kind (a % 2 ^ 64) (w.qE q) data
  else w.hubAccess (.qop q) 8 0 (a % 2 ^ 40 / 2 ^ 32) (a % 2 ^ 32) kind (w.qE q) data

/-- Start an operation: its ring access begins. -/
def startOp (w : Chip) (q : Nat) (o : QOp) (kind : AccKind) : Chip :=
  (w.setQOp q { o with acc := w.nextId }).ringAcc q o.index kind o.data

/-- The queue engine may start an operation on queue `q` (R298). -/
def qIdle (w : Chip) (q : Nat) : Bool := (w.qOp? q).isNone && decide (w.que.ops.length < 32)

/-- A failed ring access (R306): RING_ERR, and Q_ERR_LOG if its VALID is 0. -/
def ringErr (w : Chip) (q code op index : Nat) : Chip :=
  let w := w.setFlag (Addr.qStatus q) F.qStatus_RING_ERR true
  let a := Addr.qErrLog q
  if w.flag a F.qErrLog_VALID then w
  else
    let w := w.setReg a (code + op * 2 ^ 8 + 2 ^ 16 + index * 2 ^ 32)
    w.notice { kind := 10, code := code, time := w.time, data := toLE 8 (w.rd a) }

/-- An entry of queue `q` has been committed: its bound context is ready again (R206, R303). -/
def entryCommitted (w : Chip) (q : Nat) : Chip :=
  if w.qType q = 1 then
    let n := w.qBind q % 64
    let c := w.qBind q / 64 % 4
    let b := Addr.ctxQbind n c
    if w.slotState n c == slWaiting && w.waitKind n c == 5 && w.flag b F.ctxQbind_BOUND && w.fld b F.ctxQbind_QUEUE == q then
      w.condTrue n c
    else w
  else w

def setProd (w : Chip) (q v : Nat) : Chip := w.setFld (Addr.qIndex q) F.qIndex_PROD v
def setCons (w : Chip) (q v : Nat) : Chip := w.setFld (Addr.qIndex q) F.qIndex_CONS v

/-- CONS advances past the entry delivered (R300). -/
def consumed (w : Chip) (q v : Nat) : Chip := ((w.setCons q v).queueConsumed q).depthSample q

/-- The entry of index `i` that a pop read has been delivered; its ring may have been lost meanwhile (R312). -/
def popped (w : Chip) (q i : Nat) : Chip := if w.qCons q = i then w.consumed q (i + 1) else w

/-! ## Refusals -/

/-- Refuse a push or pop with a DETAIL of Table CMD-10. -/
def qRefuse (w : Chip) (q : Option Nat) (m : Msg) (detail : Nat) : Chip :=
  let w := match q with | some q => w.bump (Addr.qRefusedCount q) | none => w
  w.answer .hub m .writeAck 9 detail []

/-- Why a push is refused (Table CMD-10, Table QUE-1, R299). A QUEUE_PUSH to a DMA queue whose producer side is ENGINE is
performed, and its entry has no tag (log entry 29). -/
def pushRefusal (w : Chip) (q : Nat) : Option Nat :=
  let t := w.qType q
  if t = 0 then some 0x303
  else if t = 3 ∨ w.cfg (Addr.qQcfg q) F.qQcfg_PMODE = 1 then some 0x302
  else if w.qDepth q = w.qN q then some 0x300
  else none

/-- Why a pop is refused (Table CMD-10, Table QUE-1, R300). -/
def popRefusal (w : Chip) (q : Nat) : Option Nat :=
  let t := w.qType q
  if t = 0 then some 0x303
  else if t = 1 ∨ t = 2 ∨ w.cfg (Addr.qQcfg q) F.qQcfg_CMODE = 1 then some 0x302
  else if w.qDepth q = 0 then some 0x301
  else none

/-- The queue that a push or pop names (R251, R292). -/
def msgQueue? (w : Chip) (m : Msg) : Option Nat :=
  if m.arg = 1 then w.dmaQueue? m.srcCore m.pos else some (m.addr % 16384)

/-! ## Performing an operation in its turn -/

/-- A push (R299): refused, or its entry is written at PROD. -/
def performPush (w : Chip) (q : Nat) (r : MsgRec) : Chip :=
  match w.pushRefusal q with
  | some d => w.qRefuse (some q) r.msg d
  | none => w.startOp q { kind := 0, msg := some r, index := w.qProd q, data := r.msg.data.take (w.qE q) } .wr

/-- A pop (R300): refused, or the entry at CONS is read. -/
def performPop (w : Chip) (q id : Nat) (r : MsgRec) : Chip :=
  match w.popRefusal q with
  | some d => w.qRefuse (some q) r.msg d
  | none => w.startOp q { kind := 1, msg := some r, src := id, index := w.qCons q } .rd

/-- An ignored doorbell write (R302). -/
def dbIgnored (w : Chip) (q : Nat) : Chip :=
  (w.setFlag (Addr.qStatus q) F.qStatus_DB_BAD true).bump (Addr.qDbBadCount q)

/-- A write of `v` to DB_PROD in its turn (R302). -/
def performDbProd (w : Chip) (q v : Nat) : Chip :=
  let p := w.qProd q
  if v % 2 ^ 32 = p then w
  else if w.qType q != 0 && w.cfg (Addr.qQcfg q) F.qQcfg_PMODE == 1 &&
      decide ((v + 2 ^ 32 - p) % 2 ^ 32 ≤ w.qN q - w.qDepth q) then
    ((w.setProd q v).entryCommitted q).depthSample q
  else w.dbIgnored q

/-- A write of `v` to DB_CONS in its turn (R302). -/
def performDbCons (w : Chip) (q v : Nat) : Chip :=
  let c := w.qCons q
  if v % 2 ^ 32 = c then w
  else if w.qType q != 0 && w.cfg (Addr.qQcfg q) F.qQcfg_CMODE == 1 &&
      decide ((v + 2 ^ 32 - c) % 2 ^ 32 ≤ w.qDepth q) then
    w.consumed q v
  else w.dbIgnored q

/-- The 16 bytes of the record of source `s` (Table EVT-4, R357). -/
def recordBytes (w : Chip) (s : Nat) : List Byte :=
  let x := w.evSrc s
  let spur := x.withdrawn
  let sat := if spur then x.selSat else x.sat
  let payload := if spur then x.selPayload else if x.counted then x.replayPayload else x.payload
  toLE 2 ((if spur then 0xFFF else s) + b2n sat * 2 ^ 12 + b2n spur * 2 ^ 13 + b2n x.level * 2 ^ 14 + b2n x.replay * 2 ^ 15) ++
  toLE 1 (if spur then 0 else if x.counted then x.rep else 1) ++
  toLE 1 (if spur then 0x3F else s / 64) ++
  toLE 6 x.time ++ toLE 2 (x.target + x.slot * 2 ^ 9) ++ toLE 4 payload

/-- A record write that was refused or faulted (R358): the source returns to PENDING; a spurious record is dropped. -/
def recordFailed (w : Chip) (s : Nat) : Chip :=
  let x := w.evSrc s
  let w := (w.setFlag (Addr.tgtStatus x.target) F.tgtStatus_ERR true).setFlag Addr.evtStatus F.evtStatus_WRITE_ERR true
  if x.withdrawn then
    w.setEvSrc s { x with state := 0, rep := 0, sat := false, level := false, replay := false, counted := false, withdrawn := false }
  else w.setEvSrc s { x with state := 1 }

/-- A record write in its turn (R356, R358): its entry is written at PROD. -/
def performRecord (w : Chip) (q s : Nat) : Chip :=
  if w.qType q = 3 ∧ w.qDepth q < w.qN q then
    w.startOp q { kind := 4, src := s, index := w.qProd q, data := w.recordBytes s } .wr
  else w.recordFailed s

/-- Perform request `r` in its turn. -/
def qPerform (w : Chip) (r : QReq) : Chip :=
  match r.kind, r.msg with
  | .push, some m => w.performPush r.q m
  | .pop, some m => w.performPop r.q r.v m
  | .record, _ => w.performRecord r.q r.v
  | .dbProd, _ => w.performDbProd r.q r.v
  | .dbCons, _ => w.performDbCons r.q r.v
  | _, _ => w

/-- Pushes and pops that have reached the hub for queue `q`. -/
def qMsgs (w : Chip) (q : Nat) : List (Nat × MsgRec) :=
  w.net.msgs.filter fun p => p.2.stage == .hub && (p.2.msg.op == Op.queuePush || p.2.msg.op == Op.queuePop) &&
    w.msgQueue? p.2.msg == some q

/-- Nothing for queue `q` reached the engine before `stamp` and still waits (R298). -/
def qFirst (w : Chip) (q stamp : Nat) : Bool :=
  (w.que.wait.all fun r => r.q != q || decide (stamp ≤ r.stamp)) && ((w.qMsgs q).all fun p => decide (stamp ≤ p.2.stamp))

/-- The waiting request of queue `q` that reached the engine first. -/
def qHead? (w : Chip) (q : Nat) : Option QReq :=
  match w.que.wait.filter fun r => r.q == q with
  | [] => none
  | x :: rest => some (rest.foldl (fun b r => if r.stamp < b.stamp then r else b) x)

/-- Perform the requests that wait in the engine for queue `q`, in order, until one is in progress or a message that
reached it earlier comes first. -/
def qDrain (w : Chip) (q : Nat) : Nat → Chip
  | 0 => w
  | k + 1 =>
    match w.qHead? q with
    | none => w
    | some r =>
      if w.qHeld q || !w.qIdle q || !w.qFirst q r.stamp then w
      else
        let w := { w with que := { w.que with wait := w.que.wait.filter fun x => !(x.q == q && x.stamp == r.stamp) } }
        (w.qPerform r).qDrain q k

/-- What waits for queue `q` goes on, if its turn has come: an operation before it has ended or been refused. -/
def qGoOn (w : Chip) (q : Nat) : Chip := w.qDrain q (w.que.wait.length + 1)

/-- The operation on queue `q` has ended: what waits, for this queue or for one of the 32 operations in progress to end
(R298), is performed in the order in which it came. -/
def qNext (w : Chip) (q : Nat) : Chip :=
  let w := w.dropQOp q
  ((w.que.wait.map fun r => r.q).eraseDups).foldl (fun (w : Chip) k => w.qGoOn k) w

/-- A take or a fetch reaches queue `q` now, and it is the next to be performed (R298). -/
def qMine (w : Chip) (q : Nat) : Bool := !w.qHeld q && w.qIdle q && w.qFirst q w.nextId

/-- An operation arrives at a held queue (R310, R311): it joins the hold list, or answers false when that is full. -/
def hold (w : Chip) (r : QReq) : Chip × Bool :=
  if w.que.held.length < 64 then ({ w with que := { w.que with held := w.que.held ++ [r] } }, true)
  else (w.setFlag (Addr.qStatus r.q) F.qStatus_HELD_REFUSED true, false)

/-- A doorbell or record request reaches the engine: held, performed, or waiting for its turn. -/
def qArrive (w : Chip) (r : QReq) : Chip × Bool :=
  if w.qHeld r.q then w.hold r
  else
    let w := w.addWait r
    (w.qDrain r.q (w.que.wait.length), true)

end Chip

open Chip

/-! ## Pushes -/

/-- QUEUE_PUSH_PERFORM (R299, R304, R310, R311): a push that has reached the queue engine. `ecc` bits of the queue's
index word are in error (R593). -/
def queuePushPerform (id ecc : Nat) (w : Chip) : Chip :=
  w.atHub id .queuePush fun r =>
    match w.msgQueue? r.msg with
    | none => (w.dropMsg id).qRefuse none r.msg 0x303
    | some q =>
      if w.qHeld q then
        let (w, ok) := (w.dropMsg id).hold { q := q, kind := .push, stamp := r.stamp, msg := some r, v := id }
        if ok then w else w.qRefuse (some q) r.msg 0x300
      else if !w.qIdle q || !w.qFirst q r.stamp then w
      else
        let (w, k) := w.chipEcc 1 (q * 8 + 3) ecc
        match k with
        | .good => ((w.dropMsg id).performPush q r).qGoOn q
        | .bad => w
        | .open_ v => (((w.setReg (Addr.qIndex q) v).dropMsg id).performPush q r).qGoOn q
def execQueuePushPerform (msg ecc : Nat) (s : State) : Out := s.onChip (queuePushPerform msg ecc)

/-- QUEUE_PUSH_COMMIT (R299, R306): the entry's write is complete, and PROD advances; a failed write reports to the
pusher. -/
def queuePushCommit (q : Nat) (w : Chip) : Chip :=
  match w.qOp? q with
  | none => w
  | some o =>
    let a := w.acc o.acc
    match o.kind, o.msg with
    | 0, some r =>
      if !w.live || !a.done then w
      else
        let w := w.dropAcc o.acc
        if a.fault != 0 then
          ((w.ringErr q a.fault 0 o.index).answer .hub r.msg .writeAck a.fault a.detail []).qNext q
        else
          let w := if r.msg.arg = 1 then { w with que := { w.que with
              tags := spInsert w.que.tags (q * 2 ^ 32 + o.index) ⟨r.msg.srcSlot, r.msg.fillTag, r.msg.acc⟩ } } else w
          let w := ((w.setProd q (o.index + 1)).answer .hub r.msg .writeAck 0 0 []).dropQOp q
          ((w.entryCommitted q).depthSample q).qNext q
    | _, _ => w
def execQueuePushCommit (queue : Nat) (s : State) : Out := s.onChip (queuePushCommit queue)

/-! ## Pops, takes and fetches -/

/-- QUEUE_POP_PERFORM (R300, R306, R310, R311): a pop that has reached the queue engine is refused, or its entry is read;
an entry that has been read is sent to the core that pops. -/
def queuePopPerform (id : Nat) (w : Chip) : Chip :=
  match w.que.ops.find? fun p => p.2.kind == 1 && p.2.src == id && p.2.answer.isNone with
  | some (q, o) =>
    let a := w.acc o.acc
    match o.msg with
    | some r =>
      if !w.live || !a.done then w
      else
        let w := w.dropAcc o.acc
        if a.fault != 0 then
          ((w.ringErr q a.fault 1 o.index).answer .hub r.msg .writeAck a.fault a.detail []).qNext q
        else (w.setQOp q { o with answer := some w.nextId, data := a.data }).answer .hub r.msg .popAnswer 0 0 a.data
    | none => w
  | none =>
    w.atHub id .queuePop fun r =>
      let q := r.msg.addr % 16384
      if w.qHeld q then
        let (w, ok) := (w.dropMsg id).hold { q := q, kind := .pop, stamp := r.stamp, msg := some r, v := id }
        if ok then w else w.qRefuse (some q) r.msg 0x301
      else if !w.qIdle q || !w.qFirst q r.stamp then w
      else ((w.dropMsg id).performPop q id r).qGoOn q
def execQueuePopPerform (msg : Nat) (s : State) : Out := s.onChip (queuePopPerform msg)

namespace Chip

/-- The entry popped reaches its core, which writes it to DST (R301); the context's operation ends with that write, and so does
a fence that waits for it (R254). -/
def popArrives (w : Chip) (n : Nat) (m : Msg) : Chip :=
  let c := m.srcSlot
  let s := w.slot n c
  let id := w.nextId
  let new (i : Nat) : Nat := if i = m.acc then id else i
  if s.outs.any fun o => o.id == m.acc then
    ((w.dropAcc m.acc).setSlot n c { s with
        outs := s.outs.map fun o => { o with id := new o.id }
        fence := s.fence.map fun ids => ids.map new }).localAcc
      (.seqStore n c) n n 1 .wr (m.pos % 0x100000) m.data.length m.data (ctxStream n c)
  else w

/-- A take delivers bytes 0 to 15 of an entry (R206): CP and S[7], or ILLEGAL_CMD. -/
def takeDeliver (w : Chip) (n c : Nat) (d : List Byte) : Chip :=
  let v := wordOf d 0
  if 2 ^ 20 ≤ v ∨ v % 8 ≠ 0 then
    w.raiseFault n c { code := 1, unit := 0, detail := 3, srcCp := w.cp n c, word0 := v, word1 := wordOf d 1, time := w.time } 0
      false
  else
    let w := (w.setScratch n c 7 (wordOf d 1)).setFlag (Addr.ctxQbind n c) F.ctxQbind_TAKE false
    w.redirect n c v

/-- STATE of a channel (Table DMA-4). -/
def chState (w : Chip) (n h : Nat) : Nat := w.fld (Addr.chStatus n h) F.chStatus_STATE
def setChState (w : Chip) (n h v : Nat) : Chip := w.setFld (Addr.chStatus n h) F.chStatus_STATE v

end Chip

/-- QUEUE_POP_DELIVERED (R300, R306): the delivery of a pop, take or fetch is complete, and CONS advances. A fetched
descriptor with FENCE_PREV stays in its queue while an earlier one is in progress (R314, R315). -/
def queuePopDelivered (q : Nat) (w : Chip) : Chip :=
  match w.qOp? q with
  | none => w
  | some o =>
    if !w.live then w
    else
      let a := w.acc o.acc
      let n := o.core
      match o.kind with
      | 1 =>
        match o.answer with
        | none => w
        | some mid =>
          match w.msgRec? mid with
          | none => (w.popped q o.index).qNext q
          | some r =>
            match r.stage, r.dst with
            | .resp, .core n => (((w.dropMsg mid).popArrives n r.msg).popped q o.index).qNext q
            | _, _ => w
      | 2 =>
        if !a.done then w
        else
          let c := o.slot
          let w := (w.dropAcc o.acc).setSlot n c { w.slot n c with taking := none }
          if a.fault != 0 then
            ((w.ringErr q a.fault 2 o.index).raiseFault n c
              { code := a.fault, unit := 4, detail := a.detail, srcCp := w.cp n c, time := w.time } 0 false).qNext q
          else ((w.takeDeliver n c a.data).consumed q (o.index + 1)).qNext q
      | 3 =>
        if !a.done then w
        else
          let h := o.slot
          let x := w.chan n h
          let w := w.dropAcc o.acc
          let k := q * 2 ^ 32 + o.index
          let d : Desc := { uid := w.nextId, words := (List.range 8).map (wordOf a.data), tag := spFind? w.que.tags k }
          if a.fault != 0 then
            ((w.ringErr q a.fault 3 o.index).setChan n h { x with fetching := false, fetchFault := some (a.fault, a.detail) }).qNext q
          else if x.cur.isSome && bit (wordOf a.data 2) 52 then
            (w.setChan n h { x with fetching := false, fenceHold := true }).qNext q
          else
            let x := { x with fetching := false }
            let w := (w.setChan n h (if x.cur.isNone then { x with cur := some d } else { x with next := some d })).bumpId
            let w := { w with que := { w.que with tags := spErase w.que.tags k } }
            let w := if w.chState n h = 0 then w.setChState n h 1 else w
            (w.consumed q (o.index + 1)).qNext q
      | _ => w
def execQueuePopDelivered (queue : Nat) (s : State) : Out := s.onChip (queuePopDelivered queue)

/-- CONTEXT_TAKE (R206, R294): a bound ACTIVE context with TAKE set takes an entry of its queue, or waits for one. -/
def contextTake (n c : Nat) (w : Chip) : Chip :=
  let s := w.slot n c
  let b := Addr.ctxQbind n c
  let q := w.fld b F.ctxQbind_QUEUE
  if !w.runs n || w.slotState n c != slActive || !w.flag b F.ctxQbind_BOUND || !w.flag b F.ctxQbind_TAKE ||
      s.taking.isSome || s.frame.isSome || s.quiesce != .no || !s.faults.isEmpty || !w.atBoundary n c then w
  else if w.qType q != 1 || w.qBind q != n + c * 64 then
    w.raiseFault n c { code := 9, unit := 4, detail := 0x303, srcCp := w.cp n c, time := w.time } 0 false
  else if !w.qMine q then w
  else if w.qDepth q = 0 then
    ((w.setSlotState n c slWaiting).setFld (Addr.ctxSched n c) F.ctxSched_WAIT_KIND 5).setSlot n c
      { s with waitStart := w.time, notified := false, resend := none }
  else (w.setSlot n c { s with taking := some q }).startOp q { kind := 2, core := n, slot := c, index := w.qCons q } .rd
def execContextTake (core slot : Nat) (s : State) : Out := s.onChip (contextTake core slot)

/-! ## Doorbells and the hold -/

/-- A doorbell write reaches the queue engine in the turn of its port (R302, R303, R310, R311). -/
def doorbellWrite (kind : QKind) (q v : Nat) (port : WritePort) (w : Chip) : Chip :=
  if !w.live || decide (16384 ≤ q) || !w.doorbellTurn port then w
  else
    let (w, ok) := (w.bumpId).qArrive { q := q, kind := kind, stamp := w.nextId, v := v, pod := port == .pod }
    if ok then w else w.dbIgnored q

/-- DB_PROD_WRITE (R302, R303, R310, R311). -/
def execDbProdWrite (queue : Nat) (value : Doorbell) (s : State) : Out := s.onChip (doorbellWrite .dbProd queue value.value value.port)

/-- DB_CONS_WRITE (R302, R303, R310, R311). -/
def execDbConsWrite (queue : Nat) (value : Doorbell) (s : State) : Out := s.onChip (doorbellWrite .dbCons queue value.value value.port)

/-- QUEUE_HOLD_SET (R310). -/
def queueHoldSet (q : Nat) (w : Chip) : Chip :=
  if w.live && q < 16384 then w.setFlag (Addr.qCtrl q) F.qCtrl_HOLD true else w
def execQueueHoldSet (queue : Nat) (s : State) : Out := s.onChip (queueHoldSet queue)

/-- QUEUE_HOLD_RELEASE (R311): HOLD clears, and the queue's held operations are performed in arrival order. -/
def queueHoldRelease (q : Nat) (w : Chip) : Chip :=
  if !w.live || decide (16384 ≤ q) then w
  else
    let mine := w.que.held.filter fun r => r.q == q
    let w := w.setFlag (Addr.qCtrl q) F.qCtrl_HOLD false
    let w := { w with que := { w.que with held := w.que.held.filter (fun r => r.q != q), wait := w.que.wait ++ mine } }
    w.qDrain q (w.que.wait.length)
def execQueueHoldRelease (queue : Nat) (s : State) : Out := s.onChip (queueHoldRelease queue)

/-! ## The queue commands of a context (Table CMD-9) -/

/-- Bytes of an entry of the queue that a QUEUE_PUSH names (R253, R301): a queue of this chip has its own, one of another chip
that of the size code `esize`. -/
def pushBytes (w : Chip) (w0 esize : Nat) : Nat :=
  if w.isSelf (bits w0 47 40) then w.qE (bits w0 37 24) else 16 * 2 ^ (esize % 4)

/-- QUEUE_PUSH (R253, R301): the entry at SRC is read; the request carries it. -/
def queuePushCmd (n c esize : Nat) (w : Chip) : Chip :=
  w.issue n c 0x50
    (fun w x => [resvChk x [(47, 40), (37, 24), (19, 0)] [] true, alignChk (w.indexed n c x (bits x.w0 19 0) 20 % 128 != 0),
      { bad := !w.reachable (bits x.w0 47 40), code := 0x0B }])
    fun w x =>
      let id := w.nextId
      let w := w.localAcc (.pushRead n c) n n 1 .rd (w.indexed n c x (bits x.w0 19 0) 20) (pushBytes w x.w0 esize) []
        (ctxStream n c)
      (w.outOp n c id (w.resolve (bits x.w0 47 40)) false x, .next)
def execQueuePush (core : Nat) (slot : PushSlot) (s : State) : Out := s.onChip (queuePushCmd core slot.slot slot.esize)

/-- QUEUE_POP (R253, R301): the request goes to the queue engine of this chip. -/
def queuePopCmd (n c : Nat) (w : Chip) : Chip :=
  w.issue n c 0x51
    (fun w x => [resvChk x [(47, 40), (37, 24), (19, 0)] [] true, scopeChk (!w.isSelf (bits x.w0 47 40)),
      alignChk (w.indexed n c x (bits x.w0 19 0) 20 % 128 != 0)])
    fun w x =>
      let id := w.nextId
      let w := w.trackOp (.ctxOp n c) n 255 0 0 (ctxStream n c)
      let w := w.outOp n c id 255 false x
      (w.inject (.core n) .hub 1
        { op := .queuePop, srcCore := n, srcSlot := c, addr := bits x.w0 37 24, acc := id,
          pos := w.indexed n c x (bits x.w0 19 0) 20 }, .next)
def execQueuePop (core slot : Nat) (s : State) : Out := s.onChip (queuePopCmd core slot)

/-- DMA_POST (R251): the descriptor at DESC is read and pushed into the channel's DMA queue; DMA_OUT rises at issue. -/
def dmaPostCmd (n c : Nat) (w : Chip) : Chip :=
  w.issue n c 0x40
    (fun w x => [resvChk x [(41, 40), (19, 0)] [] true, alignChk (w.indexed n c x (bits x.w0 19 0) 20 % 64 != 0)])
    fun w x =>
      let id := w.nextId
      let w := w.localAcc (.pushRead n c) n n 1 .rd (w.indexed n c x (bits x.w0 19 0) 20) 64 [] (ctxStream n c)
      let w := w.outOp n c id 255 false x (dmaPost := true)
      let st := Addr.ctxStatus n c
      let w := w.setFld st F.ctxStatus_DMA_OUT (w.fld st F.ctxStatus_DMA_OUT + 1)
      (w.setSlot n c { w.slot n c with posted := (w.slot n c).posted ++ [⟨id, bits x.w0 41 40, x.cp, x.w0, x.w1⟩] }, .next)
def execDmaPost (core slot : Nat) (s : State) : Out := s.onChip (dmaPostCmd core slot)

/-- DMA_WAIT (R252): the context waits for the descriptors it posted earlier, on a channel or on all. -/
def dmaWaitCmd (n c : Nat) (w : Chip) : Chip :=
  w.issue n c 0x41
    (fun _ x => [resvChk x [(2, 0)] [] false, rangeChk (decide (5 ≤ bits x.w0 2 0))])
    fun w x =>
      let sc := bits x.w0 2 0
      let ids := ((w.slot n c).posted.filter fun p => sc == 4 || p.chan == sc).map fun p => p.id
      let w := w.enterWait n c 4 0 x
      ((w.setSlot n c { w.slot n c with dmaWait := ids }).retest n c, .next)
def execDmaWait (core slot : Nat) (s : State) : Out := s.onChip (dmaWaitCmd core slot)

end Sys2Proof.Machine
end

