-- ==== Sys2Proof/Machine/Dma.lean ====
section
/-! DEFINITION. The DMA channels (12_dma_and_host_translation.md, R314 to R324, R336 to R340): descriptors, their
transactions, completion actions, halts, RESUME and SKIP. -/

namespace Sys2Proof.Machine

/-! ## The descriptor (Table DMA-1) -/

/-- 64-bit word `i` of a descriptor. -/
def dWord (d : Desc) (i : Nat) : Nat := d.words.getD i 0
/-- Bytes per row. -/
def dXlen (d : Desc) : Nat := bits (dWord d 2) 15 0 + 1
/-- Rows per plane. -/
def dYcnt (d : Desc) : Nat := bits (dWord d 2) 31 16 + 1
/-- Planes. -/
def dZcnt (d : Desc) : Nat := bits (dWord d 2) 47 32 + 1
/-- ACTION. -/
def dAction (d : Desc) : Nat := bits (dWord d 2) 51 50
/-- The action has a signal. -/
def dSignals (d : Desc) : Bool := bit (dAction d) 0
/-- The action has an event. -/
def dEvents (d : Desc) : Bool := bit (dAction d) 1
/-- The space of a side (`dst` for the destination) is host memory. -/
def dHost (d : Desc) (dst : Bool) : Bool := bit (dWord d 2) (48 + b2n dst)

/-- Address of byte (x, y, z) on a side (R317). -/
def dAddr (d : Desc) (dst : Bool) (x y z : Nat) : Nat :=
  let hi := 31 + 32 * b2n dst
  let ys := signed 32 (bits (dWord d 3) hi (hi - 31))
  let zs := signed 32 (bits (dWord d 4) hi (hi - 31))
  wrapInt (if dHost d dst then 64 else 40) ((dWord d (b2n dst) : Int) + z * zs + y * ys + x)

/-- The first failing check of a descriptor that starts (R318): its DETAIL of Table CMD-3. `own` says that EVT_CHIP
names the channel's chip, `n` is the channel's core. -/
def dCheck (d : Desc) (own : Bool) (n : Nat) : Option Nat :=
  let s := bits (dWord d 6) 11 0
  if (!dHost d false && bits (dWord d 0) 63 40 != 0) || (!dHost d true && bits (dWord d 1) 63 40 != 0) ||
      bits (dWord d 2) 63 53 != 0 || !onlyBits (dWord d 5) [(8, 0), (9, 9), (15, 10), (23, 16), (47, 32)] ||
      !onlyBits (dWord d 6) [(11, 0), (23, 16), (63, 32)] || bits (dWord d 7) 63 32 != 0 then some 2
  else if dSignals d && (bits (dWord d 5) 47 32 == 0 || (!bit (dWord d 5) 9 && decide (16 ≤ bits (dWord d 5) 8 0))) then some 3
  else if dEvents d && !((decide (0xAC0 ≤ s) && decide (s ≤ 0xFFE)) || (s == n * 16 + 15 && own)) then some 5
  else none

/-- A row of the source meets a row of the destination (R318). -/
def dOverlap (d : Desc) (same : Nat → Nat → Bool) : Bool :=
  dHost d false == dHost d true &&
  (List.range (dZcnt d)).any fun z => (List.range (dYcnt d)).any fun y =>
    (List.range (dZcnt d)).any fun z' => (List.range (dYcnt d)).any fun y' =>
      same (dAddr d false 0 y z) (dAddr d true 0 y' z')

namespace Chip

/-- A range of `la` bytes at `a` and one of `lb` bytes at `b` of one space share a byte; chip numbers of a pod address are
resolved. -/
def rangesMeet (w : Chip) (host : Bool) (a la b lb : Nat) : Bool :=
  let m := if host then 64 else 40
  let r (a : Nat) : Nat := if host then a else w.resolve (a / 2 ^ 32) * 2 ^ 32 + a % 2 ^ 32
  let diff := wrapInt m ((r a : Int) - r b)
  decide (diff < lb) || decide (2 ^ m - la < diff)

/-- Two rows of `len` bytes at these addresses of one space share a byte. -/
def rowsMeet (w : Chip) (host : Bool) (len a b : Nat) : Bool := w.rangesMeet host a len b len

/-- The stream of a channel (R136). -/
def chStream (n h : Nat) : Nat := 2 ^ 19 + n * 4 + h

/-- The engine of core `n` has power. -/
def dmaRuns (w : Chip) (n h : Nat) : Bool := w.live && w.coreUp n && decide (h < 4)

/-- Replace a descriptor of a channel, by its number. -/
def setDesc (w : Chip) (n h : Nat) (d : Desc) : Chip :=
  let x := w.chan n h
  let up (o : Option Desc) : Option Desc := match o with | some e => if e.uid = d.uid then some d else some e | none => none
  w.setChan n h { x with cur := up x.cur, next := up x.next }

/-- Descriptor `uid` of a channel. -/
def desc? (w : Chip) (n h uid : Nat) : Option Desc :=
  let x := w.chan n h
  match x.cur.filter fun d => d.uid == uid with
  | some d => some d
  | none => x.next.filter fun d => d.uid == uid

/-- A position comes before another in the order of R317. -/
def posBefore (a b : Nat × Nat × Nat) : Bool :=
  decide (a.2.2 < b.2.2) || (a.2.2 == b.2.2 && (decide (a.2.1 < b.2.1) || (a.2.1 == b.2.1 && decide (a.1 < b.1))))

/-- A fault at descriptor `d` (R336): the first one found is its cause, the first position in order is where it stands.
The channel drains if `d` is its current one. -/
def failDesc (w : Chip) (n h : Nat) (d : Desc) (f : Nat × Nat × Bool × Nat) (indet : Bool) (pos : Option (Nat × Nat × Nat)) :
    Chip :=
  let at_ := match d.failAt, pos with
    | some a, some b => if posBefore b a then some b else some a
    | some a, none => some a
    | none, b => b
  let w := w.setDesc n h { d with fault := some (d.fault.getD f), failAt := at_, op := none,
                                  indet := if d.fault.isSome then d.indet else indet }
  if (w.chan n h).cur.any fun e => e.uid == d.uid then w.setChState n h 2 else w

end Chip

open Chip

/-! ## Fetching and starting -/

/-- DMA_DESCRIPTOR_FETCH (R314, R300); a core whose power-down has begun fetches no more (R564). -/
def dmaDescriptorFetch (n h : Nat) (w : Chip) : Chip :=
  let x := w.chan n h
  let room := match x.cur with
    | none => true
    | some d => d.issued && d.fault.isNone && !x.fenceHold
  match w.dmaQueue? n h with
  | none => w
  | some q =>
    if w.dmaRuns n h && !w.goingDown.contains n && decide (w.chState n h < 2) && !x.fetching && x.next.isNone && x.fetchFault.isNone && room &&
        w.qMine q && w.qDepth q != 0 then
      (w.setChan n h { x with fetching := true }).startOp q { kind := 3, core := n, slot := h, index := w.qCons q } .rd
    else w
def execDmaDescriptorFetch (core chan : Nat) (s : State) : Out := s.onChip (dmaDescriptorFetch core chan)

/-- Descriptor `d` starts (R318). -/
def Chip.startDesc (w : Chip) (n h : Nat) (d : Desc) : Chip :=
  let d := { d with started := true
                    overlap := dOverlap d (w.rowsMeet (dHost d false) (dXlen d)) }
  let w := w.setDesc n h d
  let w := w.setChan n h { w.chan n h with readyAt := w.time }
  match dCheck d (w.isSelf (bits (dWord d 6) 23 16)) n with
  | some k => w.failDesc n h d (1, k, false, 0) false (some (d.x, d.y, d.z))
  | none => w

/-- DMA_DESCRIPTOR_START (R314, R318): the current descriptor, or the next one once the current one has issued its last
transaction. -/
def dmaDescriptorStart (n h : Nat) (w : Chip) : Chip :=
  let x := w.chan n h
  if !w.dmaRuns n h || w.chState n h != 1 then w
  else match x.cur, x.next with
    | some c, nx =>
      if !c.started then w.startDesc n h c
      else match nx with
        | some d => if c.issued && c.fault.isNone && !d.started then w.startDesc n h d else w
        | none => w
    | none, _ => w
def execDmaDescriptorStart (core chan : Nat) (s : State) : Out := s.onChip (dmaDescriptorStart core chan)

/-! ## Transactions -/

/-- Length of the transaction at a position: at most 4 KiB, to the end of the row, within a 4 KiB page of host space
(R319). -/
def txnLen (d : Desc) (x y z : Nat) : Nat :=
  let page (dst : Bool) : Nat := if dHost d dst then 4096 - dAddr d dst x y z % 4096 else 4096
  min (dXlen d - x) (min (page false) (page true))

/-- The position after `len` bytes, and whether it is the end (R317). -/
def stepPos (d : Desc) (x y z len : Nat) : Nat × Nat × Nat × Bool :=
  if x + len < dXlen d then (x + len, y, z, false)
  else if y + 1 < dYcnt d then (0, y + 1, z, false)
  else if z + 1 < dZcnt d then (0, 0, z + 1, false)
  else (0, 0, 0, true)

/-- A pod-space side does not lie in one core's LM (R319). -/
def lmRange (d : Desc) (dst : Bool) (a len : Nat) : Bool :=
  !dHost d dst && (decide (0x4000000 ≤ a % 2 ^ 32) || decide (0x100000 < a % 0x100000 + len))

/-- One side of a transaction (R320): DMR or DMW in the core's own LM, RMT in another core's, or host memory. Another core of
this chip is reached by a series of REQ_LOCAL requests, one for each line of 64 bytes that the transaction touches
(04_arbitration.md); another chip is reached by one request, whose data is one burst on the link (log entry 31). -/
def Chip.txnAccess (w : Chip) (n h t : Nat) (host : Bool) (kind : AccKind) (a len : Nat) (data : List Byte) : Chip :=
  let chip := a / 2 ^ 32
  let ca := a % 2 ^ 32
  let home := ca / 0x100000
  if host then w.hostAcc (.dma n h t) n kind a len data (chStream n h)
  else if w.isSelf chip && home == n then
    w.localAcc (.dma n h t) n n (if kind == AccKind.rd then 7 else 8) kind (ca % 0x100000) len data (chStream n h)
  else
    let id := w.nextId
    let flt := w.issueFault chip ca
    let ps := if w.resolve chip = 255 then pieces 64 (len / 64 + 2) ca len 0 else [(ca, len, 0)]
    let w := (w.setAcc id { owner := .dma n h t, core := n, remote := true, kind := kind, chip := w.resolve chip, addr := ca,
                            len := len, data := if kind == AccKind.rd then List.replicate len 0 else data,
                            parts := if flt != 0 then 0 else ps.length, fault := flt, stream := chStream n h,
                            born := w.time }).bumpId
    if flt != 0 then w.settle id
    else ps.foldl (fun (w : Chip) p => w.send (.core n) (.core home) (2 + h)
      { op := if kind == AccKind.rd then .read else .write, dstChip := w.resolve chip, srcCore := n, srcUnit := 4 + h,
        addr := p.1, len := p.2.1, pos := p.2.2, data := slice data p.2.2 p.2.1, acc := id, uncached := true }) w

/-- Some transaction of the channel waits for a translation (R321). -/
def Chip.txnTranslating (w : Chip) (n h : Nat) : Bool :=
  (w.chan n h).txns.any fun t => match spFind? w.ht.xl t.acc with
    | some x => x.pend && !(w.acc t.acc).done
    | none => false

/-- The descriptor whose transaction is the next to issue (R314). -/
def issuing? (x : Chan) : Option Desc :=
  match x.cur with
  | none => none
  | some c =>
    if !c.started || c.fault.isSome then none
    else if !c.issued then some c
    else match x.next with
      | some d => if d.started && !d.issued && d.fault.isNone then some d else none
      | none => none

/-- DMA_TRANSACTION_ISSUE (R319 to R321). A frozen chip issues none (R588). -/
def dmaTransactionIssue (n h : Nat) (w : Chip) : Chip :=
  let x := w.chan n h
  match issuing? x with
  | none => w
  | some d =>
    if !w.dmaRuns n h || w.frozen || w.chState n h != 1 || decide (8 ≤ x.txns.length) || w.txnTranslating n h then w
    else
      let len := txnLen d d.x d.y d.z
      let sa := dAddr d false d.x d.y d.z
      let da := dAddr d true d.x d.y d.z
      if lmRange d false sa len then w.failDesc n h d (2, 0, false, sa) false (some (d.x, d.y, d.z))
      else if lmRange d true da len then w.failDesc n h d (2, 0, true, da) false (some (d.x, d.y, d.z))
      else
        let t := w.nextId
        let (px, py, pz, last) := stepPos d d.x d.y d.z len
        let w := w.setDesc n h { d with x := px, y := py, z := pz, issued := last }
        let y := w.chan n h
        let w := w.setChan n h { y with
          txns := y.txns ++ [{ id := t, desc := d.uid, x := d.x, y := d.y, z := d.z, len := len, acc := t, readyAt := y.readyAt }]
          readyAt := w.time }
        let w := if dHost d false then w else w.stallSample n h t
        w.txnAccess n h t (dHost d false) .rd sa len []
def execDmaTransactionIssue (core chan : Nat) (s : State) : Out := s.onChip (dmaTransactionIssue core chan)

/-- A transaction leaves its channel. -/
def Chip.dropTxn (w : Chip) (n h t : Nat) : Chip :=
  w.setChan n h { w.chan n h with txns := (w.chan n h).txns.filter fun x => x.id != t }

/-- The write of transaction `x` does not start yet: an earlier transaction of its channel still reads, or still writes a
range that meets its own (R135, R136, R318). -/
def Chip.txnHeld (w : Chip) (n h : Nat) (x : Txn) : Bool :=
  let dst (e : Txn) : Option (Bool × Nat × Nat) := (w.desc? n h e.desc).map fun d =>
    (dHost d true, dAddr d true e.x e.y e.z, e.len)
  ((w.chan n h).txns.takeWhile fun e => e.id != x.id).any fun e => !e.writing ||
    match dst e, dst x with
    | some (p, a, l), some (q, b, k) => p == q && w.rangesMeet p a l b k
    | _, _ => false

/-- DMA_TRANSACTION_COMPLETE (R320, R336): the read of a transaction is complete and its write starts, in the order of the
channel's transactions, or its write is complete. The bytes written to a range that overlaps the source are free (R318). -/
def dmaTransactionComplete (n h t : Nat) (w : Chip) : Chip :=
  match (w.chan n h).txns.find? fun x => x.id == t with
  | none => w
  | some x =>
    let a := w.acc x.acc
    if !w.dmaRuns n h || !a.done || (!x.writing && a.fault == 0 && w.txnHeld n h x) then w
    else
      let w := w.dropAcc x.acc
      match w.desc? n h x.desc with
      | none => w.dropTxn n h t
      | some d =>
        if a.fault != 0 then
          (w.dropTxn n h t).failDesc n h d (a.fault, a.detail, x.writing, dAddr d x.writing x.x x.y x.z) a.indet
            (some (x.x, x.y, x.z))
        else if x.writing then
          (w.dropTxn n h t).setReg (Addr.chBytes n h) (w.rd (Addr.chBytes n h) + x.len)
        else
          let data := if d.overlap then w.freeBytes x.len 0 else a.data
          let w := if d.overlap then w.drewN x.len else w
          let y := w.chan n h
          let w := w.setChan n h { y with
            txns := y.txns.map fun e => if e.id = t then { e with writing := true, acc := w.nextId } else e }
          w.txnAccess n h t (dHost d true) .wr (dAddr d true x.x x.y x.z) x.len data
def execDmaTransactionComplete (core chan txn : Nat) (s : State) : Out :=
  s.onChip (dmaTransactionComplete core chan txn)

/-! ## Completion -/

/-- A descriptor has finished (R213, R341): its tag's context counts one fewer, unless a RESUME restarted it. -/
def Chip.descFinished (w : Chip) (n : Nat) (d : Desc) : Chip :=
  match d.tag with
  | none => w
  | some t =>
    let s := w.slot n t.slot
    if d.resumed || w.ctxId n t.slot != t.ctxId || !(s.posted.any fun p => p.id == t.id) then w
    else
      let st := Addr.ctxStatus n t.slot
      let w := w.setFld st F.ctxStatus_DMA_OUT (w.fld st F.ctxStatus_DMA_OUT - 1)
      (w.setSlot n t.slot { s with posted := s.posted.filter fun p => p.id != t.id
                                   dmaWait := s.dmaWait.filter fun i => i != t.id }).retest n t.slot

/-- The current descriptor leaves its channel: the next one becomes current. -/
def Chip.promote (w : Chip) (n h : Nat) : Chip :=
  let x := w.chan n h
  let w := (w.setChan n h { x with cur := x.next, next := none, fenceHold := false }).setChState n h
    (if x.next.isSome then 1 else 0)
  if x.next.any fun d => d.fault.isSome then w.setChState n h 2 else w

/-- The signal of a completion action (R323). -/
def Chip.actSignal (w : Chip) (n h : Nat) (d : Desc) : Chip :=
  let v := dWord d 5
  let chip := w.resolve (bits v 23 16)
  let loc := !bit v 9
  let k := bits v 15 10
  let flt := if !w.reachable (bits v 23 16) then 0x0B else if loc && chip == 255 && !w.coreUp k then 0x0A else 0
  let id := w.nextId
  let w := (w.setDesc n h { d with op := some id }).trackOp (.dma n h 0) n chip 0 flt (chStream n h)
  let m : Msg :=
    { op := .atomicAdd, arg := 3, dstChip := chip, srcCore := n, srcUnit := 4 + h,
      addr := if loc then Addr.lcntSignal k (bits v 3 0) else Addr.ccSignal (bits v 8 0), len := 8,
      data := toLE 8 (bits v 47 32), acc := id }
  if flt != 0 then w.settle id
  else if loc && chip == 255 && k == n then w.localOp n m
  else w.send (.core n) (if loc then .core k else .hub) (2 + h) m

/-- The event of a completion action (R323). -/
def Chip.actEvent (w : Chip) (n h : Nat) (d : Desc) : Chip :=
  let v := dWord d 6
  let chip := w.resolve (bits v 23 16)
  let flt := if !w.reachable (bits v 23 16) then 0x0B else 0
  let id := w.nextId
  let w := (w.setDesc n h { d with op := some id }).trackOp (.dma n h 0) n chip 0 flt (chStream n h)
  if flt != 0 then w.settle id
  else w.send (.core n) .hub (2 + h)
    { op := .eventMsg, dstChip := chip, srcCore := n, srcUnit := 4 + h, addr := bits v 11 0, len := 4,
      data := toLE 4 (bits v 63 32), acc := id }

/-- DMA_COMPLETION_ACTION (R322 to R324, R340): once every write of the current descriptor is complete, its signal and
then its event take place, and the descriptor finishes. -/
def dmaCompletionAction (n h : Nat) (w : Chip) : Chip :=
  let x := w.chan n h
  match x.cur with
  | none => w
  | some d =>
    if !w.dmaRuns n h || w.chState n h != 1 || !d.started || !d.issued || d.fault.isSome ||
        x.txns.any (fun t => t.desc == d.uid) then w
    else match d.op with
      | some id =>
        let a := w.acc id
        let sig := dSignals d && !d.sigDone
        if !a.done then w
        else if a.fault != 0 then
          let lost := sig && a.indet
          (w.dropAcc id).failDesc n h { d with sigDone := d.sigDone || lost } (a.fault, a.detail, true, 0) lost none
        else (w.dropAcc id).setDesc n h { d with op := none, sigDone := d.sigDone || sig, evtDone := !sig }
      | none =>
        if dSignals d && !d.sigDone then w.actSignal n h d
        else if dEvents d && !d.evtDone then w.actEvent n h d
        else (w.descFinished n d).promote n h
def execDmaCompletionAction (core chan : Nat) (s : State) : Out := s.onChip (dmaCompletionAction core chan)

/-! ## Halts -/

/-- The registers of a halt (R336, Table DMA-4), with the cause, DETAIL, side and address. -/
def Chip.haltRegs (w : Chip) (n h : Nat) (f : Nat × Nat × Bool × Nat) (indet : Bool) (tag : Option QTag) : Chip :=
  let w := (w.setChState n h 3).setFld (Addr.chStatus n h) F.chStatus_CAUSE f.1
  (w.setReg (Addr.chErrAddr n h) f.2.2.2).setReg (Addr.chErrInfo n h)
    (f.2.1 + b2n f.2.2.1 * 2 ^ 32 + b2n indet * 2 ^ 33 + (match tag with
      | some t => t.slot * 2 ^ 40 + t.ctxId * 2 ^ 48
      | none => 0))

/-- What a halt reports (R338, Table FLT-5): HALT_SRC and the journal. -/
def Chip.haltReport (w : Chip) (n h code slot : Nat) : Chip :=
  let c := Addr.chCfg n h
  let s := w.fld c F.chCfg_HALT_SRC
  let w := if w.flag c F.chCfg_HALT_EN && decide (0xAC0 ≤ s) && decide (s ≤ 0xFFE) then w.edgeEvent s (h + n * 256) else w
  if code = 9 then w
  else w.notice { kind := 11, code := code, core := n, slot := slot, time := w.time,
                  data := ([Addr.chStatus n h, Addr.chProg n h, Addr.chErrAddr n h, Addr.chErrInfo n h, Addr.chTag n h].map
                    fun a => toLE 8 (w.rd a)).flatten }

/-- The halted descriptor notifies its context (R338). -/
def Chip.haltNotify (w : Chip) (n h : Nat) (d : Desc) (f : Nat × Nat × Bool × Nat) : Chip :=
  match d.tag with
  | none => w
  | some t =>
    if w.flag (Addr.chCfg n h) F.chCfg_NOTIFY_CTX && w.ctxId n t.slot == t.ctxId && w.slotState n t.slot != slEmpty then
      let p := ((w.slot n t.slot).posted.find? fun p => p.id == t.id).getD ⟨t.id, h, w.cp n t.slot, 0, 0⟩
      w.postFault n t.slot { code := f.1, unit := 3, detail := f.2.1, indet := d.indet, srcCp := p.srcCp, word0 := p.word0,
                             word1 := p.word1, addr := if dHost d f.2.2.1 then 0 else f.2.2.2 }
    else w

/-- DMA_HALT (R336 to R338): the outstanding transactions have ended. Where no byte is left to write, the position of
CH_PROG is a free value. -/
def dmaHalt (n h : Nat) (w : Chip) : Chip :=
  let x := w.chan n h
  if !w.dmaRuns n h || w.chState n h == 3 || !x.txns.isEmpty then w
  else match x.cur, x.fetchFault with
    | some d, _ =>
      match d.fault with
      | none => w
      | some f =>
        let w := w.haltRegs n h f d.indet d.tag
        let act := b2n d.sigDone + 2 * b2n d.evtDone
        let pos := match d.failAt with
          | some (px, py, pz) => px + py * 2 ^ 16 + pz * 2 ^ 32
          | none => w.freeNat 48
        let w := if d.failAt.isNone then w.drew else w
        let w := (w.setReg (Addr.chProg n h) (pos + act * 2 ^ 48)).setReg (Addr.chTag n h) (bits (dWord d 7) 31 0)
        let w := (List.range 8).foldl (fun w i => w.setReg (Addr.chDesc n h i) (dWord d i)) w
        let w := w.setChan n h { w.chan n h with
          next := x.next.map fun e => { e with started := false, x := 0, y := 0, z := 0, issued := false, fault := none, failAt := none } }
        ((w.haltNotify n h d f).descFinished n d).haltReport n h f.1 ((d.tag.map fun t => t.slot).getD 0)
    | none, some (code, detail) =>
      let a := match w.dmaQueue? n h with | some q => w.entryAddr q (w.qCons q) | none => 0
      ((w.haltRegs n h (code, detail, false, a) false none).setReg (Addr.chProg n h) 0).haltReport n h code 0
    | none, none => w
def execDmaHalt (core chan : Nat) (s : State) : Out := s.onChip (dmaHalt core chan)

/-- DMA_RESUME (R339): a halted descriptor starts again from CH_PROG; a failed fetch is made again. -/
def dmaResume (n h : Nat) (w : Chip) : Chip :=
  if !w.dmaRuns n h || w.chState n h != 3 then w
  else
    let x := w.chan n h
    match x.cur with
    | none => (w.setChan n h { x with fetchFault := none }).setChState n h 0
    | some d =>
      let p := d.failAt.getD (d.x, d.y, d.z)
      (w.setChan n h { x with cur := some { d with
        started := false, fault := none, failAt := none, indet := false, op := none, resumed := true
        x := p.1, y := p.2.1, z := p.2.2, issued := d.issued && d.failAt.isNone } }).setChState n h 1
def execDmaResume (core chan : Nat) (s : State) : Out := s.onChip (dmaResume core chan)

/-- DMA_SKIP (R339): a halted descriptor is dropped without its completion action. -/
def dmaSkip (n h : Nat) (w : Chip) : Chip :=
  if !w.dmaRuns n h || w.chState n h != 3 then w
  else
    let x := w.chan n h
    match x.cur with
    | none => (w.setChan n h { x with fetchFault := none }).setChState n h 0
    | some _ => w.promote n h
def execDmaSkip (core chan : Nat) (s : State) : Out := s.onChip (dmaSkip core chan)

end Sys2Proof.Machine
end

