-- ==== Sys2Proof/Machine/Events.lean ====
section
/-! DEFINITION. The event controller (13_event_controller.md): inputs, raises, selection, claims, completion and
moderation. -/

namespace Sys2Proof.Machine

namespace Chip

/-! ## Selection (R350 to R354) -/

/-- SLOT[i] of a source's routing: its target, where enabled and one that exists (R352). -/
def routeSlot (w : Chip) (s i : Nat) : Option Nat :=
  let v := bits (w.cfgRd (Addr.srcRoute s)) (16 * i + 15) (16 * i)
  if bit v 15 && decide (v % 256 ≤ 128) then some (v % 256) else none

/-- Records being written to queue `q`: their sources are SELECTED. -/
def recordsInto (w : Chip) (q : Nat) : Nat := (w.evt.srcs.filter fun p => p.2.state == 2 && p.2.queue == q).length

/-- Target `t` is eligible but for a full queue (R351): the number of its queue. -/
def tgtUp (w : Chip) (t : Nat) : Option Nat :=
  if w.flag (Addr.tgtStatus t) F.tgtStatus_ERR || (decide (1 ≤ t) && decide (t < 64) && !w.coreUp t) then none
  else w.evQueue? t

/-- The queue of target `t` has room for a record (R351). -/
def tgtRoom (w : Chip) (q : Nat) : Bool := decide (w.qDepth q + w.recordsInto q < w.qN q)

/-- Target `t` is eligible (R351): the number of its queue. -/
def eligible (w : Chip) (t : Nat) : Option Nat := (w.tgtUp t).filter fun q => w.tgtRoom q

/-- The routing slot that takes the next record of source `s` (R352): slot, target, queue. -/
def usableSlot (w : Chip) (s : Nat) : Option (Nat × Nat × Nat) :=
  let k := (w.evSrc s).slotNext
  ([k, k + 1, k + 2, k + 3].map fun i => i % 4).findSome? fun i =>
    match w.routeSlot s i with
    | some t => (w.eligible t).map fun q => (i, t, q)
    | none => none

/-- Source `s` can be selected (R353). -/
def selectable (w : Chip) (s : Nat) : Bool :=
  (w.evSrc s).state == 1 && !bit (w.rd (Addr.evtMask (s / 64))) (s % 64) &&
  (spFind? w.evt.holdEnd (s / 64)).isNone && (w.usableSlot s).isSome

/-- Sources in state PENDING. -/
def pendingSrcs (w : Chip) : List Nat := (w.evt.srcs.filter fun p => p.2.state == 1).map fun p => p.1

/-- The stalls of a pending source none of whose enabled slots is usable (R353). -/
def stallSrc (w : Chip) (s : Nat) : Chip :=
  let x := w.evSrc s
  let full := ([0, 1, 2, 3].filterMap fun i => w.routeSlot s i).eraseDups.filter fun t => (w.tgtUp t).any fun q => !w.tgtRoom q
  if (w.usableSlot s).isSome then w
  else
    let w := full.foldl (fun w t =>
      let w := w.setFlag (Addr.tgtStatus t) F.tgtStatus_STALL true
      if x.stalled.contains t then w else w.bump (Addr.tgtStalls t)) w
    w.setEvSrc s { x with stalled := x.stalled ++ full.filter fun t => !x.stalled.contains t }

/-- The next number after `last` in round-robin order among `l`, numbers below `m`. -/
def nextRound (m last : Nat) (l : List Nat) : Option Nat :=
  l.foldl (fun (b : Option Nat) x => match b with
    | none => some x
    | some y => if (x + m - last - 1) % m < (y + m - last - 1) % m then some x else some y) none

/-- The source selected next (R354). -/
def nextSource (w : Chip) : Option Nat :=
  let l := w.pendingSrcs.filter w.selectable
  match nextRound 64 w.evt.lastGroup (l.map fun s => s / 64) with
  | none => none
  | some g =>
    let last := spGet (fun g => g * 64 + 63) w.evt.lastSrc g % 64
    (nextRound 64 last ((l.filter fun s => s / 64 == g).map fun s => s % 64)).map fun i => g * 64 + i

/-- Source `s` becomes SELECTED: its record is written to the queue engine (R354, R356). -/
def selectSrc (w : Chip) (s i t q : Nat) : Chip :=
  let x := w.evSrc s
  let w := w.setEvSrc s { x with state := 2, slot := i, slotNext := (i + 1) % 4, target := t, queue := q, selSat := x.sat,
                                 selPayload := if x.counted then x.replayPayload else x.payload }
  let w := { w with evt := { w.evt with lastGroup := s / 64, lastSrc := spPut (fun g => g * 64 + 63) w.evt.lastSrc (s / 64) s } }
  let (w, ok) := (w.bumpId).qArrive { q := q, kind := .record, stamp := w.nextId, v := s }
  if ok then w else w.recordFailed s

/-! ## Claim (R356) -/

/-- A record claimed for target 64 is a wake request (R565). -/
def wakeClaim (w : Chip) (s t : Nat) : Chip :=
  let st := w.fld Addr.pwrState F.pwrState_STATE
  if t = 64 ∧ (st = 1 ∨ st = 2) ∧ ((List.range 8).any fun i =>
      w.cfg (Addr.wakeSrc i) F.wakeSrc_EN == 1 && w.cfg (Addr.wakeSrc i) F.wakeSrc_SOURCE == s) then
    { w with evt := { w.evt with wakeReq := true } }
  else w

/-- The steward takes the records of its target from the queue when INT[64] is 1 (R367, R466). -/
def stewardTakes (w : Chip) (q : Nat) : Chip :=
  if w.tgtInt 64 && w.flag Addr.stwStatus F.stwStatus_READY && w.qType q == 3 && w.qBind q == 64 then
    w.consumed q (w.qProd q)
  else w

/-- The claim of source `s`'s record, committed to queue `q` at index `i` (R356, R357, R363). -/
def claim (w : Chip) (q s i : Nat) : Chip :=
  let x := w.evSrc s
  let w := (w.setProd q (i + 1)).depthSample q
  let ticks := w.cfg (Addr.evtHoldoff (s / 64)) F.evtHoldoff_TICKS
  let w := if ticks = 0 then w
    else { w with evt := { w.evt with holdEnd := spInsert w.evt.holdEnd (s / 64) (w.time + ticks) } }
  let w :=
    if x.withdrawn then
      (w.setEvSrc s { x with state := 0, rep := 0, sat := false, level := false, replay := false, counted := false,
                             withdrawn := false }).bump Addr.evtSpurious
    else
      let w := w.setEvSrc s { x with state := 3, index := i, rep := if x.counted then 0 else x.rep,
                                     sat := if x.counted then false else x.sat }
      let w := w.bump Addr.evtDelivered
      let w := if x.replay then w.bump Addr.evtReplays else w
      (w.irisSample 0x0A (fun sel => bits sel 8 0 == x.target) ((w.time : Int) - x.time)).wakeClaim s x.target
  let w := w.recordCommitted x.target q
  if x.target = 64 then w.stewardTakes q else w

end Chip

open Chip

/-- SOURCE_INPUT_CHANGE (R346 to R348, R357): the controller detects a change of an input. -/
def sourceInputChange (s : Nat) (w : Chip) : Chip :=
  let now := w.sensedInput s
  let x := w.evSrc s
  if !w.live || swSource s || decide (0xFFF ≤ s) || now == x.sensed then w
  else
    let w := w.setEvSrc s { x with sensed := now }
    let level (on : Bool) : Chip := if on then w.levelEvent s else if x.level then w.withdraw s else w
    match w.sense s with
    | 0 => level now
    | 1 => level (!now)
    | 2 => if now then w.edgeEvent s (w.srcPayloadNow s) else w
    | 3 => if now then w else w.edgeEvent s (w.srcPayloadNow s)
    | 4 => w.edgeEvent s (w.srcPayloadNow s)
    | _ => w
def execSourceInputChange (source : Nat) (s : State) : Out := s.onChip (sourceInputChange source)

/-- EVT_RAISE (R369). -/
def evtRaise (s payload : Nat) (w : Chip) : Chip :=
  if !w.live then w
  else if 0xAC0 ≤ s ∧ s ≤ 0xFFE then w.edgeEvent s payload
  else w.setFlag Addr.evtStatus F.evtStatus_BAD_RAISE true
def execEvtRaise (source payload : Nat) (s : State) : Out := s.onChip (evtRaise (source % 4096) payload)

/-- PEND_SET (R371): an edge request with payload 0, or one more event. -/
def pendSet (s : Nat) (w : Chip) : Chip := if w.live && decide (s < 0xFFF) then w.edgeEvent s 0 else w
def execPendSet (source : Nat) (s : State) : Out := s.onChip (pendSet source)

/-- PEND_CLR (R357, R362). -/
def pendClr (s : Nat) (w : Chip) : Chip := if w.live && decide (s < 0xFFF) then w.withdraw s else w
def execPendClr (source : Nat) (s : State) : Out := s.onChip (pendClr source)

/-- EVT_MASK_WRITE (R52, R349): a write of `value` to the SET or CLR address of MASK[g]. -/
def evtMaskWrite (g : Nat) (set : Bool) (value : Nat) (w : Chip) : Chip :=
  let a := Addr.evtMask g
  let v := value % 2 ^ 64
  if w.live && decide (g < 64) then
    w.setReg a (if set then Nat.lor (w.rd a) v else Nat.land (w.rd a) (2 ^ 64 - 1 - v))
  else w
def execEvtMaskWrite (group : Nat) (set : Bool) (value : Nat) (s : State) : Out := s.onChip (evtMaskWrite group set value)

/-- EVENT_SELECT (R352 to R354): stalls are recorded, and the next selectable source is selected, with at most eight
record writes in progress. -/
def eventSelect (w : Chip) : Chip :=
  if !w.live then w
  else
    let w := w.pendingSrcs.foldl (fun w s => w.stallSrc s) w
    if 8 ≤ (w.evt.srcs.filter fun p => p.2.state == 2).length then w
    else match w.nextSource with
      | none => w
      | some s =>
        match w.usableSlot s with
        | some (i, t, q) => w.selectSrc s i t q
        | none => w
def execEventSelect (s : State) : Out := s.onChip eventSelect

/-- RECORD_CLAIM (R356 to R358): the record write on queue `q` has ended. A request withdrawn or counted again since its
record was written has its entry written again. `ecc` bits of the source's state word are in error (R593). -/
def recordClaim (q ecc : Nat) (w : Chip) : Chip :=
  match w.qOp? q with
  | none => w
  | some o =>
    let a := w.acc o.acc
    if !w.live || o.kind != 4 || !a.done then w
    else if a.fault != 0 then
      (((w.dropAcc o.acc).ringErr q a.fault 4 o.index).recordFailed o.src).qNext q
    else
      let (w, k) := w.chipEcc 2 o.src ecc
      let go (w : Chip) : Chip :=
        let d := w.recordBytes o.src
        let w := w.dropAcc o.acc
        if d != o.data then w.startOp q { o with data := d } .wr
        else (w.claim q o.src o.index).qNext q
      match k with
      | .good => go w
      | .bad => w
      | .open_ v => go (w.setEvSrc o.src { w.evSrc o.src with payload := v % 2 ^ 32 })
def execRecordClaim (queue ecc : Nat) (s : State) : Out := s.onChip (recordClaim queue ecc)

/-- EVT_COMPLETE (R359). -/
def evtComplete (s : Nat) (w : Chip) : Chip :=
  if !w.live then w
  else if (w.evSrc s).state == 3 && w.cfg (Addr.srcCfg s) F.srcCfg_COMP == 0 then w.completeSrc s
  else w.setFlag Addr.evtStatus F.evtStatus_BAD_COMPLETE true
def execEvtComplete (source : Nat) (s : State) : Out := s.onChip (evtComplete (source % 4096))

/-- HOLDOFF_EXPIRY (R363). -/
def holdoffExpiry (g : Nat) (w : Chip) : Chip :=
  match spFind? w.evt.holdEnd g with
  | some e => if w.live && decide (e ≤ w.time) then { w with evt := { w.evt with holdEnd := spErase w.evt.holdEnd g } } else w
  | none => w
def execHoldoffExpiry (group : Nat) (s : State) : Out := s.onChip (holdoffExpiry group)

/-- COALESCE_TIMER_EXPIRY (R364). -/
def coalesceTimerExpiry (t : Nat) (w : Chip) : Chip :=
  match (w.evTgt t).timer with
  | some e =>
    if w.live && decide (e ≤ w.time) && !w.tgtInt t then
      let w := w.raiseInt t
      if t = 64 then match w.evQueue? 64 with
        | some q => w.stewardTakes q
        | none => w
      else w
    else w
  | none => w
def execCoalesceTimerExpiry (target : Nat) (s : State) : Out := s.onChip (coalesceTimerExpiry target)

/-- EVENT_MSG (R369, R370): a raise of a context, a channel or another chip reaches the controller, which presents it and
answers. -/
def eventMsg (id : Nat) (w : Chip) : Chip :=
  w.atHub id .eventMsg fun r =>
    ((w.edgeEvent (r.msg.addr % 4096) (leNat r.msg.data)).dropMsg id).answer .hub r.msg .writeAck 0 0 []
def execEventMsg (msg : Nat) (s : State) : Out := s.onChip (eventMsg msg)

/-- EVENT_RAISE (R230, R255). -/
def eventRaiseCmd (n c : Nat) (w : Chip) : Chip :=
  w.issue n c 0x60
    (fun w x =>
      let s := bits x.w0 11 0
      [resvChk x [(47, 40), (11, 0)] [(31, 0)] true,
       scopeChk (!((decide (0xAC0 ≤ s) && decide (s ≤ 0xFFE)) || (s == n * 16 + 15 && w.isSelf (bits x.w0 47 40)))),
       { bad := !w.reachable (bits x.w0 47 40), code := 0x0B }])
    fun w x =>
      let chip := w.resolve (bits x.w0 47 40)
      let id := w.nextId
      let w := w.trackOp (.ctxOp n c) n chip 0 0 (ctxStream n c)
      let w := w.outOp n c id chip false x
      (w.send (.core n) .hub 1
        { op := .eventMsg, dstChip := chip, srcCore := n, srcSlot := c, addr := bits x.w0 11 0, len := 4,
          data := toLE 4 (w.indexed n c x (bits x.w1 31 0) 32), acc := id }, .next)
def execEventRaise (core slot : Nat) (s : State) : Out := s.onChip (eventRaiseCmd core slot)

end Sys2Proof.Machine
end

