-- ==== Sys2Proof/Machine/Flags.lean ====
section
/-! DEFINITION. Rounding, saturation and the counts of saturated results (R158, R175, R178, R180): what the engines do
where a processor would set a flag. -/

namespace Sys2Proof.Machine

/-- A rounding shift right (R158): a + 2^(k−1) shifted arithmetically by k, exact; a itself for k = 0. -/
def roundShift (a : Int) (k : Nat) : Int := if k = 0 then a else (a + ((2 ^ (k - 1) : Nat) : Int)) / ((2 ^ k : Nat) : Int)

/-- Lowest value of an integer format of `n` bits. -/
def minOf (sgn : Bool) (n : Nat) : Int := if sgn then -((2 ^ (n - 1) : Nat) : Int) else 0

/-- Highest value of an integer format of `n` bits. -/
def maxOf (sgn : Bool) (n : Nat) : Int := if sgn then ((2 ^ (n - 1) : Nat) : Int) - 1 else ((2 ^ n : Nat) : Int) - 1

/-- Saturate to an integer format: its code and whether it saturated. -/
def saturate (sgn : Bool) (n : Nat) (v : Int) : Nat × Bool :=
  let c := clampInt (minOf sgn n) (maxOf sgn n) v
  (wrapInt n c, c != v)

/-- The integer nearest to p / q for q > 0, ties to even. -/
def divEven (p : Int) (q : Nat) : Int :=
  let f := p / (q : Int)
  let r := p - f * q
  if 2 * r < q then f else if (q : Int) < 2 * r then f + 1 else if f % 2 = 0 then f else f + 1

end Sys2Proof.Machine
end

