-- ==== Sys2Proof/Machine/Codec.lean ====
section
/-! DEFINITION. The coding of an Opbihan link (14_link_physical_and_link_layers.md): the RS(272,256) code of R378 and
R379, the CRC of R384, lanes and line code of R380 to R382, flits (R383) and transaction headers (Table POD-1). -/

namespace Sys2Proof.Machine

/-! ## The field GF(2^10) (R378) -/

/-- α times `a`. -/
def gfX (a : Nat) : Nat := if 512 ≤ a then Nat.xor (2 * a) 0x409 else 2 * a
/-- The product, one bit of `b` at a time. -/
def gfMulAux : Nat → Nat → Nat → Nat → Nat
  | 0, _, _, r => r
  | n + 1, a, b, r => gfMulAux n (gfX a) (b / 2) (if b % 2 = 1 then Nat.xor r a else r)
def gfMul (a b : Nat) : Nat := gfMulAux 10 a b 0
/-- α to the power `n`. -/
def gfAlpha : Nat → Nat
  | 0 => 1
  | n + 1 => gfX (gfAlpha n)
/-- The inverse: a to the power 2^10 − 2. -/
def gfInvAux : Nat → Nat → Nat → Nat
  | 0, _, r => r
  | n + 1, a, r => gfInvAux n (gfMul a a) (gfMul r (gfMul a a))
def gfInv (a : Nat) : Nat := gfInvAux 9 a 1

/-- Value of a polynomial, low-order coefficient first. -/
def polyEval (p : List Nat) (x : Nat) : Nat := p.foldr (fun c r => Nat.xor c (gfMul r x)) 0
/-- Sum of two polynomials. -/
def polyAdd : List Nat → List Nat → List Nat
  | [], q => q
  | p, [] => p
  | a :: p, b :: q => Nat.xor a b :: polyAdd p q
def polyScale (k : Nat) (p : List Nat) : List Nat := p.map (gfMul k)
/-- Product of two polynomials. -/
def polyMul : List Nat → List Nat → List Nat
  | [], _ => []
  | a :: p, q => polyAdd (polyScale a q) (0 :: polyMul p q)

/-! ## RS(272,256) -/

/-- The generator polynomial: the product of (x − α^i) for i = 0 to 15. -/
def rsGen : List Nat := (List.range 16).foldl (fun g i => polyMul g [gfAlpha i, 1]) [1]

/-- The 16 parity symbols of a message: symbol 0 of a codeword is its coefficient of x^271 (log entry 16). -/
def rsParity (m : List Nat) : List Nat :=
  let g := (rsGen.take 16).reverse
  m.foldl (fun (r : List Nat) s =>
    let f := Nat.xor s (r.headD 0)
    polyAdd (r.drop 1 ++ [0]) (polyScale f g)) (List.replicate 16 0)

/-- The 16 syndromes of a received word. -/
def rsSyndromes (c : List Nat) : List Nat :=
  (List.range 16).map fun i => let a := gfAlpha i; c.foldl (fun r s => Nat.xor (gfMul r a) s) 0

/-- The error locator search: locator, previous locator, length, shift, previous discrepancy. -/
structure RsState where
  c : List Nat := [1]
  b : List Nat := [1]
  l : Nat := 0
  m : Nat := 1
  d : Nat := 1

/-- One step of the search, for syndrome `n`. -/
def rsLocStep (s : List Nat) (x : RsState) (n : Nat) : RsState :=
  let d := (List.range (x.l + 1)).foldl (fun r i => Nat.xor r (gfMul (x.c.getD i 0) (if i ≤ n then s.getD (n - i) 0 else 0))) 0
  if d = 0 then { x with m := x.m + 1 }
  else
    let c := polyAdd x.c (List.replicate x.m 0 ++ polyScale (gfMul d (gfInv x.d)) x.b)
    if 2 * x.l ≤ n then { c := c, b := x.c, l := n + 1 - x.l, m := 1, d := d } else { x with c := c, m := x.m + 1 }

/-- Decode a received word of 272 symbols (R379): the corrected word and the positions of its corrected symbols, or
nothing where the errors are more than 8 and detected. -/
def rsDecode (c : List Nat) : Option (List Nat × List Nat) :=
  let s := rsSyndromes c
  if s.all (fun x => x == 0) then some (c, [])
  else
    let x := (List.range 16).foldl (rsLocStep s) {}
    let at_ := (List.range 272).filter fun j => polyEval x.c (gfAlpha (1023 - (271 - j))) == 0
    let om := (polyMul s x.c).take 16
    let fixed := (List.range 272).map fun j =>
      let v := c.getD j 0
      if at_.contains j then
        let xi := gfAlpha (1023 - (271 - j))
        let der := (List.range x.c.length).foldl (fun r i => if i % 2 = 1 then
          Nat.xor r (gfMul (x.c.getD i 0) ((List.range (i - 1)).foldl (fun p _ => gfMul p xi) 1)) else r) 0
        Nat.xor v (gfMul (gfAlpha (271 - j)) (gfMul (polyEval om xi) (gfInv der)))
      else v
    if x.l ≤ 8 ∧ at_.length = x.l ∧ (rsSyndromes fixed).all (fun x => x == 0) then some (fixed, at_) else none

/-- The 256 message symbols of two flits (R378). -/
def symbolsOf (d : List Byte) : List Nat := let v := leNat d; (List.range 256).map fun j => v / 2 ^ (10 * j) % 1024
/-- The 320 bytes of 256 message symbols. -/
def bytesOf (s : List Nat) : List Byte := toLE 320 (s.foldr (fun x r => x + 1024 * r) 0)

/-! ## Lanes and line code (R380 to R382) -/

/-- The scrambler of a lane at a lock point (R382). -/
def scrInit (lane : Nat) : Nat := Nat.xor 0x7FFFFFFF (lane * 0x01010101) % 2 ^ 31

/-- `n` bits of `v`, first bit least significant, XORed with the sequence from scrambler state `s`; a bit of the
sequence is the sum of the bits 31 and 28 places back (log entry 16). It answers the bits and the state after them. -/
def scramble : Nat → Nat → Nat → Nat × Nat
  | 0, _, s => (0, s)
  | n + 1, v, s =>
    let b := (s / 2 ^ 30 + s / 2 ^ 27) % 2
    let (r, t) := scramble n (v / 2) ((2 * s + b) % 2 ^ 31)
    ((v + b) % 2 + 2 * r, t)

/-- Active lanes of a map, in ascending order. -/
def lanesOf (m : Nat) : List Nat := (List.range 8).filter fun l => bit m l

/-- Gray code between two bits and a PAM4 level (R381); it is its own inverse. -/
def gray (v : Nat) : Nat := match v % 4 with | 2 => 3 | 3 => 2 | k => k

/-- The unit intervals of `n` line bits at a rate (R381). -/
def unitsOf (rate n v : Nat) : List Nat :=
  if rate = 2 then (List.range n).map fun k => v / 2 ^ k % 2 else (List.range (n / 2)).map fun k => gray (v / 4 ^ k % 4)
/-- The line bits of unit intervals. -/
def bitsOf (rate : Nat) (u : List Nat) : Nat :=
  if rate = 2 then u.foldr (fun x r => x % 2 + 2 * r) 0 else u.foldr (fun x r => gray x + 4 * r) 0

/-- The bits that active lane `i` of `k` carries of a codeword (R380). -/
def laneBits (c : List Nat) (k i : Nat) : Nat :=
  (List.range (272 / k)).foldr (fun j r => c.getD (i + j * k) 0 + 1024 * r) 0
/-- The codeword of the bits of `k` active lanes. -/
def codewordOf (k : Nat) (lanes : List Nat) : List Nat :=
  (List.range 272).map fun j => lanes.getD (j % k) 0 / 2 ^ (10 * (j / k)) % 1024

/-! ## Flits (R383, R384) -/

def crcBits : Nat → Nat → Nat
  | 0, c => c
  | n + 1, c => crcBits n (if c % 2 = 1 then Nat.xor (c / 2) 0x82F63B78 else c / 2)
/-- CRC-32C (R384). -/
def crc32c (d : List Byte) : Nat := Nat.xor (d.foldl (fun c b => crcBits 8 (Nat.xor c b.toNat)) 0xFFFFFFFF) 0xFFFFFFFF

/-- `n` bytes: `d`, then zeros. -/
def padTo (n : Nat) (d : List Byte) : List Byte := d.take n ++ List.replicate (n - d.length) 0

/-- A flit's header (Table LNK-2). -/
def flitHdr (type vc seq route len epoch : Nat) : Nat :=
  type + vc * 2 ^ 4 + seq * 2 ^ 6 + route * 2 ^ 18 + len * 2 ^ 34 + epoch * 2 ^ 42

/-- The 160 bytes of a flit. -/
def mkFlit (hdr : Nat) (payload : List Byte) (ack cret : Nat) : List Byte :=
  let body := toLE 8 hdr ++ padTo 144 payload
  let tail := toLE 2 ack ++ toLE 2 cret
  body ++ toLE 4 (crc32c (body ++ tail)) ++ tail

/-- A flit's CRC is good (R384). -/
def flitGood (f : List Byte) : Bool := crc32c (f.take 152 ++ f.drop 156) == leNat ((f.drop 152).take 4)

/-- TYPE, VC, SEQ, ROUTE, LENGTH, EPOCH of a header. -/
def fType (h : Nat) : Nat := bits h 3 0
def fVc (h : Nat) : Nat := bits h 5 4
def fSeq (h : Nat) : Nat := bits h 17 6
def fRoute (h : Nat) : Nat := bits h 33 18
def fLen (h : Nat) : Nat := bits h 41 34
def fEpoch (h : Nat) : Nat := bits h 49 42

/-! ## Transaction headers (Table POD-1, Table POD-2) -/

/-- OPCODE. The on-chip operations, which cross no link, have none. -/
def opCode : Op → Nat
  | .read => 0x00 | .readData => 0x01 | .write => 0x02 | .writeAck => 0x03 | .atomicAdd => 0x04 | .waitNotify => 0x05
  | .snoopInv => 0x06 | .invAck => 0x07 | .notHeld => 0x08 | .evictNote => 0x09 | .queuePush => 0x0A | .eventMsg => 0x0B
  | .barrierArrive => 0x0C | .barrierRelease => 0x0D | .timeSync => 0x0E | .podMgmt => 0x0F | .nakNotReady => 0x10
  | .epochStale => 0x11 | .queuePop => 0xFF | .popAnswer => 0xFF

/-- The operation of an OPCODE. -/
def opOf (k : Nat) : Option Op :=
  [Op.read, .readData, .write, .writeAck, .atomicAdd, .waitNotify, .snoopInv, .invAck, .notHeld, .evictNote, .queuePush,
   .eventMsg, .barrierArrive, .barrierRelease, .timeSync, .podMgmt, .nakNotReady, .epochStale][k]?

/-- Link flits of a transaction (R418). -/
def linkFlits (m : Msg) : Nat := max 1 ((m.data.length + 127) / 128)

/-- Header word 0 of flit `k` of `n` of a transaction, for source and destination chip numbers `s` and `d`. -/
def hdrWord0 (m : Msg) (s d k n : Nat) : Nat :=
  opCode m.op + b2n m.filt * 2 ^ 8 + b2n m.dup * 2 ^ 9 + b2n (k + 1 == n) * 2 ^ 10 + b2n m.loc * 2 ^ 11 +
  m.status % 256 * 2 ^ 16 + (if m.loc then 0 else s % 256 * 2 ^ 24 + d % 256 * 2 ^ 32) + m.srcCore % 64 * 2 ^ 40 +
  m.srcUnit % 16 * 2 ^ 46 + m.srcSlot % 4 * 2 ^ 50

/-- ARG of Table POD-2: the width (bit 0, 1 for 8 bytes) and SIG (bit 1) of an ATOMIC_ADD, the kind of a WAIT_NOTIFY or
TIME_SYNC, else 0. -/
def wireArg (m : Msg) : Nat :=
  match m.op with
  | .atomicAdd => m.arg % 4
  | .waitNotify | .timeSync => m.arg % 16
  | _ => 0

/-- Header word 1 of flit `k` (R418): ADDR of the HEAD is the address or DETAIL, that of a CONT the chip address of its
own first data byte. -/
def hdrWord1 (m : Msg) (k : Nat) : Nat :=
  let len := if m.data.isEmpty then m.len else m.data.length
  let a := if k = 0 then m.addr else (if m.op = .readData then m.base else m.addr) + 128 * k
  a % 2 ^ 32 + m.tid % 65536 * 2 ^ 32 + (len - 1) % 4096 * 2 ^ 48 + wireArg m * 2 ^ 60

/-- The transaction that a HEAD's header words and data spell, if its header is one of Tables POD-1 and POD-2 on virtual
channel `vc` (R417, R420). -/
def msgOf (vc h0 h1 epoch : Nat) (data : List Byte) : Option Msg :=
  match opOf (bits h0 7 0) with
  | none => none
  | some op =>
    let m : Msg :=
      { op := op, filt := bit h0 8, dup := bit h0 9, loc := bit h0 11, status := bits h0 23 16, srcChip := bits h0 31 24,
        dstChip := bits h0 39 32, srcCore := bits h0 45 40, srcUnit := bits h0 49 46, srcSlot := bits h0 51 50,
        addr := bits h1 31 0, tid := bits h1 47 32, arg := bits h1 63 60, len := bits h1 59 48 + 1, data := data,
        epoch := epoch }
    if vcOf m != vc || bits h0 15 12 != 0 || bits h0 63 52 != 0 then none else some { m with arg := wireArg m }

/-- What a CONT flit makes of the transaction `m` received so far (R417, R418): nothing where its header is of no row of
Tables POD-1 and POD-2, or where the burst would exceed 4 KiB; `m` itself where the flit is not the next of `m`; else `m`
with its data. The first CONT of an answer tells where the data of the answer lies. -/
def contOf (m : Msg) (vc h0 h1 epoch : Nat) (d : List Byte) : Option Msg :=
  match msgOf vc h0 h1 epoch d with
  | none => none
  | some c =>
    let got := m.data.length
    let base := if m.op != .readData then m.addr else if got ≤ 128 then (c.addr + 2 ^ 32 - got) % 2 ^ 32 else m.base
    if { c with addr := m.addr, epoch := m.epoch, data := m.data, base := m.base } != m ||
        c.addr != (base + got) % 2 ^ 32 then some m
    else if got % 128 != 0 || 4096 < got + d.length then none
    else some { m with data := m.data ++ d, base := base }

end Sys2Proof.Machine
end

