-- ==== Sys2Proof/Machine/Link.lean ====
section
/-! DEFINITION. The physical and link layers of the Opbihan ports (14_link_physical_and_link_layers.md): arbitration at
every shared resource (R90), codewords, flits, acknowledgement and replay, credits, link control, training, lane
failure and link states. -/

namespace Sys2Proof.Machine

/-- Lane sets in the order of R401. -/
def laneSets : List Nat := [0xFF, 0x0F, 0xF0, 0x03, 0x0C, 0x30, 0xC0]

/-- Offers of this receiver per virtual channel (R394). -/
def vcOffer (v : Nat) : Nat := if v < 2 then 96 else 32

/-- Every bit of `a` is a bit of `b`. -/
def maskIn (a b : Nat) : Bool := Nat.land a b == a

namespace Chip

def lp (w : Chip) (p : Nat) : LinkPort := spGet (fun _ => {}) w.lnk p
def setLp (w : Chip) (p : Nat) (x : LinkPort) : Chip := { w with lnk := spPut (fun _ => {}) w.lnk p x }
/-- State of a port (Table LNK-9). -/
def lState (w : Chip) (p : Nat) : Nat := w.fld (Addr.lnkState p) F.lnkState_STATE
def setLState (w : Chip) (p st : Nat) : Chip := w.setFld (Addr.lnkState p) F.lnkState_STATE st
def lErr (w : Chip) (p : Nat) (f : Fld) : Chip := w.setFlag (Addr.lnkErr p) f true
/-- The port is in an UP state. -/
def isUp (st : Nat) : Bool := st == 2 || st == 3 || st == 4
/-- The port has power and its chip is out of reset. -/
def portLive (w : Chip) (p : Nat) : Bool := w.live && w.switchedOn && decide (p < 8)
def rxMap (w : Chip) (p : Nat) : Nat := w.fld (Addr.lnkState p) F.lnkState_RX_MAP
def txMap (w : Chip) (p : Nat) : Nat := w.fld (Addr.lnkState p) F.lnkState_TX_MAP
def lRate (w : Chip) (p : Nat) : Nat := w.fld (Addr.lnkState p) F.lnkState_RATE
/-- RATE_MAX and LANE_EN: those committed for a port in DOWN, else those its present or last training started with. -/
def rateMax (w : Chip) (p : Nat) : Nat :=
  if w.lState p = 0 then min 2 (w.cfg (Addr.lnkCfg p) F.lnkCfg_RATE_MAX) else (w.lp p).rateMax
def laneEn (w : Chip) (p : Nat) : Nat := if w.lState p = 0 then w.cfg (Addr.lnkCfg p) F.lnkCfg_LANE_EN else (w.lp p).laneEn
/-- The port runs 8 lanes both ways at RATE_MAX. -/
def fullWidth (w : Chip) (p : Nat) : Bool := w.rxMap p == 0xFF && w.txMap p == 0xFF && w.lRate p == w.rateMax p

/-! ## Pod management messages of the steward -/

/-- What a management message is about: a later one about the same replaces it (R429). -/
def mgmtKey : Mgmt → Nat × Nat
  | .candidate .. => (1, 0)
  | .report _ => (2, 0)
  | .newEpoch e => (3, e.dest)
  | .epochAck _ => (4, 0)
  | .linkEvent port _ _ => (5, port)
  | .leave serial => (6, serial)
  | .timeRequest _ => (7, 0)
  | .timeReply .. => (8, 0)

/-- Send a LOCAL message on port `p` (R417): POD_MGMT with its code, or TIME_SYNC. It replaces an earlier message about
the same (for NEW_EPOCH, to the same chip) that is held for a retry (R429). -/
def sendLocal (w : Chip) (p : Nat) (op : Op) (code arg : Nat) (g : Mgmt) : Chip :=
  let data : List Byte := if op == Op.podMgmt then [BitVec.ofNat 8 code] else []
  let m : Msg :=
    { op := op, loc := true, srcUnit := 12, dstChip := 256 + p, tid := w.pod.plainTid, arg := arg, len := 1, data := data,
      epoch := w.epoch, mgmt := some g }
  let w := { w with pod := { w.pod with
      plainTid := (w.pod.plainTid + 1) % 65536
      outReqs := spInsert (w.pod.outReqs.filter fun q =>
        !(q.2.msg.dstChip == 256 + p && q.2.msg.mgmt.map mgmtKey == some (mgmtKey g))) w.nextId
        { msg := m, epoch := w.epoch, sent := 1 } } }
  (w.bumpId).inject .hub (.port p) 3 m

/-- The parent's port (R431). -/
def parentPort? (w : Chip) : Option Nat :=
  if w.cfg Addr.podState F.podState_PARENT_VALID = 1 then some (w.cfg Addr.podState F.podState_PARENT_PORT) else none

/-- A LINK_EVENT of port `q` goes towards the root, which keeps it for itself (R438, R439). -/
def linkEvent (w : Chip) (q st serial : Nat) : Chip :=
  if w.cfg Addr.podState F.podState_ROOT = 1 then
    { w with pod := { w.pod with linkEvs := w.pod.linkEvs ++ [(q, st, serial)] } }
  else match w.parentPort? with
    | some p => w.sendLocal p .podMgmt 5 0 (.linkEvent q st serial)
    | none => w

/-- The event of port `p` in its present state. -/
def portEvent (w : Chip) (p : Nat) : Chip := w.linkEvent p (w.lState p) (w.rd (Addr.partnerSerial p))

/-! ## Sources of a link output port (R100, R102) -/

/-- Messages on virtual channel `c` at link output port `p`, from source `k` (8 for the chip's own mesh). -/
def atLink (w : Chip) (p c k : Nat) : List (Nat × MsgRec) :=
  w.net.msgs.filter fun m => m.2.stage == .linkQ && m.2.dst == .port p && m.2.cls == c &&
    (match m.2.src with | .port q => q == k | _ => k == 8)

/-- The message whose flit virtual channel `c` sends next at port `p` (R100, R102): the burst in progress, or the oldest
of the next source in round-robin order. The spec gives neither the order of the sources nor the one that follows reset: they
follow each other as input ports 0 to 7 and then the own mesh, and port 0 is the first (log entry 77). The arbiter holds the
last source plus 1. -/
def linkNext (w : Chip) (p c : Nat) : Option (Nat × Nat × MsgRec) :=
  let a := w.arb (128 + p)
  let last := (tget a.source c + 8) % 9
  match ((spFind? a.burst c).bind fun id => (w.msgRec? id).map fun r => (id, r)) with
  | some (id, r) => some (last, id, r)
  | none => ((List.range 9).map fun i => (last + 1 + i) % 9).findSome? fun k =>
      (oldest (w.atLink p c k)).map fun m => (k, m.1, m.2)

/-- The virtual channels with a flit to send at link output port `p`. -/
def linkReady (w : Chip) (p : Nat) : List Nat :=
  linkParams.tie.filter fun c => (w.linkNext p c).any fun m => decide (m.2.2.sent < m.2.2.arrived)

/-- The link output arbiters after messages have left them without a grant (R96). -/
def restLinks (w : Chip) : Chip :=
  ((w.net.arbs.map fun p => p.1).filter fun k => decide (128 ≤ k)).foldl (fun (w : Chip) k =>
    w.restArb k linkParams (w.linkReady (k - 128))) w

/-! ## States (R410 to R412) -/

/-- A filtered request has been accepted: it is being performed (R426). -/
def beginPerform (w : Chip) (m : Msg) : Chip :=
  if m.filt && !isResponse m then { w with pod := { w.pod with performing := (m.srcChip, m.tid) :: w.pod.performing } } else w

/-- A filtered request is no longer being performed. -/
def endPerform (w : Chip) (m : Msg) : Chip :=
  if m.filt && !isResponse m then
    { w with pod := { w.pod with performing := w.pod.performing.filter fun x => x != (m.srcChip, m.tid) } }
  else w

/-- Reset a port's link layer (R403): the replay buffer, sequence numbers, credits and held flits go, and so does what
is left of a transaction whose flits went in part, which is not performed (R426). -/
def resetLayer (w : Chip) (p : Nat) : Chip :=
  let x := w.lp p
  let w := x.asm.foldl (fun (w : Chip) a => w.endPerform a.2) w
  let w := w.setLp p
    { tr := x.tr, fails := x.fails, exits := x.exits, quarSince := x.quarSince, listenAt := x.listenAt, preset := x.preset,
      good := x.good, rxScr := x.rxScr, txScr := x.txScr, winAt := x.winAt, wire := x.wire, rateMax := x.rateMax,
      laneEn := x.laneEn, prevSerial := x.prevSerial }
  Chip.restLinks { w with net := { w.net with msgs := w.net.msgs.filter fun m =>
      !(m.2.stage == .linkQ && m.2.dst == .port p && decide (0 < m.2.sent)) &&
      !(m.2.stage == .linkQ && m.2.src == .port p && decide (m.2.arrived < m.2.total)) } }

/-- The listen backoff of port `p` (R430), in ticks. -/
def backoffTicks (p : Nat) : Nat := (Config.chipSerial.toNat % 2 ^ 32 + p * 2654435769) % 1000 * 1000

/-- The port enters DOWN and listens. -/
def enterDown (w : Chip) (p : Nat) : Chip :=
  let w := (w.setLState p 0).resetLayer p
  w.setLp p { w.lp p with tr := {}, listenAt := some (w.time + backoffTicks p) }

/-- The port enters QUARANTINE (R412). -/
def quarantine (w : Chip) (p : Nat) : Chip :=
  let w := ((w.setLState p 5).resetLayer p).lErr p F.lnkErr_QUARANTINED
  let w := w.setLp p { w.lp p with tr := {}, fails := 0, exits := [], quarSince := w.time, listenAt := none }
  w.notice { kind := 5, code := 5, time := w.time, data := toLE 8 (w.rd (Addr.lnkState p)) ++ toLE 8 (w.rd (Addr.lnkErr p)) }

/-- The port enters TRAIN (R400); `left` is the UP state it leaves, or 0. -/
def enterTrain (w : Chip) (p left : Nat) : Chip :=
  let w := (w.setLState p 1).bump (Addr.lnkTrainings p)
  w.setLp p { w.lp p with
    rateMax := min 2 (w.cfg (Addr.lnkCfg p) F.lnkCfg_RATE_MAX), laneEn := w.cfg (Addr.lnkCfg p) F.lnkCfg_LANE_EN
    prevSerial := w.rd (Addr.partnerSerial p)
    tr := { stage := 1, since := w.time, resume := left != 0, left := left }
    listenAt := none, good := 0, bad := 0, remapAt := none, remapDue := false, failed := 0, newMap := none, idleLeft := 0
    half := none, rxIn := [], ctrlIn := [], corr := [], initDue := false, initGot := false, initAcked := false, ackDue := 0 }

/-- The port leaves an UP state: the fourth exit within 1 s is to QUARANTINE (R412). `go` is where it leaves to. -/
def exitUp (w : Chip) (p : Nat) (go : Chip → Chip) : Chip :=
  let x := w.lp p
  let ex := (x.exits.filter fun t => decide (w.time < t + 1000000000)) ++ [w.time]
  let w := w.setLp p { x with exits := ex }
  if 4 ≤ ex.length then (w.quarantine p).portEvent p else go w

/-- A training fails (R400, R412). A port that had left an UP state reports it (R439). -/
def trainFail (w : Chip) (p : Nat) : Chip :=
  let x := w.lp p
  let left := x.tr.left
  let w := (w.setLp p { x with fails := x.fails + 1 }).lErr p F.lnkErr_TRAIN_FAIL
  let w := w.notice { kind := 5, code := 0, time := w.time,
                      data := toLE 8 (w.rd (Addr.lnkState p)) ++ toLE 8 (w.rd (Addr.lnkErr p)) }
  let w := if 2 ≤ x.fails then w.quarantine p else w.enterDown p
  if left != 0 then w.portEvent p else w

/-- The port retrains: from an UP state it enters TRAIN; a training under way that cannot go on has failed. -/
def retrain (w : Chip) (p : Nat) : Chip :=
  let st := w.lState p
  if isUp st then w.exitUp p fun w => w.enterTrain p st
  else if st = 1 then w.trainFail p
  else w

/-! ## Replay (R391, R393) -/

/-- A replay that started at SEQ `s` is in progress: a NAK for the same flit is ignored. -/
def replaying (w : Chip) (p s : Nat) : Bool := match (w.lp p).replay with | some (a, _) => a == s | none => false

/-- Start a replay from SEQ `s`. -/
def startReplay (w : Chip) (p s : Nat) : Chip :=
  let x := w.lp p
  if !(x.unacked.any fun f => f.seq == s) then w
  else
    let old := x.unacked.head?.any fun f => f.seq == s
    if old && 4 ≤ x.repCount then w.retrain p
    else
      ((w.setLp p { x with replay := some (s, s), repCount := if old then x.repCount + 1 else x.repCount }).bump
        (Addr.lnkReplays p)).lErr p F.lnkErr_REPLAY

/-- Start a replay from the oldest unacknowledged flit. -/
def replayOldest (w : Chip) (p : Nat) : Chip :=
  match (w.lp p).unacked with
  | f :: _ => w.startReplay p f.seq
  | [] => w

/-- The time from each flit's first transmission to the ACK that frees it is a sample of LINK_RTT (Table FLT-1). -/
def rttSamples (w : Chip) (p : Nat) (fs : List TxFlit) : Chip :=
  fs.foldl (fun (w : Chip) f => w.irisSample 0x02 (fun sel => bits sel 2 0 == p) ((w.time - f.firstAt : Nat) : Int)) w

/-- Use the ACK field of a good flit (R391). -/
def useAck (w : Chip) (p ack : Nat) : Chip :=
  let x := w.lp p
  let a := bits ack 11 0
  let valid := bit ack 12
  let rest := if valid && x.unacked.any (fun f => f.seq == a) then (x.unacked.dropWhile fun f => f.seq != a).drop 1
    else x.unacked
  let moved := decide (rest.length < x.unacked.length)
  let rep := match x.replay with
    | some (s, n) => if rest.any fun f => f.seq == n then some (s, n)
        else if moved then (rest.head?.map fun f => (f.seq, f.seq)).filter fun _ => x.unacked.any fun f => f.seq == n
        else none
    | none => none
  let w := (w.setLp p { x with unacked := rest, repCount := if moved then 0 else x.repCount, replay := rep }).rttSamples p
    (x.unacked.take (x.unacked.length - rest.length))
  let from_ := if valid then some ((a + 1) % 4096) else rest.head?.map fun f => f.seq
  match from_ with
  | some s => if bit ack 13 && !w.replaying p s then w.startReplay p s else w
  | none => w

/-! ## Lanes (R404 to R408) -/

/-- Load the scramblers of the lanes of a map (R382). -/
def loadScr (m : Nat) : Table Nat := (lanesOf m).foldl (fun t l => spInsert t l (scrInit l)) []

/-- A port in UP_POD that runs below full width is DEGRADED (Table LNK-9). -/
def degrade (w : Chip) (p : Nat) : Chip := if w.lState p = 3 && !w.fullWidth p then w.setLState p 4 else w

/-- Lane `l` is marked failed (R404), and a remap of the receive direction starts (R405, R406) or the port retrains. -/
def laneFailed (w : Chip) (p l : Nat) : Chip :=
  let x := w.lp p
  let m := w.rxMap p
  if !isUp (w.lState p) || !bit m l then w
  else
    let bad := putBit x.failed l true
    let w := (w.setLp p { x with failed := bad }).lErr p F.lnkErr_LANE_FAIL
    match laneSets.find? fun s => maskIn s m && Nat.land s bad == 0 with
    | none => w.retrain p
    | some s =>
      let w := (w.setFld (Addr.lnkState p) F.lnkState_RX_MAP s).bump (Addr.lnkRemaps p)
      (w.setLp p { w.lp p with remapAt := some w.time, remapDue := true, good := 0, bad := 0, cand := [] }).degrade p

end Chip

open Chip

/-! ## Arbitration (R90 to R103) -/

/-- The chip's own number as it stands in a header. -/
def Chip.ownNum (w : Chip) : Nat := w.chipNum?.getD 255

/-- The transmitter can take a flit of virtual channel `c` (R388, R391, R395, Table LNK-9). -/
def Chip.linkTakes (w : Chip) (p c : Nat) : Bool :=
  let x := w.lp p
  let st := w.lState p
  let offer := bits (w.rd (Addr.partnerOffer p)) (16 * c + 15) (16 * c)
  (st == 3 || st == 4 || (st == 2 && c == 3)) && x.txq.isNone && x.replay.isNone && decide (x.unacked.length < 256) &&
  decide ((tget x.sent c + 4096 - tget x.pFreed c) % 4096 < offer)

/-- Flit `k` of message `r`, as a header without SEQ and a payload (R383, R417, R418). -/
def Chip.flitOf (w : Chip) (r : MsgRec) (k : Nat) : Nat × List Byte :=
  let m := r.msg
  let fwd := match r.src with | .port _ => true | _ => false
  let n := if fwd then r.total else linkFlits m
  let d := (m.data.drop (128 * k)).take 128
  let src := if fwd || m.srcChip != 255 then m.srcChip else w.ownNum
  let pay := toLE 8 (hdrWord0 m src m.dstChip k n) ++ toLE 8 (hdrWord1 m k) ++ d
  let ep := if fwd || opFiltered m.op || m.op == Op.read then m.epoch else w.epoch
  (flitHdr (if k = 0 then 1 else 2) (vcOf m) 0 (if m.loc then 0 else m.dstChip % 256 + r.hops * 256) (16 + d.length) ep, pay)

/-- The link output arbiter of port `p` grants one flit (R98 to R103): it goes to the port's transmitter. -/
def Chip.linkGrant (w : Chip) (p : Nat) : Chip :=
  let ready := w.linkReady p
  let elig := ready.filter fun c => w.linkTakes p c
  let a := refillWindow linkParams (w.arb (128 + p))
  match arbWinner linkParams a elig with
  | none => w
  | some c =>
    match w.linkNext p c with
    | none => w
    | some (k, id, r) =>
      let n := match r.src with | .port _ => r.total | _ => linkFlits r.msg
      let last := r.sent + 1 == n
      let a := arbCount linkParams a c elig ready
      let a := { a with source := tput a.source c (k + 1), burst := if last then spErase a.burst c else spInsert a.burst c id }
      let w := (w.setArb (128 + p) a).setLp p { w.lp p with txq := some (w.flitOf r r.sent) }
      if last then w.dropMsg id else w.setMsg id { r with sent := r.sent + 1 }

/-- ARBITER_GRANT (R90, R98): arbiter `k`: the remote port of core k, the mesh entry of core k − 64, or the link output
port k − 128. -/
def arbiterGrant (k : Nat) (w : Chip) : Chip :=
  if !w.live then w
  else if k < 64 then w.portGrant k
  else if k < 128 then w.entryGrant (k - 64)
  else if k < 136 then (if w.portLive (k - 128) then w.linkGrant (k - 128) else w)
  else w
def execArbiterGrant (arb : Nat) (s : State) : Out := s.onChip (arbiterGrant arb)

/-! ## Receiving -/

/-- Corrected symbols of a codeword on `k` active lanes of a map are counted per lane (R404). -/
def Chip.countCorr (w : Chip) (p : Nat) (lanes : List Nat) (pos : List Nat) : Chip :=
  pos.foldl (fun w j =>
    let l := lanes.getD (j % lanes.length) 0
    let w := (w.bump (Addr.lnkFecCorr p)).bump (Addr.laneCorr p l)
    w.setLp p { w.lp p with corr := tput (w.lp p).corr l (tget (w.lp p).corr l + 1) }) w

/-- An uncorrectable codeword, or a flit discarded as lost: the next flit sent bears NAK, unless one has been sent since the
last flit accepted (R390). -/
def Chip.wantNak (w : Chip) (p : Nat) : Chip := w.setLp p { w.lp p with nakDue := true }

/-- FREED of the CRET field of a flit with a good CRC (R396). -/
def Chip.takeCret (w : Chip) (p : Nat) (f : List Byte) : Chip :=
  let cret := leNat ((f.drop 158).take 2)
  w.setLp p { w.lp p with pFreed := tput (w.lp p).pFreed (bits cret 1 0) (bits cret 13 2) }

/-- The ACK field of a flit with a good CRC. -/
def ackOf (f : List Byte) : Nat := leNat ((f.drop 156).take 2)

/-- SWITCH (Table LNK-8, step 3): 16 training sets of 256 bits at 1.25 Gb/s and 1 µs of electrical idle, in ticks. -/
def switchTicks : Nat := 4277

/-- SWITCH and its idle have ended: LOCK begins at the chosen rate and maps (Table LNK-8). The first codeword after it is a
lock point (R382). -/
def Chip.switchDone (w : Chip) (p : Nat) : Chip :=
  let x := w.lp p
  if w.lState p = 1 && x.tr.stage == 3 && decide (x.tr.since + switchTicks ≤ w.time) then
    let s := Addr.lnkState p
    let w := ((w.setFld s F.lnkState_RATE x.tr.rate).setFld s F.lnkState_TX_MAP x.tr.txMap).setFld s F.lnkState_RX_MAP x.tr.rxMap
    w.setLp p { x with tr := { x.tr with stage := 4, since := x.tr.since + switchTicks }, good := 0, bad := 0, half := none,
                       rxScr := loadScr x.tr.rxMap, txScr := loadScr x.tr.txMap }
  else w

/-- Descramble and decode one codeword from the scramblers `scr`: the scramblers after it, and the decoded word with the places
of its corrected symbols. -/
def descramble (lanes : List Nat) (rate n : Nat) (units : List (List Nat)) (scr : Table Nat) :
    Table Nat × Option (List Nat × List Nat) :=
  let dec := (lanes.zip units).map fun u => (u.1, scramble n (bitsOf rate u.2) (spGet scrInit scr u.1))
  (dec.foldl (fun t d => spInsert t d.1 d.2.2) [], rsDecode (codewordOf lanes.length (dec.map fun d => d.2.1)))

/-- CODEWORD_RECEIVE (R378 to R382, R384, R396, R411): one codeword, as the unit intervals of each active lane in ascending
lane order. Where it is correctable, its flits with a good CRC go on; while the port searches for lock, only their ACK and CRET
fields are used (log entry 35). In a remap, where the partner's lock point is not known before its first good codeword, each
codeword since the switch may have been the first (R382): the one from which the codeword decodes was. -/
def codewordReceive (p : Nat) (units : List (List Nat)) (w0 : Chip) : Chip :=
  let w := w0.switchDone p
  let x := w.lp p
  let st := w.lState p
  let lanes := lanesOf (w.rxMap p)
  let k := lanes.length
  let rate := w.lRate p
  let n := if k = 0 then 0 else 2720 / k
  let fits := units.length == k && units.all fun u => u.length == (if rate = 2 then n else n / 2)
  if !w0.portLive p || !(isUp st || (st == 1 && decide (4 ≤ x.tr.stage))) || k == 0 || !fits then w0
  else
    let search := x.remapAt.isSome || x.tr.stage == 4
    let open_ := x.remapAt.isSome && x.good == 0
    let tries := (if open_ then x.cand ++ [loadScr (w.rxMap p)] else [x.rxScr]).map (descramble lanes rate n units)
    let hit := (tries.find? fun t => t.2.isSome).getD (tries.headD ([], none))
    let w := w.setLp p { x with rxScr := hit.1, cand := if open_ && hit.2.isNone then tries.map fun t => t.1 else [] }
    match hit.2 with
    | none =>
      let w := ((w.bump (Addr.lnkFecUncorr p)).lErr p F.lnkErr_FEC_UNCORR).wantNak p
      let w := w.setLp p { w.lp p with good := 0, bad := x.bad + 1 }
      if isUp st && x.remapAt.isNone && 8 ≤ x.bad + 1 then w.retrain p else w
    | some (c, pos) =>
      let w := w.countCorr p lanes pos
      let w := w.setLp p { w.lp p with good := x.good + 1, bad := 0 }
      let b := bytesOf (c.take 256)
      [b.take 160, b.drop 160].foldl (fun w f =>
        if !flitGood f then (w.bump (Addr.lnkCrcErr p)).lErr p F.lnkErr_CRC
        else if search then (w.takeCret p f).useAck p (ackOf f)
        else w.setLp p { w.lp p with rxIn := (w.lp p).rxIn ++ [f] }) w
def execCodewordReceive (port : Nat) (units : List (List Nat)) (s : State) : Out := s.onChip (codewordReceive port units)

/-- A flit's TYPE, LENGTH and reserved bits are as Tables LNK-2 and LNK-3 allow (R385). -/
def hdrOk (h : Nat) : Bool :=
  bits h 63 50 == 0 && (match fType h with
    | 0 => fLen h == 0
    | 1 | 2 => decide (16 ≤ fLen h) && decide (fLen h ≤ 144)
    | 3 => fLen h == 16
    | _ => false)

/-- FLIT_RECEIVE (R385, R389, R391, R396, R397, R399): the next flit with a good CRC. -/
def flitReceive (p : Nat) (w : Chip) : Chip :=
  let x := w.lp p
  match x.rxIn with
  | [] => w
  | f :: rest =>
    if !w.portLive p then w
    else
      let h := leNat (f.take 8)
      let pay := (f.drop 8).take 144
      let w := (w.setLp p { x with rxIn := rest }).takeCret p f
      if !hdrOk h then (w.lErr p F.lnkErr_PROTO).retrain p
      else
        let w := w.useAck p (ackOf f)
        let x := w.lp p
        let vc := fVc h
        let q := spGet (fun _ => []) x.held vc
        if fType h = 0 then w
        else if fType h = 3 then
          (if 1 ≤ leNat (pay.take 1) ∧ leNat (pay.take 1) ≤ 4 then w.setLp p { x with ctrlIn := x.ctrlIn ++ [pay.take 16] }
           else w.lErr p F.lnkErr_PROTO)
        else if fSeq h = x.expect then
          if vcOffer vc ≤ q.length then (w.lErr p F.lnkErr_CREDIT_ERR).retrain p
          else w.setLp p { x with expect := (x.expect + 1) % 4096, accepted := true, nakOut := false,
                                  held := spPut (fun _ => []) x.held vc (q ++ [(h, pay)]) }
        else if (x.expect + 4096 - fSeq h) % 4096 ≤ 256 then w
        else w.wantNak p
def execFlitReceive (port : Nat) (s : State) : Out := s.onChip (flitReceive port)

/-- REPLAY_TIMEOUT (R391, R393). -/
def replayTimeout (p : Nat) (w : Chip) : Chip :=
  let x := w.lp p
  match x.unacked with
  | [] => w
  | f :: _ =>
    let t := max 1 (w.cfg (Addr.lnkCfg p) F.lnkCfg_REPLAY_TIMEOUT) * 16
    if w.portLive p && isUp (w.lState p) && decide (f.sentAt + t ≤ w.time) then w.startReplay p f.seq else w
def execReplayTimeout (port : Nat) (s : State) : Out := s.onChip (replayTimeout port)

/-! ## Transmitting -/

/-- The link control message due in the next flit (R399): code and argument bytes. A message that is repeated stands in the
first flit of each codeword, a CREDIT_INIT_ACK in any flit that is left. -/
def Chip.ctrlDue (w : Chip) (p : Nat) : Option (Nat × List Byte) :=
  let x := w.lp p
  let first := x.half.isNone
  if first && x.remapDue then some (3, [BitVec.ofNat 8 (w.rxMap p)])
  else if first && x.initDue then some (1, toLE 2 96 ++ toLE 2 96 ++ toLE 2 32 ++ toLE 2 32)
  else if first && x.retrainDue then some (4, [])
  else if 0 < x.ackDue then some (2, [])
  else none

/-- A codeword is complete (R376, R378, R380 to R382): its unit intervals per lane; at its boundary a new lane map takes
over (R406). -/
def Chip.sendCodeword (w : Chip) (p : Nat) (flits : List Byte) : Chip :=
  let x := w.lp p
  let lanes := lanesOf (w.txMap p)
  let k := lanes.length
  let m := symbolsOf flits
  let c := m ++ rsParity m
  let n := 2720 / k
  let out := (List.range k).map fun i =>
    let l := lanes.getD i 0
    (l, scramble n (laneBits c k i) (spGet scrInit x.txScr l))
  let w := w.setLp p { x with half := none, wire := out.map fun o => unitsOf (w.lRate p) n o.2.1,
                              txScr := out.foldl (fun t o => spInsert t o.1 o.2.2) [] }
  match x.newMap with
  | none => w
  | some m =>
    let w := (w.setFld (Addr.lnkState p) F.lnkState_TX_MAP m).setLp p
      { w.lp p with newMap := none, idleLeft := 16, txScr := loadScr m, replay := none }
    (w.replayOldest p).degrade p

/-- The port sends codewords: it is UP, at LOCK or LINK INIT of a training, or still announces RETRAIN. -/
def Chip.sends (w : Chip) (p : Nat) : Bool :=
  let st := w.lState p
  isUp st || (st == 1 && (decide (4 ≤ (w.lp p).tr.stage) || (w.lp p).retrainDue))

/-- The next flit without its ACK and CRET: header, payload, and the port as it is after it (R387, R391, R392, R399,
R406). -/
def Chip.nextFlit (w : Chip) (p : Nat) : Nat × List Byte × LinkPort :=
  let x := w.lp p
  let idle : Nat × List Byte := (flitHdr 0 0 x.nextSeq 0 0 w.epoch, [])
  let at4 := w.lState p == 1 && x.tr.stage == 4
  match (if !at4 && x.idleLeft == 0 then w.ctrlDue p else none) with
  | some (code, args) =>
    let arg := if code = 1 || code = 3 then 0 :: args else args
    (flitHdr 3 0 x.nextSeq 0 16 w.epoch, BitVec.ofNat 8 code :: arg, { x with ackDue := if code = 2 then x.ackDue - 1 else x.ackDue })
  | none =>
    if w.lState p = 1 then (idle.1, idle.2, x)
    else if 0 < x.idleLeft then (idle.1, idle.2, { x with idleLeft := x.idleLeft - 1 })
    else match x.replay with
      | some (s, n) =>
        match x.unacked.find? fun f => f.seq == n with
        | some f =>
          let more := x.unacked.getLast?.any fun g => g.seq != n
          (f.hdr, f.payload,
           { x with replay := if more then some (s, (n + 1) % 4096) else none,
                    unacked := x.unacked.map fun g => if g.seq = n then { g with sentAt := w.time } else g })
        | none => (idle.1, idle.2, { x with replay := none })
      | none =>
        match x.txq with
        | some (h, pay) =>
          let h := h + x.nextSeq * 2 ^ 6
          (h, pay, { x with txq := none, nextSeq := (x.nextSeq + 1) % 4096,
                            sent := tput x.sent (fVc h) ((tget x.sent (fVc h) + 1) % 4096),
                            unacked := x.unacked ++ [⟨x.nextSeq, h, pay, w.time, w.time⟩] })
        | none => (idle.1, idle.2, x)

/-- FLIT_TRANSMIT (R383, R384, R387, R388, R390, R392, R395, R396, R399): the port transmits its next flit; two make a
codeword. -/
def flitTransmit (p : Nat) (w0 : Chip) : Chip :=
  let w := w0.switchDone p
  if !w0.portLive p || !w.sends p || w.txMap p == 0 then w0
  else
    let (h, pay, x) := w.nextFlit p
    let nak := x.nakDue && !x.nakOut
    let ack := (x.expect + 4095) % 4096 + b2n x.accepted * 2 ^ 12 + b2n nak * 2 ^ 13
    let cret := x.cret + tget x.freed x.cret * 4
    let f := mkFlit h pay ack cret
    let w := w.setLp p { x with cret := (x.cret + 1) % 4, nakDue := false, nakOut := x.nakOut || nak }
    let w := if nak then w.bump (Addr.lnkNaksSent p) else w
    match x.half with
    | none => w.setLp p { w.lp p with half := some f }
    | some g => w.sendCodeword p (g ++ f)
def execFlitTransmit (port : Nat) (s : State) : Out := s.onChip (flitTransmit port)

/-! ## Link control (R399) -/

/-- The next link control message, if its code is `code`: its 16 bytes are used by `go`. -/
def Chip.ctrlMsg (w : Chip) (p code : Nat) (go : Chip → List Byte → Chip) : Chip :=
  let x := w.lp p
  match x.ctrlIn with
  | [] => w
  | m :: rest => if w.portLive p && leNat (m.take 1) == code then go (w.setLp p { x with ctrlIn := rest }) m else w

/-- LINK INIT has ended once the partner's offers and its acknowledgement are there (Table LNK-8): the port is UP_LINK. The root
hears of the reset of a port that carried the pod's traffic (R438), and of a new partner (R439); a reset of a port that was in
UP_LINK with the same partner starts no epoch. -/
def Chip.initEnd (w : Chip) (p : Nat) : Chip :=
  let x := w.lp p
  if w.lState p = 1 && x.tr.stage == 5 && x.initGot && x.initAcked then
    let w1 := (w.setLState p 2).setLp p { x with tr := {}, fails := 0, winAt := w.time }
    if x.tr.left = 2 && x.prevSerial == w.rd (Addr.partnerSerial p) then w1 else w1.portEvent p
  else w

/-- CREDIT_INIT: the partner's offers; one acknowledgement is due for it. -/
def creditInit (p : Nat) (w : Chip) : Chip :=
  w.ctrlMsg p 1 fun w m =>
    let w := w.setReg (Addr.partnerOffer p) (leNat ((m.drop 2).take 8))
    (w.setLp p { w.lp p with initGot := true, ackDue := (w.lp p).ackDue + 1 }).initEnd p
def execCreditInit (port : Nat) (s : State) : Out := s.onChip (creditInit port)

/-- CREDIT_INIT_ACK: the repetition of CREDIT_INIT ends. -/
def creditInitAck (p : Nat) (w : Chip) : Chip :=
  w.ctrlMsg p 2 fun w _ => (w.setLp p { w.lp p with initDue := false, initAcked := true }).initEnd p
def execCreditInitAck (port : Nat) (s : State) : Out := s.onChip (creditInitAck port)

/-- REMAP (R406): the transmitter takes the new map at the next codeword boundary; repetitions change nothing. -/
def remap (p : Nat) (w : Chip) : Chip :=
  w.ctrlMsg p 3 fun w m =>
    let map := leNat ((m.drop 2).take 1)
    let x := w.lp p
    if !isUp (w.lState p) || map == w.txMap p || !laneSets.contains map || !maskIn map (w.txMap p) then w
    else w.setLp p { x with newMap := some map }
def execRemap (port : Nat) (s : State) : Out := s.onChip (remap port)

/-- RETRAIN: the port enters TRAIN. -/
def retrainMsg (p : Nat) (w : Chip) : Chip :=
  w.ctrlMsg p 4 fun w _ => if isUp (w.lState p) then w.retrain p else w
def execRetrain (port : Nat) (s : State) : Out := s.onChip (retrainMsg port)

/-! ## Training (R400 to R403) -/

/-- A training set is valid (Table LNK-7). -/
def setOk (d : List Byte) : Bool :=
  d.length == 32 && leNat (d.take 4) == 0x3C5AA5C3 && crc32c (d.take 28) == leNat (d.drop 28) &&
  ((d.drop 19).take 9).all (fun b => b == 0) && decide (1 ≤ leNat ((d.drop 4).take 1)) && decide (leNat ((d.drop 4).take 1) ≤ 3)

/-- Byte `i` of a training set. -/
def setByte (d : List Byte) (i : Nat) : Nat := (d.getD i 0).toNat

/-- Rates this side names: every rate supported and not above RATE_MAX. -/
def Chip.ownRates (w : Chip) (p : Nat) : Nat := ((List.range 3).filter fun r => decide (w.rateMax p ≤ r)).foldl (fun m r => m + 2 ^ r) 0

/-- The rate to try from rate `from_` on (R401, R402): the highest that both sides name. -/
def Chip.commonRate (w : Chip) (p from_ : Nat) : Option Nat :=
  [0, 1, 2].find? fun r => decide (from_ ≤ r) && bit (w.ownRates p) r && bit (w.lp p).tr.rates r

/-- The training set that the port sends on lane `l` (Table LNK-7). -/
def trainingSet (w : Chip) (p l : Nat) : List Byte :=
  let t := (w.lp p).tr
  let kind := if t.stage ≤ 1 then 1 else if t.stage = 2 then 2 else 3
  let b (v : Nat) : Byte := BitVec.ofNat 8 v
  let body := toLE 4 0x3C5AA5C3 ++ [b kind, b (l + p * 16), b (w.ownRates p + b2n t.resume * 128), b t.heard] ++
    toLE 8 Config.chipSerial.toNat ++ (if kind = 1 then [0, 0] else [b t.rxMap, b t.rate]) ++ List.replicate 10 0
  body ++ toLE 4 (crc32c body)

/-- CONFIGURE begins: this side's RX_MAP and the rate (R401), or the training fails. -/
def Chip.configure (w : Chip) (p : Nat) : Chip :=
  let x := w.lp p
  match laneSets.find? fun s => maskIn s x.tr.heard && maskIn s (w.laneEn p), w.commonRate p 0 with
  | some m, some r => w.setLp p { x with tr := { x.tr with stage := 2, since := w.time, rxMap := m, rate := r, ts2 := [], ts2n := 0 } }
  | _, _ => w.trainFail p

/-- The partner's fields of one round of training sets are recorded (Table LNK-7). -/
def Chip.recordSets (w : Chip) (p : Nat) (sets : List (Nat × List Byte)) (d : List Byte) : Chip :=
  let x := w.lp p
  let heard := (sets.filter fun s => setByte s.2 4 == 1).foldl (fun m s => putBit m s.1 true) x.tr.heard
  let w := (w.setReg (Addr.partnerSerial p) (leNat ((d.drop 8).take 8))).setReg (Addr.partnerInfo p) (bits (setByte d 5) 6 4)
  w.setLp p { x with
    retrainDue := false
    preset := if bit (setByte d 18) 7 then setByte d 18 % 16 else x.preset
    tr := { x.tr with heard := heard, partnerOk := setByte d 7, rates := bits (setByte d 6) 6 0, pResume := bit (setByte d 6) 7 } }

/-- TRAINING_SET_RECEIVED (Table LNK-8): one round of training sets, one per lane on which one was received, advances the
training. A port in DOWN listens (R430) and starts to train. -/
def trainingSetReceived (p : Nat) (sets : List (Nat × List Byte)) (w : Chip) : Chip :=
  let sets := sets.filter fun s => setOk s.2 && setByte s.2 5 % 8 == s.1 && bit (w.laneEn p) s.1
  match sets with
  | [] => w
  | (_, d) :: _ =>
    if !w.portLive p || w.flag (Addr.lnkCtrl p) F.lnkCtrl_DISABLE || !(w.lState p == 0 || w.lState p == 1) then w
    else
      let w := if w.lState p = 0 then w.enterTrain p 0 else w.switchDone p
      let w := w.recordSets p sets d
      let x := w.lp p
      match x.tr.stage with
      | 1 => if 2 ≤ popCount 8 x.tr.heard ∧ 2 ≤ popCount 8 x.tr.partnerOk then w.configure p else w
      | 2 =>
        let key := (d.drop 6).take 13
        if sets.any fun s => setByte s.2 4 != 2 || (s.2.drop 6).take 13 != key then
          w.setLp p { x with tr := { x.tr with ts2 := [], ts2n := 0 } }
        else
          let n := if x.tr.ts2 == key then x.tr.ts2n + 1 else 1
          let t := { x.tr with ts2 := key, ts2n := n }
          if 16 ≤ n then
            w.setLp p { x with tr := { t with stage := 3, since := w.time, txMap := setByte d 16 } }
          else w.setLp p { x with tr := t }
      | _ => w
def execTrainingSetReceived (port : Nat) (sets : List (Nat × List Byte)) (s : State) : Out :=
  s.onChip (trainingSetReceived port sets)

/-- Limit of a training stage, in ticks (Table LNK-8). -/
def stageLimit (stage : Nat) : Nat := match stage with | 3 => 100000 | 5 => 10000 | _ => 1000000

/-- TRAINING_STAGE_TIMEOUT (R400, R402): a stage has exceeded its limit. LOCK returns to SWITCH at the next lower common
rate. SWITCH ends by itself (log entry 36). -/
def trainingStageTimeout (p : Nat) (w0 : Chip) : Chip :=
  let w := w0.switchDone p
  let x := w.lp p
  if !w0.portLive p then w0
  else if w.lState p != 1 || !decide (x.tr.since + stageLimit x.tr.stage < w.time) then w
  else if x.tr.stage = 4 then
    match w.commonRate p (x.tr.rate + 1) with
    | some r => w.setLp p { x with tr := { x.tr with stage := 3, since := w.time, rate := r } }
    | none => w.trainFail p
  else w.trainFail p
def execTrainingStageTimeout (port : Nat) (s : State) : Out := s.onChip (trainingStageTimeout port)

/-- LINK INIT begins (R403): both sides resume, or both reset their link layers and send CREDIT_INIT. A reset of a link
that carried the pod's traffic is reported to the root (R438). -/
def Chip.linkInit (w : Chip) (p : Nat) : Chip :=
  let x := w.lp p
  if x.tr.resume && x.tr.pResume then
    let st := if x.tr.left = 2 then 2 else if w.fullWidth p then 3 else 4
    ((w.setLState p st).setLp p { x with tr := {}, fails := 0, replay := none, repCount := 0, winAt := w.time }).replayOldest p
  else
    let w := w.resetLayer p
    w.setLp p { w.lp p with tr := { x.tr with stage := 5, since := w.time }, initDue := true }

/-- LOCK_ACHIEVED (R400, R406): eight consecutive correctable codewords, at a training, or at a remap. -/
def lockAchieved (p : Nat) (w : Chip) : Chip :=
  let x := w.lp p
  if !w.portLive p || !decide (8 ≤ x.good) then w
  else if w.lState p = 1 && x.tr.stage == 4 then w.linkInit p
  else if isUp (w.lState p) && x.remapAt.isSome then
    w.setLp p { x with remapAt := none, remapDue := false, corr := [], winAt := w.time }
  else w
def execLockAchieved (port : Nat) (s : State) : Out := s.onChip (lockAchieved port)

/-- LISTEN_BACKOFF_EXPIRY (R430): the port starts to transmit training sets. -/
def listenBackoffExpiry (p : Nat) (w : Chip) : Chip :=
  match (w.lp p).listenAt with
  | none => w
  | some t =>
    if w.portLive p && w.lState p == 0 && !w.flag (Addr.lnkCtrl p) F.lnkCtrl_DISABLE && decide (t ≤ w.time) then w.enterTrain p 0
    else w
def execListenBackoffExpiry (port : Nat) (s : State) : Out := s.onChip (listenBackoffExpiry port)

/-! ## Lane failure -/

/-- LOSS_OF_SIGNAL (R404). -/
def lossOfSignal (p l : Nat) (w : Chip) : Chip := if w.portLive p then w.laneFailed p l else w
def execLossOfSignal (port lane : Nat) (s : State) : Out := s.onChip (lossOfSignal port lane)

/-- LANE_FAIL_WINDOW (R404): the end of a 1 ms window: lanes whose corrected symbols exceeded LANE_FAIL_THRESH. -/
def laneFailWindow (p : Nat) (w : Chip) : Chip :=
  let x := w.lp p
  if !w.portLive p || !isUp (w.lState p) || !decide (x.winAt + 1000000 ≤ w.time) then w
  else
    let above := (List.range 8).filter fun l => decide (w.cfg (Addr.lnkCfg p) F.lnkCfg_LANE_FAIL_THRESH < tget x.corr l)
    above.foldl (fun w l => w.laneFailed p l) (w.setLp p { x with corr := [], winAt := w.time })
def execLaneFailWindow (port : Nat) (s : State) : Out := s.onChip (laneFailWindow port)

/-- REMAP_TIMEOUT (R407): 2.0 µs after the lane failure without lock. -/
def remapTimeout (p : Nat) (w : Chip) : Chip :=
  match (w.lp p).remapAt with
  | some t => if w.portLive p && isUp (w.lState p) && decide (t + 2000 ≤ w.time) then w.retrain p else w
  | none => w
def execRemapTimeout (port : Nat) (s : State) : Out := s.onChip (remapTimeout port)

/-! ## QUARANTINE and the control register -/

/-- QUAR_HOLD_EXPIRY (R412). -/
def quarHoldExpiry (p : Nat) (w : Chip) : Chip :=
  let h := w.cfg (Addr.lnkCfg p) F.lnkCfg_QUAR_HOLD
  if w.portLive p && w.lState p == 5 && h != 0 && decide ((w.lp p).quarSince + h * 100000000 ≤ w.time) then w.enterDown p else w
def execQuarHoldExpiry (port : Nat) (s : State) : Out := s.onChip (quarHoldExpiry port)

/-- LNK_RETRAIN_WRITE (R409, Table LNK-13): the port enters TRAIN and sends RETRAIN until training sets come. -/
def lnkRetrainWrite (p : Nat) (w : Chip) : Chip :=
  let st := w.lState p
  if !w.portLive p || w.flag (Addr.lnkCtrl p) F.lnkCtrl_DISABLE then w
  else if isUp st then
    let w := w.retrain p
    if w.lState p = 1 then w.setLp p { w.lp p with retrainDue := true } else w
  else if st = 0 then w.enterTrain p 0
  else w
def execLnkRetrainWrite (port : Nat) (s : State) : Out := s.onChip (lnkRetrainWrite port)

/-- LNK_RELEASE_WRITE (R412). -/
def lnkReleaseWrite (p : Nat) (w : Chip) : Chip := if w.portLive p && w.lState p == 5 then w.enterDown p else w
def execLnkReleaseWrite (port : Nat) (s : State) : Out := s.onChip (lnkReleaseWrite port)

/-- LNK_DISABLE_WRITE (R410, Table LNK-13): 1 holds the port in DOWN with its transmitter idle; 0 lets it listen. -/
def lnkDisableWrite (p : Nat) (on : Bool) (w : Chip) : Chip :=
  if !w.portLive p then w
  else
    let was := w.flag (Addr.lnkCtrl p) F.lnkCtrl_DISABLE
    let st := w.lState p
    let w := w.setFlag (Addr.lnkCtrl p) F.lnkCtrl_DISABLE on
    if on then
      let down (w : Chip) : Chip := let w := w.enterDown p; w.setLp p { w.lp p with listenAt := none }
      if isUp st then w.exitUp p fun w => (down w).portEvent p
      else if st = 5 then w
      else down w
    else if was && st == 0 then w.setLp p { w.lp p with listenAt := some (w.time + backoffTicks p) }
    else w
def execLnkDisableWrite (port : Nat) (on : Bool) (s : State) : Out := s.onChip (lnkDisableWrite port on)

end Sys2Proof.Machine
end

