-- ==== Sys2Proof/Machine/Pod.lean ====
section
/-! DEFINITION. Transactions of the Opbihan link (15_link_transactions_and_pod.md, R417 to R429, R436, R437): arrival,
the readiness, epoch and duplicate checks, responses, resending, and forwarding. -/

namespace Sys2Proof.Machine

/-- Epoch `e` is newer than `f`. -/
def newerEpoch (e f : Nat) : Bool :=
  let d := (e + 256 - f % 256) % 256
  decide (1 ≤ d) && decide (d ≤ 127)

/-- What a transaction is to its receiver: 0 a request or coherence message, 1 an answer with a result, 2
NAK_NOT_READY, 3 EPOCH_STALE. -/
def arrivalKind (m : Msg) : Nat :=
  match m.op with
  | .nakNotReady => 2
  | .epochStale => 3
  | _ => if isResponse m then 1 else 0

/-- Routed by the current table and taken whatever epoch it carries (R422): no request. -/
def epochFree (m : Msg) : Bool :=
  match m.op with
  | .invAck | .notHeld | .evictNote => true
  | _ => isResponse m

/-- Header words and data of a flit (R383, R417). -/
def payWord0 (pay : List Byte) : Nat := leNat (pay.take 8)
def payWord1 (pay : List Byte) : Nat := leNat ((pay.drop 8).take 8)
def payData (h : Nat) (pay : List Byte) : List Byte := (pay.drop 16).take (fLen h - 16)

namespace Chip

/-! ## Flits at a port -/

/-- The oldest flit held on virtual channel `vc` of port `p`. -/
def frontFlit (w : Chip) (p vc : Nat) : Option (Nat × List Byte) := (spGet (fun _ => []) (w.lp p).held vc).head?

/-- Take it: its place is freed (R395). -/
def freeFlit (w : Chip) (p vc : Nat) : Chip :=
  let x := w.lp p
  w.setLp p { x with held := spPut (fun _ => []) x.held vc ((spGet (fun _ => []) x.held vc).drop 1),
                     freed := tput x.freed vc ((tget x.freed vc + 1) % 4096) }

/-- A flit is for this chip: LOCAL, or routed to its number (R417, R422). -/
def flitHere (w : Chip) (h : Nat) (pay : List Byte) : Bool :=
  bit (payWord0 pay) 11 || w.chipNum? == some (fRoute h % 256)

/-- Set or clear the transaction being received on a virtual channel. -/
def setAsm (w : Chip) (p vc : Nat) (m : Option Msg) : Chip :=
  let x := w.lp p
  w.setLp p { x with asm := match m with | some m => spInsert x.asm vc m | none => spErase x.asm vc }

/-- The transaction being received on a virtual channel is cut off part way: it is not performed, and its TID may come
again (R426). -/
def cutAsm (w : Chip) (p vc : Nat) : Chip :=
  match spFind? (w.lp p).asm vc with
  | none => w
  | some m => (w.endPerform m).setAsm p vc none

/-- A transaction with a header of no row of Tables POD-1 and POD-2 is discarded (R417, R420). -/
def podProto (w : Chip) : Chip := w.setFlag Addr.podErr F.podErr_PROTO true

/-- The next flit of virtual channel `vc` of port `p`, if it belongs to a transaction of kind `kind` for this chip
(R417, R418): a HEAD is judged by `judge`, whose answer is the state after a refusal; an accepted one is marked as being
performed (R426). A CONT adds its data to the transaction that it continues, one that continues none is discarded, and one
with a header of no table discards the whole transaction. The last flit performs it. -/
def arriveFlit (w : Chip) (p vc kind : Nat) (judge : Chip → Msg → Option Chip) (perform : Chip → Msg → Chip) : Chip :=
  match w.frontFlit p vc with
  | none => w
  | some (h, pay) =>
    let d := payData h pay
    let last := bit (payWord0 pay) 10
    if !w.portLive p || !w.flitHere h pay then w
    else if fType h = 1 then
      match msgOf vc (payWord0 pay) (payWord1 pay) (fEpoch h) d with
      | none => if kind = 0 then ((w.freeFlit p vc).cutAsm p vc).podProto else w
      | some m =>
        if arrivalKind m != kind then w
        else
          let w := (w.freeFlit p vc).cutAsm p vc
          match judge w m with
          | some w => w
          | none =>
            let w := w.beginPerform m
            if last then perform w m else w.setAsm p vc (some m)
    else
      match spFind? (w.lp p).asm vc with
      | none => if kind = 0 then w.freeFlit p vc else w
      | some m =>
        if arrivalKind m != kind then w
        else
          let w := w.freeFlit p vc
          match contOf m vc (payWord0 pay) (payWord1 pay) (fEpoch h) d with
          | none => (w.cutAsm p vc).podProto
          | some m' =>
            if m'.data.length = m.data.length then w
            else if last then perform (w.setAsm p vc none) m' else w.setAsm p vc (some m')

/-! ## Requests of other chips -/

/-- The backoff B returns to 0 (R429). -/
def backoffEnd (w : Chip) (c : Nat) : Chip := { w with pod := { w.pod with backoff := spErase w.pod.backoff c } }

/-- Answer a request at its port, without performing it (R422, R426, R428, R436): back by the route to its chip, or, for a
LOCAL request or where there is none, by the port it came from. The chips of the request are exchanged (R419), also where
this chip only forwards. -/
def answerPort (w : Chip) (p : Nat) (m : Msg) (op : Op) (status detail : Nat) (data : List Byte) (dup : Bool) : Chip :=
  let q := if m.loc then p else (w.route? m.srcChip).getD p
  w.inject .hub (.port q) 1
    { m with op := op, dstChip := m.srcChip, srcChip := m.dstChip, status := status, addr := detail, base := m.addr, data := data,
             arg := 0, dup := dup }

/-- NAK_NOT_READY with a hint in µs (R428, R436). -/
def nakPort (w : Chip) (p : Nat) (m : Msg) (hint : Nat) : Chip :=
  (w.bump Addr.podNrSent).answerPort p m .nakNotReady 0 hint [] false

/-- EPOCH_STALE with this chip's epoch (R422, R436). -/
def stalePort (w : Chip) (p : Nat) (m : Msg) : Chip := w.answerPort p m .epochStale 0 w.epoch [] false

/-- The epoch check of a request's HEAD (R436): the state after the refusal, if it is refused. -/
def epochCheck (w : Chip) (p : Nat) (m : Msg) : Option Chip :=
  if m.epoch = w.epoch then none
  else if newerEpoch w.epoch m.epoch then some ((w.bump Addr.podStaleSent).stalePort p m)
  else some (w.nakPort p m 1)

/-- The readiness hint (R428). -/
def nrHint (w : Chip) : Nat := w.fld Addr.podCtrl F.podCtrl_NR_HINT

/-- The checks of an arriving request in order: readiness (R428), epoch (R436), duplicate filter (R426). -/
def judgeRequest (w : Chip) (p : Nat) (m : Msg) : Option Chip :=
  if epochFree m || m.op == Op.timeSync then none
  else if m.op == Op.podMgmt then
    (if w.flag Addr.podCtrl F.podCtrl_MGMT_OPEN then none else some (w.nakPort p m w.nrHint))
  else if !w.flag Addr.stwStatus F.stwStatus_READY then some (w.nakPort p m w.nrHint)
  else if m.loc then none
  else match w.epochCheck p m with
    | some w => some w
    | none =>
      if !m.filt then none
      else match (spGet (fun _ => []) w.pod.filter m.srcChip).find? fun o => o.tid == m.tid with
        | some o => some ((w.bump Addr.podDupAnswered).answerPort p m o.op o.status o.detail o.data true)
        | none => if w.pod.performing.contains (m.srcChip, m.tid) then some w else none

/-- The place on this chip where a request of another chip is performed (Table POD-2). -/
def placeOf (m : Msg) (core mark : Nat) : Place :=
  match m.op with
  | .read | .write => if m.addr < 0x4000000 then .core (m.addr / 0x100000) else .hub
  | .invAck | .notHeld | .evictNote => .core (m.addr / 0x100000)
  | .atomicAdd =>
    if bit m.arg 1 then (if m.addr < 0x5000000 then .hub else .core ((m.addr - 0x5000000) / 0x40000))
    else .core (m.addr / 0x100000)
  | .snoopInv => if mark = 1 then .hub else .core core
  | _ => .hub

/-- A request that is no LM, device-region or signal access: its answer is RANGE (R39, R46, R108, R111). -/
def outside (m : Msg) : Bool :=
  match m.op with
  | .read | .write => decide (0x8000000 ≤ m.addr)
  | .atomicAdd => !bit m.arg 1 && decide (0x4000000 ≤ m.addr)
  | _ => false

/-- Perform an accepted request (R418): it goes to the block that applies it. `core` is the core that a SNOOP_INV is for
or that answers one, and `mark` is 1 for a broad SNOOP_INV or its answer, 1 for a read that may not fill, and the fill
tag of an EVICT_NOTE: items that Table POD-1 does not lay out (log entry 17). -/
def performRequest (w : Chip) (p core mark : Nat) (m : Msg) : Chip :=
  let m := { m with dstChip := 255 }
  match m.op with
  | .podMgmt | .timeSync => { w with pod := { w.pod with mgmtIn := w.pod.mgmtIn ++ [(p, m)] } }
  | .invAck | .notHeld =>
    let held (q : Nat × OutReq) : Bool := q.2.msg.op == Op.snoopInv && q.2.msg.dstChip == m.srcChip && q.2.msg.tid == m.tid &&
        q.2.msg.srcCore == m.addr / 0x100000 && (mark == 1 || q.2.msg.pos == core)
    let w := if w.pod.outReqs.any held then w.backoffEnd m.srcChip else w
    let w := { w with pod := { w.pod with outReqs := w.pod.outReqs.filter fun q => !held q } }
    w.inject (.port p) (placeOf m core mark) 2 { m with pos := core, arg := mark }
  | _ =>
    if outside m then
      w.answer .hub m (if m.op == Op.write then .writeAck else .readData) 2 0 []
    else
      w.inject (.port p) (placeOf m core mark) 1
        { m with arg := if m.op == Op.snoopInv then mark else m.arg, uncached := mark == 1, fillTag := mark }

/-! ## Requests of this chip -/

/-- The request that an answer on port `p` is for (R419). -/
def matchReq (w : Chip) (p : Nat) (m : Msg) : Option (Nat × OutReq) :=
  w.pod.outReqs.find? fun q =>
    let r := q.2.msg
    r.tid == m.tid && r.filt == m.filt && r.dstChip == (if m.loc then 256 + p else m.srcChip) &&
      r.srcCore == m.srcCore && r.srcUnit == m.srcUnit && r.srcSlot == m.srcSlot

/-- Replace a request held. -/
def setReq (w : Chip) (k : Nat) (o : OutReq) : Chip := { w with pod := { w.pod with outReqs := spInsert w.pod.outReqs k o } }
/-- A request is no longer held. -/
def dropReq (w : Chip) (k : Nat) : Chip := { w with pod := { w.pod with outReqs := spErase w.pod.outReqs k } }

/-- The class of a unit's requests at the mesh entry (Table ARB-1). -/
def unitClass (u : Nat) : Nat := if u = 3 then 0 else if 4 ≤ u ∧ u ≤ 7 then u - 2 else 1

/-- Send a request that is held (R429, R437): the same TID, this chip's epoch. -/
def sendAgain (w : Chip) (k : Nat) (o : OutReq) : Chip :=
  let m := { o.msg with epoch := w.epoch }
  let w := w.setReq k { msg := m, epoch := w.epoch, sent := o.sent + 1 }
  let out := if m.loc then m.dstChip - 256 else w.outPort m.dstChip
  w.inject (if 8 ≤ m.srcUnit then .hub else .core m.srcCore) (.port out) (unitClass m.srcUnit) m

/-- The filtered requests to chip `c` that waited for an older one to be answered are sent, as far as R424 allows. -/
def sendWaiting (w : Chip) (c : Nat) : Chip :=
  (w.pod.outReqs.filter fun q => q.2.msg.dstChip == c && q.2.sent == 0 && w.inWindow c q.2.msg.tid).foldl
    (fun w q => w.sendAgain q.1 q.2) w

/-- An answer reaches its requester (R419): the first for a request held; any other is discarded. -/
def takeReply (w : Chip) (p : Nat) (unc : Bool) (tag : Nat) (m : Msg) : Chip :=
  match w.matchReq p m with
  | none => w
  | some (k, o) =>
    let c := o.msg.dstChip
    let w := ((w.dropReq k).backoffEnd c).sendWaiting c
    w.inject (.port p) (if 8 ≤ m.srcUnit then .hub else .core m.srcCore) 0
      { m with dstChip := 255, acc := o.msg.acc, pos := o.msg.pos, uncached := unc, fillTag := tag }

end Chip

open Chip

/-- TRANSACTION_ARRIVAL (R417 to R420, R426, R428, R436): the next flit of a request or coherence message for this chip
on virtual channel `vc` of port `p`. -/
def transactionArrival (p vc core mark : Nat) (w : Chip) : Chip :=
  w.arriveFlit p vc 0 (fun w m => w.judgeRequest p m) fun w m => w.performRequest p core mark m
def execTransactionArrival (port vc core mark : Nat) (s : State) : Out := s.onChip (transactionArrival port vc core mark)

/-- RESPONSE_ARRIVAL (R419): the next flit of an answer for this chip. An answer with a STATUS that is no fault code is
discarded (R224). `unc` and `tag` are the marks of READ_DATA, which Table POD-1 does not lay out (log entry 17). -/
def responseArrival (p vc : Nat) (unc : Bool) (tag : Nat) (w : Chip) : Chip :=
  w.arriveFlit p vc 1 (fun w m => if 0x0F < m.status then some w.podProto else none) fun w m => w.takeReply p unc tag m
def execResponseArrival (port vc : Nat) (uncached : Bool) (fillTag : Nat) (s : State) : Out :=
  s.onChip (responseArrival port vc uncached fillTag)

/-- NAK_NOT_READY (R429): the request is due again after max(hint, B) µs. -/
def nakNotReady (p : Nat) (w : Chip) : Chip :=
  w.arriveFlit p 1 2 (fun _ _ => none) fun w m =>
    let w := w.bump Addr.podNrReceived
    match w.matchReq p m with
    | none => w
    | some (k, o) =>
      let c := o.msg.dstChip
      let b0 := tget w.pod.backoff c
      let b := if b0 = 0 then 16 else min 16384 (2 * b0)
      let w := { w with pod := { w.pod with backoff := tput w.pod.backoff c b } }
      w.setReq k { o with retryAt := some (w.time + max (bits m.addr 15 0) b * 1000) }
def execNakNotReady (port : Nat) (s : State) : Out := s.onChip (nakNotReady port)

/-- EPOCH_STALE (R437): the request is sent again once the chip has a newer epoch than the request carried. -/
def epochStale (p : Nat) (w : Chip) : Chip :=
  w.arriveFlit p 1 3 (fun _ _ => none) fun w m =>
    let w := w.bump Addr.podStaleReceived
    match w.matchReq p m with
    | none => w
    | some (k, o) =>
      let w := w.backoffEnd o.msg.dstChip
      if newerEpoch w.epoch o.epoch then (w.bump Addr.podResent).sendAgain k o
      else w.setReq k { o with stale := true }
def execEpochStale (port : Nat) (s : State) : Out := s.onChip (epochStale port)

/-- NOT_READY_RETRY (R429): request `req` is sent again, with its TID. -/
def notReadyRetry (req : Nat) (w : Chip) : Chip :=
  match spFind? w.pod.outReqs req with
  | none => w
  | some o =>
    match o.retryAt with
    | some t => if w.live && decide (t ≤ w.time) then w.sendAgain req o else w
    | none => w
def execNotReadyRetry (req : Nat) (s : State) : Out := s.onChip (notReadyRetry req)

/-! ## Forwarding (R422) -/

namespace Chip

/-- A HEAD that this chip cannot route (R422). A request is answered EPOCH_STALE; the root hears of it. -/
def unroutable (w : Chip) (p : Nat) (m : Msg) : Chip :=
  if epochFree m then w else ((w.bump Addr.podRouteErr).stalePort p m).portEvent p

/-- A message of this chip that has no route leaves the crossbar (R422). A request is discarded and counts in ROUTE_ERR;
its requester on this chip takes the EPOCH_STALE at once, and the root hears of it by an event of the parent port, or, at
the root, of no port (log entry 37). A response is discarded. -/
def ownUnroutable (w : Chip) : Chip :=
  match oldest (w.net.msgs.filter fun r => r.2.stage == .linkQ && r.2.dst == .port 8) with
  | none => w
  | some (id, r) =>
    let w := w.dropMsg id
    if epochFree r.msg then w
    else
      let w := (w.bump Addr.podRouteErr).bump Addr.podStaleReceived
      let mark (q : Nat × OutReq) : Nat × OutReq :=
        if q.2.msg.dstChip == r.msg.dstChip && q.2.msg.tid == r.msg.tid && q.2.msg.filt == r.msg.filt &&
          q.2.msg.op == r.msg.op && q.2.msg.srcCore == r.msg.srcCore then (q.1, { q.2 with stale := true }) else q
      let w := { w with pod := { w.pod with outReqs := w.pod.outReqs.map mark } }
      match w.parentPort? with
      | some p => w.portEvent p
      | none => w.linkEvent 8 0 0

/-- Put a forwarded HEAD in the queue of output port `q` on its virtual channel. -/
def forwardHead (w : Chip) (p q vc hops : Nat) (last : Bool) (m : Msg) : Chip :=
  let id := w.nextId
  (w.setMsg id { msg := m, src := .port p, dst := .port q, cls := vc, stage := .linkQ,
                 total := if last then 1 else (m.len + 127) / 128, arrived := 1, stamp := id, hops := hops }).bumpId

/-- The transaction that a CONT flit on virtual channel `vc` of port `p` belongs to. -/
def forwarding? (w : Chip) (p vc : Nat) : Option (Nat × MsgRec) :=
  w.net.msgs.find? fun r => r.2.stage == .linkQ && r.2.src == .port p && r.2.cls == vc && decide (r.2.arrived < r.2.total)

end Chip

/-- FLIT_FORWARD (R417, R418, R422, R436): the next flit on virtual channel `vc` of port `p` is for another chip. A HEAD
passes the epoch check of a request, takes its route, and counts a hop; a CONT follows its HEAD. Port 8 stands for this
chip's own messages that have no route. -/
def flitForward (p vc : Nat) (w : Chip) : Chip :=
  if p = 8 then (if w.live && w.switchedOn then w.ownUnroutable else w) else
  match w.frontFlit p vc with
  | none => w
  | some (h, pay) =>
    let d := payData h pay
    let last := bit (payWord0 pay) 10
    if !w.portLive p || w.flitHere h pay then w
    else
      let w := w.freeFlit p vc
      if fType h = 1 then
        match msgOf vc (payWord0 pay) (payWord1 pay) (fEpoch h) d with
        | none => w.podProto
        | some m =>
          match (if epochFree m then none else w.epochCheck p m) with
          | some w => w
          | none =>
            let hops := fRoute h / 256 % 16 + 1
            match w.route? (fRoute h % 256) with
            | some q => if 15 < hops then w.unroutable p m else w.forwardHead p q vc hops last m
            | none => w.unroutable p m
      else
        match w.forwarding? p vc with
        | none => w
        | some (id, r) =>
          match contOf r.msg vc (payWord0 pay) (payWord1 pay) (fEpoch h) d with
          | none => (w.dropMsg id).podProto
          | some m =>
            if m.data.length = r.msg.data.length then w
            else w.setMsg id { r with msg := m, arrived := r.arrived + 1, total := if last then r.arrived + 1 else r.total }
def execFlitForward (port vc : Nat) (s : State) : Out := s.onChip (flitForward port vc)

end Sys2Proof.Machine
end

