-- ==== Sys2Proof/Machine/Staged.lean ====
section
/-! DEFINITION. The staged and the committed set of a block (R53 to R57, Table ADR-4), and the commits that the steward
makes of its own writes (R434, R450, R480). -/

namespace Sys2Proof.Machine

/-- The unit of a Table ADR-4 block: the addresses [lo, hi) that hold its staged fields. -/
def cfgRange : CfgBlock → Nat × Nat
  | .bank n => (0x5007000 + n * 0x40000, 0x5008000 + n * 0x40000)
  | .events => (0x4220000, 0x4240000)
  | .iris => (0x4260000, 0x4270000)
  | .power => (0x4270000, 0x4280000)
  | .link p => (0x4280000 + p * 0x10000, 0x4290000 + p * 0x10000)
  | .pod => (0x4300000, 0x4310000)
  | .host => (0x4310000, 0x4320000)
  | .queue q => (0x4000000 + q * 64, 0x4000040 + q * 64)

/-- CFG_STATE of a block (Table ADR-4); every CFG_STATE is laid out as Table ADR-6. -/
def cfgStateAddr : CfgBlock → Nat
  | .bank n => Addr.bgCfgState n
  | .events => Addr.evtCfgState
  | .iris => Addr.irisCfgState
  | .power => Addr.pwrCfgState
  | .link p => Addr.lnkCfgState p
  | .pod => Addr.podCfgState
  | .host => Addr.hostCfgState
  | .queue q => Addr.qCfgState q

/-- The part of a staged register that its block commits: its staged fields. -/
def stagedPart (a v : Nat) : Nat :=
  match catalogue.find? fun r => inFamily r.base r.dims a with
  | some r => ((r.fields.filter fun f => f.staged).map fun f => bits v f.pos.hi f.pos.lo * 2 ^ f.pos.lo).sum
  | none => 0

/-- The staged registers in [lo, hi) that differ from their reset value. -/
def stagedSet (t : Table (BitVec 64)) (lo hi : Nat) : Table (BitVec 64) :=
  (t.filter fun p => decide (lo ≤ p.1) && decide (p.1 < hi)).filterMap fun p =>
    let v := stagedPart p.1 (spGet resetWord t p.1).toNat
    if v = stagedPart p.1 (resetWord p.1).toNat then none else some (p.1, BitVec.ofNat 64 v)

/-- Replace the entries of [lo, hi) in a table by those of another. -/
def replaceRange (t : Table (BitVec 64)) (lo hi : Nat) (new : Table (BitVec 64)) : Table (BitVec 64) :=
  (new.filter fun p => decide (lo ≤ p.1) && decide (p.1 < hi)).foldl (fun r p => spInsert r p.1 p.2)
    (t.filter fun p => !(decide (lo ≤ p.1) && decide (p.1 < hi)))

/-- The block with staged fields that a register belongs to (Table ADR-4). -/
def blockOf (a : Nat) : CfgBlock :=
  if a < 0x4200000 then .queue (a % 0x100000 / 64)
  else if a < 0x4240000 then .events
  else if a < 0x4270000 then .iris
  else if a < 0x4280000 then .power
  else if a < 0x4300000 then .link ((a - 0x4280000) / 0x10000)
  else if a < 0x4310000 then .pod
  else if a < 0x5000000 then .host
  else .bank ((a - 0x5000000) / 0x40000)

/-- Whether the register at address `a` has a staged field. -/
def isStaged (a : Nat) : Bool :=
  match catalogue.find? fun r => inFamily r.base r.dims a with
  | some r => r.fields.any fun f => f.staged
  | none => false

namespace Chip

/-- The block exists and has power: what its registers need to be reached. -/
def blockUp (w : Chip) : CfgBlock → Bool
  | .bank n => decide (n < 64) && w.coreUp n
  | .link p => decide (p < 8) && w.switchedOn
  | .pod => w.switchedOn
  | .queue q => decide (q < 16384)
  | _ => true

/-- CFG_STATE.PENDING of a block. -/
def cfgPending (w : Chip) (blk : CfgBlock) : Bool := w.flag (cfgStateAddr blk) F.bgCfgState_PENDING

/-- A unit takes its part of the copied set as a whole (R55). -/
def takeCopied (w : Chip) (lo hi : Nat) : Chip := { w with committed := replaceRange w.committed lo hi w.copied }

/-- Every part has been applied: PENDING clears and GEN counts (R55). -/
def commitDone (w : Chip) (blk : CfgBlock) : Chip :=
  let st := cfgStateAddr blk
  (w.setFlag st F.bgCfgState_PENDING false).addWrap st F.bgCfgState_GEN 1

/-- The commit of the event controller (R352, R372): a routing slot that is enabled and names no target sets CFG_ERR. -/
def applyEvents (w : Chip) : Chip :=
  let (lo, hi) := cfgRange .events
  let bad := w.copied.any fun p => decide (0x4228000 ≤ p.1) && decide (p.1 < hi) && p.1 % 16 == 8 &&
    ([0, 1, 2, 3].any fun i => bit p.2.toNat (16 * i + 15) && decide (128 < bits p.2.toNat (16 * i + 7) (16 * i)))
  let w := w.takeCopied lo hi
  if bad then w.setFlag Addr.evtStatus F.evtStatus_CFG_ERR true else w

/-- The steward writes staged fields of a block by `write` and commits them (R54 to R56): it waits until no commit of the
block is pending, so that an older copied set is applied first; then the whole staged set is copied and applied, and GEN
counts this commit too. -/
def stewardCommit (w : Chip) (blk : CfgBlock) (write : Chip → Chip) : Chip :=
  let (lo, hi) := cfgRange blk
  let st := cfgStateAddr blk
  let apply (w : Chip) : Chip := (match blk with
    | .events => w.applyEvents
    | _ => w.takeCopied lo hi).commitDone blk
  let w := if w.cfgPending blk then apply w else w
  let w := write w
  apply ({ w with copied := replaceRange w.copied lo hi (stagedSet w.regs lo hi) }.setFlag st F.bgCfgState_DIRTY false)

end Chip

end Sys2Proof.Machine
end

