-- ==== Sys2Proof/Machine/PodForm.lean ====
section
/-! DEFINITION. Pod formation (15_link_transactions_and_pod.md, R431 to R442): candidates, reports, numbering and routes
of the root, the adoption of an epoch, joins and departures, and timebase synchronisation. -/

namespace Sys2Proof.Machine

/-- The chip's fused serial as a number. -/
def ownSerial : Nat := Config.chipSerial.toNat

/-! ## The root's view (R422, R433) -/

/-- Class of a port (R422). -/
def portCls (p : Nat) : Nat := if p ≤ 2 then 0 else if p ≤ 5 then 1 else 2

/-- Links in use of a chip in the topology `t`: ports in an UP state, lowest first. -/
def linksOf (t : List RepChip) (s : Nat) : List RepLink :=
  match t.find? fun c => c.serial == s with
  | some c => c.links.filter fun l => Chip.isUp l.state && t.any fun d => d.serial == l.partner
  | none => []

/-- Distances from `root` in link hops, in rounds: chips reached, nearest first. -/
def spread (t : List RepChip) : Nat → List (Nat × Nat) → List (Nat × Nat)
  | 0, seen => seen
  | n + 1, seen =>
    let new := (seen.flatMap fun x => (linksOf t x.1).map fun l => (l.partner, x.2 + 1)).foldl (fun acc y =>
      if (seen ++ acc).any (fun z => z.1 == y.1) then acc else acc ++ [y]) []
    if new.isEmpty then seen else spread t n (seen ++ new)

/-- Port of chip `s` towards its parent: the lowest towards a chip one hop nearer to the root (R431). -/
def parentOf (t : List RepChip) (dist : List (Nat × Nat)) (s : Nat) : Option RepLink :=
  match spFind? dist s with
  | none => none
  | some d => (linksOf t s).find? fun l => (spFind? dist l.partner).any fun e => e + 1 == d

/-- The (chip, class) pairs from which chip `d` can be reached in class order within `n` hops, per number of hops. -/
def classReach (t : List RepChip) (d : Nat) : Nat → List (List (Nat × Nat))
  | 0 => [[(d, 0), (d, 1), (d, 2)]]
  | n + 1 =>
    let prev := classReach t d n
    let last := prev.headD []
    (t.flatMap fun c => ([0, 1, 2].filter fun k => last.contains (c.serial, k) ||
      (linksOf t c.serial).any fun l => decide (k ≤ portCls l.port) && last.contains (l.partner, portCls l.port)).map fun k =>
        (c.serial, k)) :: prev

/-- The first port and the hops of the shortest class-ordered path from `s` to `d`, of at most 15 hops; of several, the
one whose ports are lowest hop by hop (R422). -/
def classRoute (t : List RepChip) (s d : Nat) : Option (Nat × Nat) :=
  let lv := (classReach t d 15).reverse
  ((List.range 16).find? fun k => (lv.getD k []).contains (s, 0)).bind fun k =>
    ((linksOf t s).find? fun l => (lv.getD (k - 1) []).contains (l.partner, portCls l.port)).map fun l => (l.port, k)

/-- The chips on the way from `s` to the root in the routing tree, `s` first. -/
def upPath (t : List RepChip) (dist : List (Nat × Nat)) : Nat → Nat → List Nat
  | 0, s => [s]
  | n + 1, s => match parentOf t dist s with
    | some l => s :: upPath t dist n l.partner
    | none => [s]

/-- The first port and the hops of the path from `s` to `d` on the routing tree (R422). -/
def treeRoute (t : List RepChip) (dist : List (Nat × Nat)) (s d : Nat) : Option (Nat × Nat) :=
  let n := t.length
  let us := upPath t dist n s
  let ud := upPath t dist n d
  match us.find? fun c => ud.contains c with
  | none => none
  | some top =>
    let hops := us.idxOf top + ud.idxOf top
    if top = s then
      let next := ud.getD (ud.idxOf top - 1) d
      ((linksOf t s).find? fun l => l.partner == next).map fun l => (l.port, hops)
    else (parentOf t dist s).map fun l => (l.port, hops)

/-- Insert a (serial, number) pair in ascending order of `key`. -/
def insertPair (key : Nat × Nat → Nat) (c : Nat × Nat) : List (Nat × Nat) → List (Nat × Nat)
  | [] => [c]
  | d :: r => if key c ≤ key d then c :: d :: r else d :: insertPair key c r

/-- The numbers of an epoch (R433, R440): members keep theirs, first those of the root's own pod (`own`), then those that
another pod's chips hold now (`chips` lists serials and numbers), where they are free. Then, in ascending serial order, each
other chip takes the number it last held (`last`), if that is free, or the lowest free one. At the first formation the root
takes 0. -/
def assignNumbers (own last : Table Nat) (chips : List (Nat × Nat)) (root : Nat) : List (Nat × Nat) :=
  let sorted := chips.foldr (insertPair fun c => c.1) []
  let first := sorted.all (fun c => c.2 == 0xFF) && own.isEmpty && last.isEmpty
  let keep := (sorted.filterMap fun c => (spFind? own c.1).map fun n => (c.1, n))
  let order := if first then (sorted.filter fun c => c.1 == root) ++ sorted.filter fun c => c.1 != root
    else sorted
  let used (got : List (Nat × Nat)) (n : Nat) : Bool := decide (255 ≤ n) || got.any fun g => g.2 == n
  let left (got : List (Nat × Nat)) : List (Nat × Nat) := order.filter fun c => !got.any fun k => k.1 == c.1
  let held := (left keep).foldl (fun got c => if used got c.2 then got else got ++ [(c.1, c.2)]) keep
  (left held).foldl (fun got c =>
    let old := (spFind? last c.1).getD 255
    if !used got old then got ++ [(c.1, old)]
    else match (List.range 255).find? fun n => !used got n with
      | some n => got ++ [(c.1, n)]
      | none => got) held

/-- A list of (serial, number) pairs as a table. -/
def numTable (l : List (Nat × Nat)) : Table Nat := l.foldl (fun t m => spInsert t m.1 m.2) []

namespace Chip

/-! ## Candidates (R431, R432) -/

/-- The chip's candidate; its own at first. -/
def candOf (w : Chip) : Cand := w.pod.cand.getD ⟨w.epoch, ownSerial, 0⟩

/-- Ports over which pod formation runs. -/
def upPorts (w : Chip) : List Nat := (List.range 8).filter fun p => isUp (w.lState p)

/-- The steward takes part in pod formation. -/
def mgmtOpen (w : Chip) : Bool := w.live && w.switchedOn && w.flag Addr.podCtrl F.podCtrl_MGMT_OPEN && !w.frozen

/-- Send the candidate to every neighbour. -/
def sendCand (w : Chip) : Chip :=
  let c := w.candOf
  let par := match w.pod.candPort with | some p => w.rd (Addr.partnerSerial p) | none => 0
  let w := { w with pod := { w.pod with lastCand := w.time } }
  w.upPorts.foldl (fun w p => w.sendLocal p .podMgmt 1 0 (.candidate c ownSerial par)) w

/-- A new candidate: its quiet period starts, and every neighbour hears of it. -/
def setCand (w : Chip) (c : Cand) (port : Option Nat) : Chip :=
  { w with pod := { w.pod with cand := some c, candPort := port, candSince := w.time, declared := false, reported := false } }.sendCand

/-- A field of POD_STATE, which the steward writes and commits. -/
def setPodField (w : Chip) (f : Fld) (v : Nat) : Chip := w.stewardCommit .pod fun w => w.setFld Addr.podState f v

/-- A chip that is alone starts an election. -/
def elect (w : Chip) : Chip := if w.cfg Addr.podState F.podState_STATE = 0 then w.setPodField F.podState_STATE 1 else w

/-- A candidate on port `p` is better than the chip's own (R431). -/
def better (w : Chip) (p : Nat) (c : Cand) : Bool :=
  let o := w.candOf
  newerEpoch c.round o.round || (c.round == o.round && (decide (c.serial < o.serial) || (c.serial == o.serial &&
    (decide (c.dist + 1 < o.dist) || (c.dist + 1 == o.dist && (match w.pod.candPort with | some q => decide (p < q) | none => false))))))

/-- Take the management message of `code` that port `p` holds: POD_MGMT with the code in byte 0, or, for code 0, a
TIME_SYNC with ARG `arg`. -/
def takeMgmt (w : Chip) (p code arg : Nat) (go : Chip → Chip) : Chip :=
  let is (q : Nat × Msg) : Bool := q.1 == p && (if code = 0 then q.2.op == Op.timeSync && q.2.arg == arg
    else q.2.op == Op.podMgmt && leNat (q.2.data.take 1) == code)
  match w.pod.mgmtIn.find? is with
  | none => w
  | some m => if w.live && w.switchedOn && !w.frozen then go { w with pod := { w.pod with mgmtIn := w.pod.mgmtIn.erase m } } else w

/-- Ports whose neighbour names this chip as its parent. -/
def childPorts (w : Chip) : List Nat := (w.pod.neigh.filter fun q => q.2.parent == ownSerial && isUp (w.lState q.1)).map fun q => q.1

/-- This chip and its links, as a REPORT tells it (Table POD-4). -/
def ownReport (w : Chip) : RepChip :=
  { serial := ownSerial, num := (w.chipNum?).getD 0xFF,
    links := w.upPorts.map fun p => ⟨p, w.lState p, w.rd (Addr.partnerSerial p), popCount 8 (w.rxMap p), w.lRate p⟩ }

/-- This chip and what its children have reported, each chip once. -/
def topology (w : Chip) : List RepChip :=
  ((w.pod.reports.filter fun r => isUp (w.lState r.1)).flatMap fun r => r.2).foldl (fun t c =>
    if t.any fun d => d.serial == c.serial then t else t ++ [c]) [w.ownReport]

/-! ## Adoption of an epoch (R434) -/

/-- Chip numbers whose holder is not the one it was (R427). -/
def changedNums (old new : List (Nat × Nat)) : List Nat :=
  let holder (l : List (Nat × Nat)) (n : Nat) : Option Nat := (l.find? fun x => x.2 == n).map fun x => x.1
  (List.range 255).filter fun n => holder old n != holder new n

/-- RLC lines homed on other chips are dropped (R133); a fill under way is not installed. -/
def dropForeign (w : Chip) : Chip :=
  { w with coh := w.coh.map fun c => (c.1, { c.2 with
      sets := (c.2.sets.map fun s => (s.1, s.2.filter fun l => l.line / 2 ^ 32 == 255)).filter fun s => !s.2.isEmpty
      fills := c.2.fills.map fun f => if f.line / 2 ^ 32 = 255 then f else { f with snooped := true } }) }

/-- Sharers on departed chips are removed from core `h`'s snoop filter, and their answers count as received (R134). -/
def dropSharers (w : Chip) (gone : List Nat) (h : Nat) : Chip :=
  let c := w.cohOf h
  let sf := (c.sf.map fun s => (s.1, (s.2.map fun e => { e with sharers := e.sharers.filter fun x => !gone.contains x.chip }).filter
    fun e => e.broad || e.inv || !e.sharers.isEmpty || c.recs.any fun r => r.line == e.line)).filter fun s => !s.2.isEmpty
  let recs := c.recs.map fun r => { r with left := r.left.filter fun x => !gone.contains x.1 }
  let w := w.setCoh h { c with sf := sf, recs := recs }
  (recs.filter fun r => r.left.isEmpty).foldl (fun w r => w.recordDone h r) w

/-- A context waits, in kind `k`, under a WAIT_ARG that satisfies `f`. -/
def waitsOn (w : Chip) (n c k : Nat) (f : Nat → Bool) : Bool :=
  w.slotState n c == slWaiting && w.waitKind n c == k && f (w.rd (Addr.ctxWaitArg n c))

/-- The fault of a context's wait (R271, R284). -/
def waitFault (w : Chip) (n c code detail : Nat) : Chip :=
  let s := w.slot n c
  w.postFault n c { code := code, unit := 4, detail := detail, srcCp := (w.cp n c + 2 ^ 20 - 8 * s.waitWords) % 2 ^ 20,
                    word0 := w.rd (Addr.ctxWaitArg n c), word1 := s.waitW1 }

/-- Every slot of every core. -/
def allSlots : List (Nat × Nat) := (List.range 64).flatMap fun n => (List.range 4).map fun c => (n, c)

/-- Registrations from and waits on departed chips end (R271). -/
def dropWaits (w : Chip) (gone : List Nat) : Chip :=
  let w := { w with sync := { w.sync with regsHeld := w.sync.regsHeld.filter fun r => !gone.contains r.2.msg.srcChip } }
  (allSlots.filter fun x => w.waitsOn x.1 x.2 1 fun a => bit a 39 && gone.contains (bits a 47 40)).foldl
    (fun w x => w.waitFault x.1 x.2 0x0B 0) w

/-- Aster barrier `b` aborts its generation in progress and takes GEN from the root (R284). A context that waits on the
generation in progress under the root's GEN faults; one whose generation the root had completed is satisfied, and one that
names a later generation waits on. ABORTED is set where the chip holds an arrival, a child's arrival or such a wait. A chip
that takes part and holds none cannot tell whether the generation had begun elsewhere: a free value; for one that takes no
part no generation is in progress (log entry 38). -/
def asterAbort (w : Chip) (b : Nat) (gen : Option Nat) : Chip :=
  let st := Addr.asterState b
  let here := w.rd (Addr.asterArrived b) != 0 || !(spGet (fun _ => []) w.sync.children b).isEmpty
  let part := w.rd (Addr.asterMask b) != 0 || !(spGet (fun _ => []) w.sync.partKids b).isEmpty
  let w := w.setReg (Addr.asterArrived b) 0
  let w := { w with sync := { w.sync with children := spErase w.sync.children b, arriveSent := spErase w.sync.arriveSent b
                                          partKids := spErase w.sync.partKids b } }
  let w := match gen with | some g => w.setFld st F.asterState_GEN g | none => w
  let waiting := allSlots.filter fun x => w.waitsOn x.1 x.2 2 (fun a => bit a 8 && bits a 5 0 == b) &&
    w.rd (Addr.ctxWaitTarget x.1 x.2) % 2 ^ 16 == w.fld st F.asterState_GEN
  let progress := here || !waiting.isEmpty
  let w := if progress then w.setFlag st F.asterState_ABORTED true
    else if part then (if w.freeNat 1 = 1 then w.setFlag st F.asterState_ABORTED true else w).drew
    else w
  waiting.foldl (fun w x => w.waitFault x.1 x.2 9 0x204) w

/-- A request to a departed chip completes REMOTE_UNREACHABLE (R113, R305, R340); an effect that may have taken place
there makes the outcome indeterminate. -/
def failReq (w : Chip) (k : Nat) (o : OutReq) : Chip :=
  let w := w.dropReq k
  let m := o.msg
  match m.op with
  | .snoopInv | .waitNotify | .barrierArrive | .barrierRelease | .podMgmt | .timeSync => w
  | _ =>
    match spFind? w.accs m.acc with
    | none => w
    | some a =>
      let ind := m.op == Op.atomicAdd || m.op == Op.queuePush || m.op == Op.eventMsg
      (w.setAcc m.acc { a with indet := a.indet || ind }).takeAnswer m.srcCore
        { m with status := 0x0B, addr := 0, data := [] } (m.op == Op.read)

/-- Copies of this chip's requests that have not begun to cross a link are dropped: they are sent again. -/
def dropUnsent (w : Chip) : Chip :=
  let old (r : MsgRec) : Bool := (match r.dst with | .port _ => true | _ => false) &&
    (match r.src with | .port _ => false | _ => true) && !r.msg.loc && !epochFree r.msg && r.msg.dstChip != 255 &&
    (r.stage == .entry || r.stage == .mesh || (r.stage == .linkQ && r.sent == 0))
  let ids := (w.net.msgs.filter fun p => old p.2).map fun p => p.1
  { w with net := { w.net with msgs := w.net.msgs.filter fun p => !ids.contains p.1,
                               flits := w.net.flits.filter fun f => !ids.contains f.msg } }.restCores.restLinks

/-- Every request held whose destination is a member goes again under the new epoch, in issue order (R437, R438). A
BARRIER_ARRIVE belongs to an aborted generation and does not. -/
def resendAll (w : Chip) : Chip :=
  let w := w.dropUnsent
  let w := { w with pod := { w.pod with outReqs := w.pod.outReqs.filter fun q => q.2.msg.op != Op.barrierArrive } }
  (w.pod.outReqs.filter fun q => !q.2.msg.loc).foldl (fun w q =>
    if q.2.sent = 0 then w.setReq q.1 { q.2 with epoch := w.epoch } else (w.bump Addr.podResent).sendAgain q.1 q.2) w

/-- The registers of an epoch (Table POD-8), written and committed together. An epoch without members leaves the chip
alone. -/
def writeEpoch (w : Chip) (e : NewEp) : Chip :=
  let me := spFind? e.members ownSerial
  let alone := e.members.isEmpty
  let st := bits (w.rd Addr.podState) 28 28 * 2 ^ 28 + (if alone then 0 else if me.isSome then 2 else 3) + b2n me.isSome * 2 ^ 2 +
    b2n (!alone && e.rootSerial == ownSerial) * 2 ^ 3 + (me.getD 0xFF) * 2 ^ 8 + e.epoch % 256 * 2 ^ 16 +
    (e.parent.getD 0) % 8 * 2 ^ 24 + b2n e.parent.isSome * 2 ^ 27
  w.stewardCommit .pod fun w =>
    let w := (w.setReg Addr.podState st).setReg Addr.rootSerial e.rootSerial
    let w := [0, 1, 2, 3].foldl (fun w i =>
      w.setReg (Addr.member i) ((e.members.filter fun m => m.2 / 64 == i).foldl (fun v m => putBit v (m.2 % 64) true) 0)) w
    (List.range 255).foldl (fun w d => w.setReg (Addr.route d) (match e.routes.find? fun r => r.1 == d with
      | some r => r.2.1 + 2 ^ 7 + r.2.2 * 2 ^ 8
      | none => 0)) w

/-- Ports towards members carry all virtual channels, ports towards others only VC3 (Table LNK-9). -/
def podPorts (w : Chip) (e : NewEp) : Chip :=
  (List.range 8).foldl (fun w p =>
    let mem := e.members.any fun m => m.1 == w.rd (Addr.partnerSerial p)
    let st := w.lState p
    if mem && st == 2 && e.members.any (fun m => m.1 == ownSerial) then w.setLState p (if w.fullWidth p then 3 else 4) else w) w

/-- A chip that joins steps its timebase to pod time (R442). -/
def joinTime (w : Chip) (e : NewEp) : Chip :=
  if w.pod.joined || e.rootSerial == ownSerial then w
  else { w.setReg Addr.tbStep (wrapInt 64 ((e.podTime : Int) - w.time)) with time := e.podTime }

/-- Whether a child port has to acknowledge the epoch, and EPOCH_ACK to the parent once all have (R434). -/
def tryAck (w : Chip) : Chip :=
  if w.pod.ackSent || !w.childPorts.all (fun p => w.pod.acks.contains p) then w
  else match w.parentPort? with
    | some p => { w with pod := { w.pod with ackSent := true } }.sendLocal p .podMgmt 4 0 (.epochAck w.epoch)
    | none => { w with pod := { w.pod with ackSent := true } }

/-- The combining tree of an epoch (R279, R284): the numbers of the parent and of the neighbours that name this chip as
theirs. -/
def takeTree (w : Chip) (e : NewEp) : Chip :=
  { w with pod := { w.pod with
      treeParent := e.parent.bind fun p => spFind? (numTable e.members) (w.rd (Addr.partnerSerial p))
      treeKids := w.childPorts.filterMap fun p => (spFind? w.pod.neigh p).bind fun g => spFind? (numTable e.members) g.serial } }

/-- The entry of a push to a chip that has departed is read in vain (R305): the push ends REMOTE_UNREACHABLE. -/
def dropPushReads (w : Chip) (gone : List Nat) : Chip :=
  { w with accs := w.accs.map fun (p : Nat × Acc) =>
      match p.2.owner with
      | .pushRead n c =>
        if (w.slot n c).outs.any fun o => o.id == p.1 && gone.contains o.chip then
          (p.1, { p.2 with fault := if p.2.fault = 0 then 0x0B else p.2.fault })
        else p
      | _ => p }

/-- Adopt an epoch (R434): the commit, and every effect tied to an epoch change. A request to a number whose holder has
left, be it held by another chip now, ends REMOTE_UNREACHABLE (R271, R305, R440). -/
def adopt (w : Chip) (e : NewEp) : Chip :=
  let oldNum := w.chipNum?
  let old := w.pod.members.filter fun m => m.1 != ownSerial
  let new := e.members.filter fun m => m.1 != ownSerial
  let ch := changedNums old new
  let gone := ch.filter fun n => old.any fun m => m.2 == n
  let w := (w.joinTime e).writeEpoch e
  let fresh := !w.pod.joined || oldNum != w.chipNum?
  let w := { w with pod := { w.pod with
      members := numTable e.members
      lastNums := e.members.foldl (fun (t : Table Nat) (m : Nat × Nat) => spInsert t m.1 m.2) w.pod.lastNums
      filter := if fresh then [] else w.pod.filter.filter fun f => !ch.contains f.1
      txTid := if fresh then [] else w.pod.txTid.filter fun f => !ch.contains f.1
      performing := w.pod.performing.filter fun f => !gone.contains f.1
      joined := (w.chipNum?).isSome, acks := [], ackSent := false } }
  let w := w.dropForeign
  let w := (List.range 64).foldl (fun w h => w.dropSharers gone h) w
  let w := w.dropWaits gone
  let w := w.takeTree e
  let w := if w.switchedOn then
      ((List.range 64).foldl (fun w b => w.asterAbort b (spFind? e.asterGen b)) w).retestAll else w
  let w := w.dropPushReads gone
  let w := (w.pod.outReqs.filter fun q => !q.2.msg.loc && (gone.contains q.2.msg.dstChip || !w.isMember q.2.msg.dstChip)).foldl
    (fun w q => w.failReq q.1 q.2) w
  let w := (w.podPorts e).resendAll
  let w := if e.rootSerial == ownSerial && !e.members.isEmpty then w.setFlag Addr.podState F.podState_TB_LOCKED true else w
  w.tryAck

/-- The chip is alone: no number, no members, no routes. The change of membership increments the epoch (R23, R434). -/
def becomeAlone (w : Chip) : Chip :=
  let w := w.adopt { dest := ownSerial, epoch := (w.epoch + 1) % 256, round := w.epoch, members := [], routes := [], parent := none,
                     podTime := w.time, asterGen := [], rootSerial := 0 }
  let w := w.setFlag Addr.podState F.podState_TB_LOCKED false
  { w with pod := { w.pod with joined := false } }

/-! ## The root (R432 to R434, R438, R439) -/

/-- The NEW_EPOCH message of chip `s` (Table POD-4). -/
def newEpochFor (w : Chip) (t : List RepChip) (dist nums : List (Nat × Nat)) (byClass : Bool) (ep s : Nat) : NewEp :=
  { dest := s, epoch := ep, round := w.candOf.round, members := nums
    routes := nums.filterMap fun m =>
      if m.1 = s then none
      else (if byClass then classRoute t s m.1 else treeRoute t dist s m.1).map fun r => (m.2, r.1, r.2)
    parent := (parentOf t dist s).map fun l => l.port
    podTime := w.time
    asterGen := (List.range 64).map fun b => (b, w.fld (Addr.asterState b) F.asterState_GEN)
    rootSerial := ownSerial }

/-- The child port through which chip `s` is reached: the one whose REPORT lists it. -/
def downPort? (w : Chip) (s : Nat) : Option Nat :=
  (w.pod.reports.find? fun r => isUp (w.lState r.1) && r.2.any fun c => c.serial == s).map fun r => r.1

/-- The root starts a new epoch (R433, R434): numbers, routes, NEW_EPOCH down the tree, nearest chips first, and its own
adoption. A root that reaches no other chip is alone. A root whose own epoch is older than that of the chips it takes over
counts on from the round of the election, so that the new epoch is newer than all (log entry 38). -/
def startEpoch (w : Chip) : Chip :=
  let all := w.topology
  let dist := spread all all.length [(ownSerial, 0)]
  let t := all.filter fun c => dist.any fun d => d.1 == c.serial
  if t.length ≤ 1 then (if w.chipNum?.isSome then w.becomeAlone else w.setPodField F.podState_STATE 0)
  else
    let nums := assignNumbers (w.pod.members.filter fun m => t.any fun c => c.serial == m.1) w.pod.lastNums
      (t.map fun c => (c.serial, c.num)) ownSerial
    let mem := t.filter fun c => nums.any fun n => n.1 == c.serial
    let byClass := mem.all fun a => mem.all fun b => a.serial == b.serial || (classRoute t a.serial b.serial).isSome
    let ep := if newerEpoch w.candOf.round (w.epoch + 1) then (w.candOf.round + 1) % 256 else (w.epoch + 1) % 256
    let send (w : Chip) (d : Nat × Nat) : Chip :=
      match w.downPort? d.1 with
      | some p => w.sendLocal p .podMgmt 3 0 (.newEpoch (w.newEpochFor t dist nums byClass ep d.1))
      | none => w
    let own := w.newEpochFor t dist nums byClass ep ownSerial
    ((dist.filter fun d => d.1 != ownSerial).foldl send w).adopt own

/-- A declared root whose children have all reported starts an epoch. -/
def rootReady (w : Chip) : Chip :=
  if w.pod.declared && w.childPorts.all (fun p => w.pod.reports.any fun r => r.1 == p) then w.startEpoch else w

/-- What the steward finds gone: ports out of the UP states lose their neighbour and report, and a lost parent port
starts a round with the chip's own candidate (R439). -/
def dropLost (w : Chip) : Chip :=
  let w := { w with pod := { w.pod with neigh := w.pod.neigh.filter fun q => isUp (w.lState q.1)
                                        reports := w.pod.reports.filter fun q => isUp (w.lState q.1) } }
  match w.pod.candPort with
  | some p => if isUp (w.lState p) then w else w.setCand ⟨(w.epoch + 1) % 256, ownSerial, 0⟩ none
  | none => w

end Chip

open Chip

/-- CANDIDATE (R431): a neighbour's candidate, serial and parent. A chip of a lower serial than the candidate of a newer
round proposes itself in that round, so that the root is the present chip with the lowest serial (R432, R439, R440). -/
def candidate (p : Nat) (c : Cand) (serial parent : Nat) (w : Chip) : Chip :=
  w.takeMgmt p 1 0 fun w =>
    let new : Neigh := ⟨c, serial, parent⟩
    let same := spFind? w.pod.neigh p == some new
    let w := ({ w with pod := { w.pod with neigh := spInsert w.pod.neigh p new
                                           reported := w.pod.reported && same } }).elect
    if !w.better p c then w
    else if ownSerial < c.serial then w.setCand ⟨c.round, ownSerial, 0⟩ none
    else w.setCand ⟨c.round, c.serial, c.dist + 1⟩ (some p)
def execCandidate (port : Nat) (cand : Cand) (serial parent : Nat) (s : State) : Out := s.onChip (candidate port cand serial parent)

/-- CANDIDATE_PERIODIC_SEND (Table POD-4, R431): every 1 ms, and at first when pod formation opens. -/
def candidatePeriodicSend (w : Chip) : Chip :=
  if !w.mgmtOpen || !(w.pod.cand.isNone || decide (w.pod.lastCand + 1000000 ≤ w.time)) then w
  else
    let w := w.dropLost
    if w.pod.cand.isNone then w.setCand w.candOf none else w.sendCand
def execCandidatePeriodicSend (s : State) : Out := s.onChip candidatePeriodicSend

/-- ROOT_DECLARE (R432): a chip whose candidate names its own serial and has not changed for 20 ms is the root. -/
def rootDeclare (w : Chip) : Chip :=
  if w.mgmtOpen && w.pod.cand.isSome && w.candOf.serial == ownSerial && !w.pod.declared &&
      decide (w.pod.candSince + 20000000 ≤ w.time) then
    { w with pod := { w.pod with declared := true } }.rootReady
  else w
def execRootDeclare (s : State) : Out := s.onChip rootDeclare

/-- REPORT_SEND (R432): 10 ms after the last change of the candidate, once every child has reported. -/
def reportSend (w : Chip) : Chip :=
  match w.pod.candPort with
  | some p =>
    if w.mgmtOpen && !w.pod.reported && decide (w.pod.candSince + 10000000 ≤ w.time) && isUp (w.lState p) &&
        w.childPorts.all (fun q => w.pod.reports.any fun r => r.1 == q) then
      { w with pod := { w.pod with reported := true } }.sendLocal p .podMgmt 2 0 (.report w.topology)
    else w
  | none => w
def execReportSend (s : State) : Out := s.onChip reportSend

/-- REPORT (R432): a child's subtree. One that changes what the chip knows goes on upwards, or makes a root start an
epoch. -/
def report (p : Nat) (chips : List RepChip) (w : Chip) : Chip :=
  w.takeMgmt p 2 0 fun w =>
    if spFind? w.pod.reports p == some chips then w
    else { w with pod := { w.pod with reports := spInsert w.pod.reports p chips, reported := false } }.rootReady
def execReport (port : Nat) (chips : List RepChip) (s : State) : Out := s.onChip (report port chips)

/-- NEW_EPOCH (R434): adopted by the chip it addresses, relayed towards any other. The same message twice changes
nothing. -/
def newEpoch (p : Nat) (e : NewEp) (w : Chip) : Chip :=
  w.takeMgmt p 3 0 fun w =>
    if e.dest != ownSerial then
      match w.downPort? e.dest with
      | some q => w.sendLocal q .podMgmt 3 0 (.newEpoch e)
      | none => w
    else if w.epoch == e.epoch % 256 && w.rd Addr.rootSerial == e.rootSerial &&
        w.pod.members == numTable e.members then w
    else w.adopt e
def execNewEpoch (port : Nat) (e : NewEp) (s : State) : Out := s.onChip (newEpoch port e)

/-- EPOCH_ACK (R434): a child's whole subtree has adopted the epoch. -/
def epochAck (p ep : Nat) (w : Chip) : Chip :=
  w.takeMgmt p 4 0 fun w =>
    if ep = w.epoch && !w.pod.acks.contains p then { w with pod := { w.pod with acks := p :: w.pod.acks } }.tryAck else w
def execEpochAck (port epoch : Nat) (s : State) : Out := s.onChip (epochAck port epoch)

namespace Chip

/-- The root hears of port `evPort` of a chip of the subtree at `p`, now in state `st` towards `partner` (R438, R439): a
link gone is removed from its view. A link that comes up towards a chip that is no member waits for the REPORT that
makes that chip known. -/
def rootEvent (w : Chip) (p evPort st partner : Nat) : Chip :=
  let w := if isUp st then w else { w with pod := { w.pod with reports := w.pod.reports.map fun (r : Nat × List RepChip) =>
    if r.1 = p then (r.1, r.2.map fun (c : RepChip) => { c with links := c.links.filter fun l => !(l.port == evPort && l.partner == partner) })
    else r } }
  if isUp st && !(w.pod.members.any fun m => m.1 == partner) then w else w.dropLost.startEpoch

end Chip

/-- LINK_EVENT (R438, R439): relayed to the parent, or, at the root, the start of a new epoch. Port 8 names the root's own
oldest event. -/
def linkEventMsg (p evPort st partner : Nat) (w : Chip) : Chip :=
  if p = 8 then
    match w.pod.linkEvs with
    | [] => w
    | (q, st, partner) :: rest =>
      if w.mgmtOpen then { w with pod := { w.pod with linkEvs := rest } }.rootEvent 8 q st partner else w
  else
    w.takeMgmt p 5 0 fun w =>
      if w.cfg Addr.podState F.podState_ROOT = 1 then w.rootEvent p evPort st partner
      else match w.parentPort? with
        | some q => w.sendLocal q .podMgmt 5 0 (.linkEvent evPort st partner)
        | none => w
def execLinkEvent (port evPort st partner : Nat) (s : State) : Out := s.onChip (linkEventMsg port evPort st partner)

/-- LEAVE (R439): relayed to the parent; the root starts an epoch without the chip. -/
def leave (p serial : Nat) (w : Chip) : Chip :=
  w.takeMgmt p 6 0 fun w =>
    if w.cfg Addr.podState F.podState_ROOT = 1 then
      { w with pod := { w.pod with
          reports := w.pod.reports.map fun (r : Nat × List RepChip) => (r.1, (r.2.filter fun (c : RepChip) => c.serial != serial).map fun (c : RepChip) =>
            { c with links := c.links.filter fun l => l.partner != serial }) } }.startEpoch
    else match w.parentPort? with
      | some q => w.sendLocal q .podMgmt 6 0 (.leave serial)
      | none => w
def execLeave (port serial : Nat) (s : State) : Out := s.onChip (leave port serial)

/-! ## Timebase synchronisation (R441) -/

/-- TIME_SYNC_TIMER: every 1 ms a non-root member sends a REQUEST to its parent. -/
def timeSyncTimer (w : Chip) : Chip :=
  match w.parentPort? with
  | some p =>
    if w.live && w.switchedOn && !w.frozen && w.cfg Addr.podState F.podState_STATE == 2 &&
        decide (w.pod.syncAt + 1000000 ≤ w.time) then
      { w with pod := { w.pod with syncAt := w.time } }.sendLocal p .timeSync 0 0 (.timeRequest w.time)
    else w
  | none => w
def execTimeSyncTimer (s : State) : Out := s.onChip timeSyncTimer

/-- TIME_SYNC_REQUEST: the parent answers with the time of arrival and the time of its answer. -/
def timeSyncRequest (p t1 : Nat) (w : Chip) : Chip :=
  w.takeMgmt p 0 0 fun w => w.sendLocal p .timeSync 0 1 (.timeReply t1 w.time w.time)
def execTimeSyncRequest (port t1 : Nat) (s : State) : Out := s.onChip (timeSyncRequest port t1)

/-- Codeword time of a lane map at a rate, in tenths of a nanosecond (Table LNK-1, Table LNK-10). -/
def codewordTenths (map rate : Nat) : Nat := 32 * 2 ^ rate * (8 / max 1 (popCount 8 map))

/-- TIME_SYNC_REPLY (R441): the offset to the parent, each timestamp corrected by its direction's link traversal time; the
flight time and the rest of R413 cancel out. Within ±4 ns the timebase is locked. -/
def timeSyncReply (p t1 t2 t3 : Nat) (w : Chip) : Chip :=
  w.takeMgmt p 0 1 fun w =>
    let w := { w.backoffEnd (256 + p) with pod := { (w.backoffEnd (256 + p)).pod with outReqs := w.pod.outReqs.filter fun q =>
      !(q.2.msg.op == Op.timeSync && q.2.msg.arg == 0 && q.2.msg.dstChip == 256 + p) } }
    let r := w.lRate p
    let fwd : Int := codewordTenths (w.txMap p) r
    let back : Int := codewordTenths (w.rxMap p) r
    let off : Int := (10 * (((t2 : Int) - t1) - ((w.time : Int) - t3)) - 2 * (fwd - back)) / 20
    let w := w.setFld Addr.tbOffset F.tbOffset_NS (wrapInt 32 off)
    w.setFlag Addr.podState F.podState_TB_LOCKED (decide (-4 ≤ off) && decide (off ≤ 4))
def execTimeSyncReply (port t1 t2 t3 : Nat) (s : State) : Out := s.onChip (timeSyncReply port t1 t2 t3)

end Sys2Proof.Machine
end

