-- ==== Sys2Proof/Machine/Audio.lean ====
section
/-! DEFINITION. The audio ports (18_host_and_audio_ports.md R524 to R535): frames, the lines written into core 0's LM, block
ends, and the PDM decimator. -/

namespace Sys2Proof.Machine

/-- One PDM bit through four integrators (R534). -/
def cicIn (s : List Int) (bit1 : Bool) : List Int :=
  let x : Int := if bit1 then 1 else -1
  let a := s.getD 0 0 + x
  let b := s.getD 1 0 + a
  let c := s.getD 2 0 + b
  [a, b, c, s.getD 3 0 + c]

/-- One decimated value through four combs: the combs after it, and the output (R534). -/
def cicOut (s : List Int) (v : Int) : List Int × Int :=
  let a := v - s.getD 0 0
  let b := a - s.getD 1 0
  let c := b - s.getD 2 0
  ([v, a, b, c], c - s.getD 3 0)

namespace Chip

def aud (w : Chip) (p : Nat) : AudPort := spGet (fun _ => {}) w.io.aud p
def setAud (w : Chip) (p : Nat) (x : AudPort) : Chip := { w with io := { w.io with aud := spPut (fun _ => {}) w.io.aud p x } }

/-- A committed field of a port's AUD_CFG0. -/
def aud0 (w : Chip) (p : Nat) (f : Fld) : Nat := w.cfg (Addr.audCfg0 p) f
/-- The port runs. -/
def audRuns (w : Chip) (p : Nat) : Bool := w.live && decide (p ≤ 2) && w.flag (Addr.audStatus p) F.audStatus_RUNNING

/-- Bytes per sample: 2 or 4. -/
def audSize (w : Chip) (p : Nat) : Nat :=
  if (if p = 2 then w.cfg Addr.audCfg1Pdm F.audCfg1Pdm_SIZE32 else w.cfg (Addr.audCfg1Tdm p) F.audCfg1Tdm_SIZE32) = 1 then 4 else 2

/-- Slots of a TDM port. -/
def audSlots (w : Chip) (p : Nat) : Nat := w.cfg (Addr.audCfg1Tdm p) F.audCfg1Tdm_SLOTS_M1 + 1
/-- Bits of a slot. -/
def audSlotBits (w : Chip) (p : Nat) : Nat := 16 + 8 * min 2 (w.cfg (Addr.audCfg1Tdm p) F.audCfg1Tdm_SLOT_BITS)

/-- The enabled channels of a port, in ascending order. -/
def audChans (w : Chip) (p : Nat) : List Nat :=
  (List.range 16).filter fun c =>
    if p = 2 then bit (w.cfg Addr.audCfg1Pdm F.audCfg1Pdm_CH_EN) c
    else decide (c < w.audSlots p) && bit (w.cfg (Addr.audCfg1Tdm p) F.audCfg1Tdm_RX_SLOTS) c

/-- The transmit slots of a TDM port. -/
def audTx (w : Chip) (p : Nat) : List Nat :=
  (List.range (w.audSlots p)).filter fun c => bit (w.cfg (Addr.audCfg1Tdm p) F.audCfg1Tdm_TX_SLOTS) c

/-- The frames that a buffer holds: BF × BB (R525). -/
def audFrames (w : Chip) (p : Nat) : Nat :=
  max 1 (w.aud0 p F.audCfg0_BLOCK_FRAMES * w.aud0 p F.audCfg0_BUF_BLOCKS)

/-- The next line that waits is written (R524): one at a time, as REQ_LOCAL of core 0's remote port. -/
def audPump (w : Chip) (p : Nat) : Chip :=
  let x := w.aud p
  match x.acc, x.lines with
  | none, (off, d) :: _ =>
    let id := w.nextId
    (w.setAud p { x with acc := some id }).hubAccess (.audio p) 13 0 255 (lmAddr 0 off) .wr 64 d
  | _, _ => w

/-- Bytes at LM offset `at_` of the buffer: whole lines wait to be written. A line that does not begin where the bytes before
it ended holds values the spec leaves open where no frame filled it. -/
def audPut (w : Chip) (p at_ : Nat) (d : List Byte) : Chip :=
  let x := w.aud p
  let w :=
    if x.line.isEmpty || x.lineAt + x.line.length == at_ then w
    else
      let pad := 64 - x.line.length
      { w.setAud p { x with line := [], lines := x.lines ++ [(x.lineAt, x.line ++ w.freeBytes pad 0)] } with freeCtr := w.freeCtr + pad }
  let x := w.aud p
  let w := if x.line.isEmpty then
      let k := at_ % 64
      { w.setAud p { x with line := w.freeBytes k 0, lineAt := at_ - k } with freeCtr := w.freeCtr + k }
    else w
  let x := w.aud p
  let all := x.line ++ d
  let n := all.length / 64
  w.setAud p { x with
    line := all.drop (64 * n)
    lineAt := x.lineAt + 64 * n
    lines := x.lines ++ (List.range n).map fun i => (x.lineAt + 64 * i, slice all (64 * i) 64) }

/-- A block has been written (R526): BLOCK_TIME, BLOCKS, the signal, the level of its source. -/
def audBlockEnd (w : Chip) (p t : Nat) : Chip :=
  let w := (w.setReg (Addr.audBlockTime p) t).addWrap (Addr.audBlocks p) F.audBlocks_COUNT 1
  let w := if w.aud0 p F.audCfg0_SIG_EN = 1 then (w.ccAdd (w.aud0 p F.audCfg0_SIG_CTR) 1).1 else w
  { w with audLevel := spPut (fun _ => false) w.audLevel p (!(spGet (fun _ => false) w.audLevel p)) }

/-- Where the transmit samples of the present frame lie, and how many bytes they take (R525, R532). -/
def audTxAt (w : Chip) (p : Nat) : Nat × Nat :=
  let n := (w.audTx p).length * w.audSize p
  (w.cfg (Addr.audCfg2Tdm p) F.audCfg2Tdm_TX_BASE + (w.aud p).frame % w.audFrames p * n, n)

/-- A TDM port with transmit slots reads the present frame of its transmit buffer (R532), as REQ_LOCAL transactions of core
0's remote port (R524): one for each line that the frame touches. -/
def audFetch (w : Chip) (p : Nat) : Chip :=
  if p = 2 || (w.audTx p).isEmpty then w
  else
    let (at_, n) := w.audTxAt p
    let k := min n (64 - at_ % 64)
    let id := w.nextId
    let w := w.hubAccess (.audio p) 13 0 255 (lmAddr 0 at_) .rd k []
    if n = k then w.setAud p { w.aud p with txAccs := [id] }
    else
      let id2 := w.nextId
      let w := w.hubAccess (.audio p) 13 0 255 (lmAddr 0 (at_ + k)) .rd (n - k) []
      w.setAud p { w.aud p with txAccs := [id, id2] }

/-- The port's reads of its transmit buffer are given up. -/
def audDropFetch (w : Chip) (p : Nat) : Chip :=
  let ids := (w.aud p).txAccs
  (ids.foldl (fun (w : Chip) id => w.dropAcc id) w).setAud p { w.aud p with txAccs := [] }

/-- The frame boundary at which a commit takes effect (R528): an enable starts frame 0, a disable stops the port and writes a
partly filled line with its remaining bytes zero; the partial block sends no signal. -/
def audBoundary (w : Chip) (p : Nat) : Chip :=
  let on : Bool := w.cfg (Addr.audCtrl p) F.audCtrl_ENABLE == 1
  let w := w.audDropFetch p
  let st := Addr.audStatus p
  let x := w.aud p
  if on && !w.flag st F.audStatus_RUNNING then
    (((w.setFlag st F.audStatus_RUNNING true).setReg (Addr.audBlocks p) 0).setAud p
      { lines := x.lines, acc := x.acc, ends := x.ends }).audFetch p
  else if !on && w.flag st F.audStatus_RUNNING then
    let ls := if x.line.isEmpty then [] else [(x.lineAt, (x.line ++ List.replicate 64 0).take 64)]
    ((w.setFlag st F.audStatus_RUNNING false).setAud p { x with line := [], lines := x.lines ++ ls }).audPump p
  else if on then w.audFetch p
  else w

/-- A received TDM sample of a slot in its 2- or 4-byte place: most significant bits first, low bits zero (R530). -/
def audPlace (w : Chip) (p v : Nat) : List Byte :=
  let sb := w.audSlotBits p
  let n := 8 * w.audSize p
  let v := v % 2 ^ sb
  toLE (n / 8) (if sb ≤ n then v * 2 ^ (n - sb) else v / 2 ^ (sb - n))

/-- The samples of a PDM frame (R534): each enabled channel's bits in time order, bit 0 first. A channel whose clock line is
held low (R533) brings no bits, and the spec does not say what its place in the frame then holds. -/
def pdmFrame (w : Chip) (samples : List Nat) : Chip × List Byte :=
  let r := w.cfg Addr.audCfg1Pdm F.audCfg1Pdm_DEC_R
  let sh := w.cfg Addr.audCfg1Pdm F.audCfg1Pdm_SHIFT
  let n := 8 * w.audSize 2
  (w.audChans 2).foldl (fun (acc : Chip × List Byte) c =>
    let (w, out) := acc
    if !bit (w.cfg Addr.audCfg1Pdm F.audCfg1Pdm_CLK_EN) (c / 4) then
      ({ w with freeCtr := w.freeCtr + n / 8 }, out ++ w.freeBytes (n / 8) 0)
    else
    let x := w.aud 2
    let i := (List.range r).foldl (fun s t => cicIn s (bit (samples.getD c 0) t)) (spGet (fun _ => [0, 0, 0, 0]) x.integ c)
    let (k, y) := cicOut (spGet (fun _ => [0, 0, 0, 0]) x.comb c) (i.getD 3 0)
    let (v, sat) := saturate true n (roundShift y sh)
    let w := w.setAud 2 { x with integ := spPut (fun _ => [0, 0, 0, 0]) x.integ c i, comb := spPut (fun _ => [0, 0, 0, 0]) x.comb c k }
    (if sat then w.bump (Addr.audSatCount 2) else w, out ++ toLE (n / 8) v)) (w, [])

/-- Receive data not yet written (R527). -/
def audUnwritten (w : Chip) (p : Nat) : Nat := (w.aud p).line.length + 64 * (w.aud p).lines.length

/-- What a TDM port sends in a frame (R532): the samples of its transmit slots from the transmit buffer, or zero and OVERRUN
when the read is late or brought no data (log entry 52). -/
def audSend (w : Chip) (p : Nat) (late : Bool) : Chip :=
  let tx := w.audTx p
  if p = 2 || tx.isEmpty then w
  else
    let sz := w.audSize p
    let ids := (w.aud p).txAccs
    let ok := !late && !ids.isEmpty && ids.all fun id => (w.acc id).done && (w.acc id).fault == 0
    let d := ids.flatMap fun id => (w.acc id).data
    let vs := (List.range tx.length).map fun i => if ok then leNat (slice d (i * sz) sz) else 0
    let w := (w.audDropFetch p).setAud p { w.aud p with tx := vs, txAccs := [] }
    if ok then w else w.setFlag (Addr.audStatus p) F.audStatus_OVERRUN true

/-- The bytes `d` of a frame enter the buffer, or zeros where receive data waits too long (R525, R527); a block whose last line
is written already ends at once (R526). Then the transmit samples of the next frame are read. -/
def audReceive (w : Chip) (p : Nat) (d : List Byte) : Chip :=
  let full : Bool := decide (512 ≤ w.audUnwritten p)
  let w := if full then (w.bump (Addr.audDropped p)).setFlag (Addr.audStatus p) F.audStatus_OVERRUN true else w
  let f := (w.aud p).frame
  let at_ := w.aud0 p F.audCfg0_BUF_BASE + f % w.audFrames p * d.length
  let w := w.audPut p at_ (if full then List.replicate d.length 0 else d)
  let w := w.setAud p { w.aud p with frame := f + 1 }
  let bf := w.aud0 p F.audCfg0_BLOCK_FRAMES
  let w := if bf != 0 && (f + 1) % bf == 0 then
      if (w.aud p).lines.isEmpty then w.audBlockEnd p w.time
      else w.setAud p { w.aud p with ends := (w.aud p).ends ++ [((w.aud p).lines.length, w.time)] }
    else w
  (w.audPump p).audFetch p

end Chip

open Chip

/-- AUDIO_FRAME (R525, R527, R530 to R532, R534): a frame of the port completes, with the BCLK periods it held, its samples
per slot or PDM channel, and whether the transmit read was late. -/
def audioFrame (p periods : Nat) (samples : List Nat) (late : Bool) (w : Chip) : Chip :=
  if !w.audRuns p then w
  else if p != 2 && w.cfg (Addr.audCfg1Tdm p) F.audCfg1Tdm_CONTROLLER == 0 && periods != w.audSlots p * w.audSlotBits p then
    w.setFlag (Addr.audStatus p) F.audStatus_FRAMING true
  else
    let w := w.audSend p late
    let (w, d) := if p = 2 then w.pdmFrame samples
      else (w, (w.audChans p).flatMap fun c => w.audPlace p (samples.getD c 0))
    w.audReceive p d
def execAudioFrame (port periods : Nat) (samples : List Nat) (late : Bool) (s : State) : Out :=
  s.onChip (audioFrame port periods samples late)

/-- AUDIO_LINE_WRITE_COMPLETE (R524, R526): the write in progress is complete; blocks whose last line it was end, and the
next line is written. -/
def audioLineWriteComplete (p : Nat) (w : Chip) : Chip :=
  let x := w.aud p
  match x.acc with
  | none => w
  | some id =>
    if !w.live || !(w.acc id).done then w
    else
      let w := w.dropAcc id
      let es := x.ends.map fun (e : Nat × Nat) => (e.1 - 1, e.2)
      let w := w.setAud p { x with acc := none, lines := x.lines.drop 1, ends := es.filter fun (e : Nat × Nat) => e.1 != 0 }
      ((es.filter fun e => e.1 == 0).foldl (fun (w : Chip) e => w.audBlockEnd p e.2) w).audPump p
def execAudioLineWriteComplete (port : Nat) (s : State) : Out := s.onChip (audioLineWriteComplete port)

end Sys2Proof.Machine
end

