-- ==== Sys2Proof/Machine/Commit.lean ====
section
/-! DEFINITION. Staged fields: acceptance of a commit and its application at the block's commit point (R53 to R57, Table
ADR-4), with what each block does there (R80, R88, R131, R293, R294, R309, R352, R372, R580, R584). -/

namespace Sys2Proof.Machine

/-- The units of the host block, each with a commit point of its own: the audio ports 0 to 2, the I2C target (3) and
GPIO (4). -/
def hostUnit (u : Nat) : Nat × Nat :=
  if u ≤ 2 then (0x4312000 + u * 0x1000, 0x4313000 + u * 0x1000)
  else if u = 3 then (0x4316000, 0x4317000)
  else (0x4317000, 0x4318000)

namespace Chip

/-- A write of 1 to CFG_COMMIT.COMMIT (R54, R56). -/
def commit (w : Chip) (blk : CfgBlock) : Chip :=
  let st := cfgStateAddr blk
  if !w.live || !w.blockUp blk then w
  else if w.cfgPending blk then w.setFlag st F.bgCfgState_LOST_COMMIT true
  else
    let (lo, hi) := cfgRange blk
    let w := { w with copied := replaceRange w.copied lo hi (stagedSet w.regs lo hi) }
    let w := match blk with
      | .host => { w with io := { w.io with unitsDone := [] } }
      | _ => w
    let now := match blk with
      | .bank n => w.cycle n
      | _ => w.time
    let w := { w with commitAt := spPut (fun _ => 0) w.commitAt st now }
    (w.setFlag st F.bgCfgState_PENDING true).setFlag st F.bgCfgState_DIRTY false

/-! ## What the blocks do at their commit point -/

/-- The commit of the bank groups of core `n` (R80, R88, R89, R131): owed writes go first, waits count anew, and a group
that becomes Private is swept, and what waits for it at the remote port is refused (R75, R96). -/
def applyBank (w : Chip) (n : Nat) : Chip :=
  let (lo, hi) := cfgRange (.bank n)
  let shared0 := [0, 1, 2, 3].filter fun g => w.shared n g
  let w := w.takeCopied lo hi
  let w := [0, 1, 2, 3].foldl (fun (w : Chip) g =>
    let x := w.group n g
    w.setGroup n g { x with merges := x.merges.map fun (m : Merge) => { m with forced := true }, waits := [] }) w.restCores
  shared0.foldl (fun (w : Chip) g => if w.shared n g then w else w.sweepGroup n g) w

/-- A committed descriptor that is wrong by itself (R293, R296, R309, Table QUE-1, Table QUE-2). -/
def descBad (w : Chip) (q : Nat) : Bool :=
  let c := Addr.qQcfg q
  let t := w.cfg c F.qQcfg_TYPE
  let log := w.cfg c F.qQcfg_LOG
  let cm := w.cfg c F.qQcfg_CMODE
  let b := w.qBind q
  let base := w.cfg (Addr.qRingAddr q) F.qRingAddr_ADDR
  let a := base % 2 ^ 32
  if t = 0 then b != 0
  else if 6 ≤ t then true
  else
    log < 4 || 20 < log || base % 128 != 0 || decide (w.qN q < w.qDepth q) ||
    (w.cfg c F.qQcfg_SPACE == 0 &&
      (decide (0x4000000 < a + w.qN q * w.qE q) || a / 0x100000 != (a + w.qN q * w.qE q - 1) / 0x100000)) ||
    (match t with
      | 1 => cm != 0 || decide (256 ≤ b)
      | 2 => cm != 0 || decide (256 ≤ b) || w.qE q != 64
      | 3 => w.cfg c F.qQcfg_PMODE != 0 || decide (128 < b) || w.qE q != 16
      | _ => b != 0)

/-- Two committed descriptors name the same slot, channel or target (R294, R350). -/
def sameBind (w : Chip) (p q : Nat) : Bool :=
  let t := w.cfg (Addr.qQcfg q) F.qQcfg_TYPE
  w.cfg (Addr.qQcfg p) F.qQcfg_TYPE == t && decide (1 ≤ t) && decide (t ≤ 3) && w.qBind p == w.qBind q

/-- CFG_BAD of queue `q`: its descriptor is wrong, or a lower-numbered queue names the same object (R293, R294, R309,
R350). -/
def cfgBad (w : Chip) (q : Nat) : Bool :=
  w.descBad q || (w.qListed.any fun p => decide (p < q) && !w.descBad p && w.sameBind p q)

/-- The commit of queue `q` (R309): a change of TYPE resets its indices and status and completes the sources in service
on it (R359). CFG_BAD of every queue follows the descriptors (R294). -/
def applyQueue (w : Chip) (q : Nat) : Chip :=
  let (lo, hi) := cfgRange (.queue q)
  let old := w.cfg (Addr.qQcfg q) F.qQcfg_TYPE
  let was := w.qType q
  let bind := w.qBind q
  let w := w.takeCopied lo hi
  let w := if w.cfg (Addr.qQcfg q) F.qQcfg_TYPE = old then w
    else
      let w := ((w.setReg (Addr.qIndex q) 0).setReg (Addr.qStatus q) 0).completeOn q fun _ _ => true
      let w := { w with que := { w.que with tags := w.que.tags.filter fun p => p.1 / 2 ^ 32 != q } }
      if was = 3 then w.targetEmptied bind else w
  (w.qListed ++ [q]).foldl (fun (w : Chip) p => w.setFlag (Addr.qStatus p) F.qStatus_CFG_BAD (w.cfgBad p)) w

/-- A probe exists and its SELECT names an object (R580, Table FLT-1). -/
def selectOk (probe sel : Nat) : Bool :=
  match probe with
  | 0x01 => decide (sel < 0x10000) && bits sel 7 6 == 0
  | 0x02 => decide (sel < 8)
  | 0x03 => decide (sel < 0x4000)
  | 0x04 => decide (sel < 0x400) && bits sel 7 6 == 0
  | 0x05 => decide (sel < 0x10000) && bits sel 7 6 == 0 && bits sel 11 10 == 0 && decide (bits sel 15 12 ≤ 9)
  | 0x06 | 0x0B => decide (sel < 0x100000) && bits sel 15 6 == 0 && bits sel 19 16 != 0
  | 0x07 => decide (sel < 2)
  | 0x08 => decide (sel ≤ 8)
  | 0x09 => true
  | 0x0A => decide (sel ≤ 128)
  | _ => false

/-- The commit of the Iris block (R580, R584): a unit whose PROBE or SELECT changes clears its live values. -/
def applyIris (w : Chip) : Chip :=
  let (lo, hi) := cfgRange .iris
  let old := (List.range 32).map fun u => (w.cfg (Addr.irisCfg u) F.irisCfg_PROBE, w.cfgRd (Addr.irisSelect u))
  let w := w.takeCopied lo hi
  (List.range 32).foldl (fun (w : Chip) u =>
    let new := (w.cfg (Addr.irisCfg u) F.irisCfg_PROBE, w.cfgRd (Addr.irisSelect u))
    let w := if old.getD u (0, 0) = new then w else w.setIris u {}
    w.setFlag (Addr.irisStatus u) F.irisStatus_CFG_BAD (!selectOk new.1 new.2)) w

/-- The commit point of a block is reached now (Table ADR-4, R88, R584): a wheel turn that began after the commit was
accepted has ended, a snapshot due at the boundary has been taken, no ring operation is in progress. -/
def atCommitPoint (w : Chip) : CfgBlock → Bool
  | .bank n =>
    w.fld (Addr.wheelPos n) F.wheelPos_POS == 0 && decide (spGet (fun _ => 0) w.commitAt (Addr.bgCfgState n) < w.cycle n) &&
      ([0, 1, 2, 3].all fun g => !(w.group n g).arbitrated && !(w.group n g).taken)
  | .iris => w.time % 1000 == 0 && !w.flag Addr.irisSnap F.irisSnap_BUSY
  | .queue q => !((spFind? w.que.ops q).isSome)
  | _ => true

/-- The level of pin `i` is `l` (R539, R540). -/
def pinLevel (w : Chip) (i : Nat) (l : Bool) : Chip :=
  let w := if bit w.io.gpioLevel i = l then w
    else { w with io := { w.io with gpioLevel := putBit w.io.gpioLevel i l, gpioSince := tput w.io.gpioSince i w.time } }
  if w.cfg (Addr.gpioCfg i) F.gpioCfg_FILTER = 0 then w.setReg Addr.gpioIn (putBit (w.rd Addr.gpioIn) i l) else w

/-- The chip drives pin `i` (R539): a push-pull pin either way, an open-drain pin only low. -/
def pinDriven (w : Chip) (i : Nat) : Bool :=
  bit (w.rd Addr.gpioOe) i && !(bit (w.rd Addr.gpioOut) i && w.cfg (Addr.gpioCfg i) F.gpioCfg_OD == 1)

/-- The pins that the chip drives take the levels of GPIO_OUT (R539). -/
def gpioDrive (w : Chip) : Chip :=
  ((List.range 16).filter fun i => w.pinDriven i).foldl
    (fun (w : Chip) i => w.pinLevel i (bit (w.rd Addr.gpioOut) i)) w

/-- Apply a copied set at the block's commit point, for the host block to one unit (R55). -/
def commitApply (w : Chip) (blk : CfgBlock) (unit : Nat) : Chip :=
  if !w.live || !w.blockUp blk || !w.cfgPending blk || !w.atCommitPoint blk then w
  else
    let (lo, hi) := cfgRange blk
    match blk with
    | .bank n => (w.applyBank n).commitDone blk
    | .queue q => (w.applyQueue q).commitDone blk
    | .iris => w.applyIris.commitDone blk
    | .events => w.applyEvents.commitDone blk
    | .host =>
      if 5 ≤ unit || w.io.unitsDone.contains unit then w
      else
        let (ulo, uhi) := hostUnit unit
        let w := w.takeCopied ulo uhi
        let w := if unit ≤ 2 then w.audBoundary unit else if unit = 4 then w.gpioDrive else w
        let w := { w with io := { w.io with unitsDone := unit :: w.io.unitsDone } }
        if w.io.unitsDone.length = 5 then w.commitDone blk else w
    | _ => (w.takeCopied lo hi).commitDone blk

end Chip

/-- CFG_COMMIT (R54, R56). -/
def execCfgCommit (blk : CfgBlock) (s : State) : Out := s.onChip fun w => w.commit blk

/-- CFG_COMMIT_APPLY (R55). -/
def execCfgCommitApply (blk : CfgBlock) (unit : Nat) (s : State) : Out := s.onChip fun w => w.commitApply blk unit

end Sys2Proof.Machine
end

