-- ==== Sys2Proof/Machine/Reset.lean ====
section
/-! DEFINITION. Resets and boot (R58, R445 to R450, R458, R471, R546, R572, R576, R590, R591, R601, R614): RESET_N and
PWR_OK, the reset of RESET_CHIP and of a watchdog release, the boot ROM, the check of an image, and READY. -/

namespace Sys2Proof.Machine

namespace Chip

/-- STW_STATUS.PHASE (Table STW-1). -/
def phase (w : Chip) : Nat := w.fld Addr.stwStatus F.stwStatus_PHASE
def setPhase (w : Chip) (p : Nat) : Chip := w.setFld Addr.stwStatus F.stwStatus_PHASE p

/-- The chip is READY and not frozen. -/
def ready (w : Chip) : Bool := w.live && w.flag Addr.stwStatus F.stwStatus_READY && !w.frozen

/-- The snapshot area and its INFO (R590). -/
def snapRegs (t : Table (BitVec 64)) : Table (BitVec 64) := t.filter fun p => decide (0x4258000 ≤ p.1) && decide (p.1 < 0x425A100)

/-- GPIO_IN follows the pins, the filters being 0 after a reset (R539, R540). -/
def pinRegs (t : Table (BitVec 64)) (level : Nat) : Table (BitVec 64) := spPut resetWord t Addr.gpioIn (BitVec.ofNat 64 (level % 2 ^ 16))

/-- The block in reset (R58, R576): everything at its reset value but the pins, the snapshot (R590), the emergency area
(R468), and the flash with its journal (R501). -/
def coldReset (w : Chip) : Chip :=
  { regs := pinRegs (snapRegs w.regs) w.io.gpioLevel, freeCtr := w.freeCtr, pins := w.pins
    jrnl := { entries := w.jrnl.entries, next := w.jrnl.next, oldest := w.jrnl.oldest }
    stw := { emerg := w.stw.emerg, flashOut := w.stw.flashOut, overwritten := w.stw.overwritten }
    io := { gpioLevel := w.io.gpioLevel, jtagIr := w.io.jtagIr, jtagBsr := w.io.jtagBsr,
            jtagOut := w.io.jtagOut } }

/-- An assertion of RESET_N, or a fall of PWR_OK (R546), of `ns` nanoseconds: one of at least 10 µs resets the chip; for a
shorter one the spec leaves open whether it does (R614; log entry 3). -/
def assertReset (w : Chip) (ns : Nat) (low : Pins → Pins) : Chip :=
  let hit : Bool := decide (10000 ≤ ns) || w.freeNat 1 == 1
  let w := if 10000 ≤ ns then w else w.drew
  if hit then { w.coldReset with pins := { low w.pins with extest := false } } else w

/-- The link ports are enabled and listen (R430). -/
def enablePorts (w : Chip) : Chip := (List.range 8).foldl (fun (w : Chip) p => w.enterDown p) w

/-- The registers that RESET_CHIP and a watchdog release keep (R458, R470, R572, R590, R601). -/
def keptRegs (w : Chip) : Table (BitVec 64) :=
  w.regs.filter fun p =>
    [Addr.tbStatus, Addr.wdFired, Addr.jrnlStatus, Addr.pwrStatus, Addr.stwVersion].contains p.1 ||
    (decide (0x4258000 ≤ p.1) && decide (p.1 < 0x425A100))

/-- STATE.LAST_SEQ and LAST_VALID mirror the kept responses (R458). -/
def mirrorKept (w : Chip) : Chip :=
  w.stw.kept.foldl (fun (w : Chip) p =>
    (w.setFld (Addr.mbState p.1) F.mbState_LAST_SEQ (bits (p.2.headD 0) 31 16)).setFlag (Addr.mbState p.1)
      F.mbState_LAST_VALID true) w

/-- The reset of RESET_CHIP and of a watchdog release (R58, R471, R515, R572, R576, R591): the steward goes on at `ph`.
The timebase counts on, the PCIe link, its configuration space and the MSI-X table stay, and so do the setpoints, the
thermal ceiling and what R458, R468, R590 and R601 name. -/
def chipReset (w : Chip) (ph : Nat) : Chip :=
  let v := Addr.vcoreStatus
  let r : Chip :=
    { regs := pinRegs w.keptRegs w.io.gpioLevel, freeCtr := w.freeCtr, nextId := w.nextId, time := w.time, pins := w.pins
      jrnl := { entries := w.jrnl.entries, next := w.jrnl.next, oldest := w.jrnl.oldest, recent := w.jrnl.recent }
      wd := { fedAt := w.time }
      pcie := { w.pcie with reads := [], pba := [] }
      pwr := { stepAt := w.time, ceilAt := w.time, sentVcore := w.pwr.sentVcore, sentVsepal := w.pwr.sentVsepal
               awakeVsepal := w.pwr.awakeVsepal, tripHold := w.pwr.tripHold }
      stw := { kept := w.stw.kept, bootAt := w.time, bootSrc := w.stw.bootSrc, bootSlot := w.stw.bootSlot
               image := w.stw.image, emerg := w.stw.emerg, flashOut := w.stw.flashOut, overwritten := w.stw.overwritten }
      io := { gpioLevel := w.io.gpioLevel, gpioSince := w.io.gpioSince, jtagIr := w.io.jtagIr, jtagBsr := w.io.jtagBsr,
              jtagOut := w.io.jtagOut } }
  let r := ((r.setFld v F.vcoreStatus_REQ_MV (w.fld v F.vcoreStatus_REQ_MV)).setFld v F.vcoreStatus_CEILING_MV
    (w.fld v F.vcoreStatus_CEILING_MV)).setFld v F.vcoreStatus_VSEPAL_MV (w.fld v F.vcoreStatus_VSEPAL_MV)
  (r.mirrorKept.setPhase ph).enablePorts

end Chip

/-- RESET_N_ASSERT (R58, R614). -/
def execResetNAssert (ns : Nat) (s : State) : Out :=
  s.onChip fun w => if w.pins.resetN then w.assertReset ns fun p => { p with resetN := false } else w

/-- RESET_N_RELEASE (R445): the timebase starts at 0 and the steward in its ROM phase. -/
def execResetNRelease (s : State) : Out :=
  s.onChip fun w => if w.pins.resetN then w else { w with pins := { w.pins with resetN := true }, time := 0 }

/-- PWR_OK_FALL (R546). -/
def execPwrOkFall (ns : Nat) (s : State) : Out :=
  s.onChip fun w => if w.pins.pwrOk then w.assertReset ns fun p => { p with pwrOk := false } else w

/-- PWR_OK_RISE (R546). -/
def execPwrOkRise (s : State) : Out :=
  s.onChip fun w => if w.pins.pwrOk then w else { w with pins := { w.pins with pwrOk := true }, time := 0 }

/-- BOOT_SEL_READ (R430, R446): 5 ms after the release the boot ROM reads BOOT_SEL; it has enabled the link ports. -/
def bootSelRead (sel : Nat) (w : Chip) : Chip :=
  if !w.live || w.phase != 0 || decide (w.time < 5000000) then w
  else
    let b := sel % 4
    let w := (w.setFld Addr.stwStatus F.stwStatus_BOOT_SRC b).enablePorts.setFlag Addr.tbStatus F.tbStatus_LOCKED true
    { w with stw := { w.stw with bootSrc := b, bootAt := 0 } }.setPhase
      (match b with | 0 => 2 | 3 => 6 | _ => 1)
def execBootSelRead (sel : Nat) (s : State) : Out := s.onChip (bootSelRead sel)

/-- The GO bit of BOOT_CTRL (R448): loading starts in WAIT_HOST, and a GO in any other phase is ignored. -/
def bootGo (w : Chip) : Chip := if w.live && w.phase == 1 then w.setPhase 2 else w

/-- BOOT_CTRL_GO (R448): the write of BOOT_CTRL with its LENGTH and GO = 1. -/
def execBootCtrlGo (length : Nat) (s : State) : Out :=
  s.onChip fun w => if w.live then bootGo (w.setReg Addr.bootCtrl (length % 2 ^ 18)) else w

/-- The header of an image that is right (R447, R449), `len` bytes being at hand: magic, length, protocol version 3 (R1) and
CRC. -/
def imageOf (d : List Byte) (len : Nat) : Option Image :=
  let n (i k : Nat) : Nat := leNat (slice d i k)
  let l := n 8 4
  if n 0 4 = 0x56544657 ∧ 32 ≤ l ∧ l ≤ 196608 ∧ l ≤ len ∧ n 4 1 = 3 ∧ crc32c (slice d 32 (l - 32)) = n 16 4 then
    some ⟨n 4 1, n 5 1, n 6 1, n 7 1, n 12 4⟩
  else none

/-- The image runs (R449, R470): its versions are reported and INIT begins. -/
def runImage (w : Chip) (i : Image) (slot : Nat) : Chip :=
  let v := Addr.stwVersion
  let w := (((w.setFld v F.stwVersion_PROTO i.proto).setFld v F.stwVersion_FW_PATCH i.patch).setFld v F.stwVersion_FW_MINOR
    i.minor).setFld v F.stwVersion_FW_MAJOR i.major
  let w := { w with stw := { w.stw with image := some i, bootSlot := slot } }
  (w.setFld Addr.stwStatus F.stwStatus_SLOT slot).setPhase 3

/-- IMAGE_CHECK_COMPLETE (R447 to R449): what the flash slots hold is given by the command; a host's image lies in core 0's
LM. Of two valid slots the one of the higher update count is loaded; which of two of equal count, the spec leaves open. -/
def imageCheckComplete (slotA slotB : List Byte) (mem : List Host.Cell) (w : Chip) : Chip :=
  if !w.live || w.phase != 2 then w
  else if w.stw.bootSrc = 0 then
    match imageOf slotA slotA.length, imageOf slotB slotB.length with
    | some a, some b =>
      if b.count < a.count then runImage w a 0
      else if a.count < b.count then runImage w b 1
      else if w.freeNat 1 = 0 then runImage w.drew a 0 else runImage w.drew b 1
    | some a, none => runImage w a 0
    | none, some b => runImage w b 1
    | none, none => w.setPhase 6
  else
    let len := min (w.fld Addr.bootCtrl F.bootCtrl_LENGTH) 196608
    match imageOf (memRead mem 0 len) len with
    | some i => if leNat (memRead mem 8 4) = len then runImage w i 0
      else (w.setPhase 1).setFlag Addr.stwStatus F.stwStatus_IMG_BAD true
    | none => (w.setPhase 1).setFlag Addr.stwStatus F.stwStatus_IMG_BAD true
def execImageCheckComplete (slotA slotB : List Byte) (s : State) : Out :=
  s.onChip (imageCheckComplete slotA slotB s.mem)

/-- What the steward journals at READY (R468, R592, Table FLT-5): the boot with the image version and BOOT_SRC, a held
emergency area, a snapshot not yet journaled. -/
def bootNotices (w : Chip) : Chip :=
  let w := w.notice { kind := 9, time := w.time, data := toLE 8 (w.rd Addr.stwVersion) ++ toLE 8 w.stw.bootSrc }
  let w := match w.stw.emerg with
    | some d => w.notice { kind := 7, code := (d.headD 0).toNat, time := w.time, data := d.take 48 }
    | none => w
  if w.flag Addr.snapInfo F.snapInfo_VALID && !w.flag Addr.snapInfo F.snapInfo_JOURNALED then
    w.notice { kind := 6, code := w.fld Addr.snapInfo F.snapInfo_CAUSE, time := w.rd (Addr.snapHdr 0),
               data := toLE 8 (w.rd Addr.snapInfo) ++ (List.range 5).flatMap fun i => toLE 8 (w.rd (Addr.snapHdr i)) }
  else w

/-- STEWARD_READY (R87, R450, R565): the LM is zero with valid check bits, the blocks hold their reset values or firmware
defaults (wake source 0 is 0xFFE, routed to target 64 and unmasked), and READY and MGMT_OPEN are set in one step. -/
def stewardReady (b : Both) : Both :=
  let w := b.2
  if !w.live || w.frozen || w.phase != 3 then b
  else
    let w := { w with lm := { w.lm with ecc := [] } }
    let w := w.stewardCommit .power fun w => w.setReg (Addr.wakeSrc 0) 0x8FFE
    let w := w.stewardCommit .events fun w => w.setReg (Addr.srcRoute 0xFFE) (64 + 2 ^ 15)
    let w := evtMaskWrite 63 false (2 ^ 62) w
    let w := (w.setPhase 4).setFlag Addr.stwStatus F.stwStatus_READY true
    let w := w.setFlag Addr.podCtrl F.podCtrl_MGMT_OPEN true
    ([], bootNotices w)
def execStewardReady (s : State) : Out :=
  let r := stewardReady (s.mem, s.w)
  .next { s with mem := r.1, w := r.2 }

end Sys2Proof.Machine
end

