-- ==== Sys2Proof/Machine/Power.lean ====
section
/-! DEFINITION. Power, time and Sleep (19_power_timing_and_sleep.md): speed index, voltage and thermal control, forced
Sleep, the losses of Sleep, the wake, and REFCLK. -/

namespace Sys2Proof.Machine

/-- The core of this chip whose unit made request `m` (Table POD-1: units below 8). -/
def ownCore? (m : Msg) : Option Nat := if m.srcChip = 255 && decide (m.srcUnit < 8) then some m.srcCore else none

/-- An access made for a core of `ns` itself. -/
def accOfCores (ns : List Nat) (a : Acc) : Bool :=
  match a.owner with
  | .serve _ | .qop _ | .walk _ | .audio _ | .host _ | .fw _ => false
  | _ => ns.contains a.core

/-- Cores 1 to 63. -/
def cores1 : List Nat := (List.range 63).map fun i => i + 1

namespace Chip

/-- PWR_STATE.STATE: 0 AWAKE, 1 ENTERING, 2 SLEEP, 3 WAKING. -/
def pstate (w : Chip) : Nat := w.fld Addr.pwrState F.pwrState_STATE
def setPstate (w : Chip) (v : Nat) : Chip := w.setFld Addr.pwrState F.pwrState_STATE v
/-- The steward runs its firmware (R467, R588). -/
def stewardRuns (w : Chip) : Bool := w.live && (w.phase == 3 || w.phase == 4) && !w.frozen

/-! ## Removing power -/

/-- The registers of [lo, hi) lose their state (R59). -/
def eraseRegs (w : Chip) (lo hi : Nat) : Chip :=
  let keep (p : Nat × BitVec 64) : Bool := !(decide (lo ≤ p.1) && decide (p.1 < hi))
  { w with regs := w.regs.filter keep, committed := w.committed.filter keep, copied := w.copied.filter keep }

/-- The work of cores `ns` is abandoned (R564): their slots, engines and channels stop; what is in flight ends unheard. -/
def abandon (w : Chip) (ns : List Nat) : Chip :=
  { w with
    slots := w.slots.filter fun (p : Nat × Slot) => !ns.contains (p.1 / 4)
    mx := w.mx.filter fun (p : Nat × Mx) => !ns.contains p.1
    vx := w.vx.filter fun (p : Nat × Option VxCmd) => !ns.contains p.1
    dma := w.dma.filter fun (p : Nat × Chan) => !ns.contains (p.1 / 4)
    accs := w.accs.map fun (p : Nat × Acc) => if accOfCores ns p.2 then (p.1, { p.2 with owner := .none }) else p }

/-- Requests of others that cores `ns` hold are answered POWERED_DOWN (R111), and every message from or to these cores
is gone. -/
def cutMsgs (w : Chip) (ns : List Nat) : Chip :=
  let here (r : MsgRec) : Bool := match r.dst with | .core h => ns.contains h | _ => false
  let from_ (r : MsgRec) : Bool := match r.src with | .core h => ns.contains h | _ => false
  let mine (r : MsgRec) : Bool := match ownCore? r.msg with | some n => ns.contains n | none => false
  let held := w.net.msgs.filter fun p => here p.2 && !mine p.2 && !isCoherence p.2.msg && !isResponse p.2.msg &&
    (p.2.stage == .portQ || p.2.stage == .admitted || p.2.stage == .serving)
  let w := held.foldl (fun (w : Chip) p =>
    match p.2.dst with
    | .core h => w.refuseAt h p.1 p.2 0x0A
    | _ => w) w
  let gone := (w.net.msgs.filter fun p => (mine p.2 && !isResponse p.2.msg) || (here p.2 && (isResponse p.2.msg || isCoherence p.2.msg)) ||
    (from_ p.2 && !isResponse p.2.msg)).map fun p => p.1
  { w with net := { w.net with msgs := w.net.msgs.filter fun p => !gone.contains p.1
                               flits := w.net.flits.filter fun f => !gone.contains f.msg } }

/-- Accesses of the host ports and the steward that wait at the bank groups of cores `ns` fail with POWERED_DOWN (R111). -/
def failLocal (w : Chip) (ns : List Nat) : Chip :=
  let out (p : Nat × Acc) : Bool := ns.contains p.2.home && !p.2.remote && !p.2.done &&
    match p.2.owner with
    | .host _ | .fw _ => true
    | _ => false
  let ids := (w.accs.filter out).map fun p => p.1
  let w := { w with lm := { w.lm with groups := w.lm.groups.filter fun (p : Nat × Group) => !ns.contains (p.1 / 4) } }
  ids.foldl (fun (w : Chip) id => (w.setAcc id { w.acc id with
    fault := 0x0A, todo := [], flying := 0, merging := 0, recd := [], recWait := 0 }).settle id) w

/-- The power of cores `ns` is removed: their working state and registers are lost (R19, R59, R342). -/
def gateOff (w : Chip) (ns : List Nat) : Chip :=
  let w := ((w.abandon ns).cutMsgs ns).failLocal ns
  let w := { w with
    accs := w.accs.filter fun (p : Nat × Acc) => !((p.2.owner == .none && ns.contains p.2.core) ||
      (ns.contains p.2.home && !p.2.remote && (match p.2.owner with | .serve _ => true | _ => false)))
    coh := w.coh.filter fun (p : Nat × Coh) => !ns.contains p.1
    net := { w.net with arbs := w.net.arbs.filter fun (p : Nat × Arb) => !(decide (p.1 < 128) && ns.contains (p.1 % 64)) }
    lm := { cycle := w.lm.cycle.filter fun (p : Nat × Nat) => !ns.contains p.1
            groups := w.lm.groups.filter fun (p : Nat × Group) => !ns.contains (p.1 / 4)
            ecc := w.lm.ecc.filter fun (p : Nat × Nat) => !ns.contains (p.1 / 0x20000) }
    sync := { w.sync with regsHeld := w.sync.regsHeld.filter fun (p : Nat × Reg) =>
      !(p.2.msg.srcChip == 255 && ns.contains p.2.msg.srcCore) }
    que := { w.que with
      ops := w.que.ops.filter fun (p : Nat × QOp) => !((p.2.kind == 2 || p.2.kind == 3) && ns.contains p.2.core)
      wait := w.que.wait.filter fun (r : QReq) => !(match r.msg with
        | some m => (match ownCore? m.msg with | some n => ns.contains n | none => false)
        | none => false) }
    pod := { w.pod with outReqs := w.pod.outReqs.filter fun (p : Nat × OutReq) =>
      !(match ownCore? p.2.msg with | some n => ns.contains n | none => false) } }
  let w := ns.foldl (fun (w : Chip) n => w.eraseRegs (0x5000000 + n * 0x40000) (0x5040000 + n * 0x40000)) w
  { w with goingDown := w.goingDown.filter fun n => !ns.contains n }.restCores

/-- Core `n`'s RLC and snoop filter are emptied without any message (R563); what waited for an answer goes on. -/
def emptyCoh (w : Chip) (n : Nat) : Chip :=
  let c := w.cohOf n
  let w := w.setCoh n { nextTag := c.nextTag, nextTid := c.nextTid, fills := c.fills.map fun (f : Fill) => { f with snooped := true, flushed := false } }
  let w := (w.setReg (Addr.sfStatus n) (w.rd (Addr.sfStatus n) / 2 * 2)).setFlag (Addr.rlcStatus n) F.rlcStatus_FLUSHING false
  let ids := (w.accs.filter fun p => p.2.home == n && !p.2.remote && (!p.2.recd.isEmpty || p.2.recWait != 0)).map fun p => p.1
  ids.foldl (fun (w : Chip) id => (w.setAcc id { w.acc id with recd := [], recWait := 0 }).settle id) w

/-! ## Entering Sleep -/

/-- The ring of queue `q` is lost: its access in progress, if any, fails POWERED_DOWN (R312). -/
def ringGone (w : Chip) (q : Nat) : Chip :=
  match spFind? w.que.ops q with
  | some o =>
    let a := w.acc o.acc
    if o.answer.isSome || (spFind? w.accs o.acc).isNone then w
    else w.setAcc o.acc { a with fault := if a.fault = 0 then 0x0A else a.fault, parts := 0, done := true }
  | none => w

/-- Every queue whose ring lies in the LM of cores 1 to 63 of this chip loses its entries, also one that acts as NONE; held
operations of these cores and of other chips go (R312). -/
def sleepQueues (w : Chip) : Chip :=
  let far (r : QReq) : Bool := match r.msg with
    | some m => m.msg.srcChip != 255 || (match ownCore? m.msg with | some n => n != 0 | none => false)
    | none => r.pod
  let w := { w with que := { w.que with held := w.que.held.filter fun (r : QReq) => !far r } }
  (w.qListed.filter fun q =>
    let a := w.cfg (Addr.qRingAddr q) F.qRingAddr_ADDR % 2 ^ 40
    w.cfg (Addr.qQcfg q) F.qQcfg_TYPE != 0 && w.cfg (Addr.qQcfg q) F.qQcfg_SPACE == 0 && w.isSelf (a / 2 ^ 32) &&
      decide (0x100000 ≤ a % 2 ^ 32)).foldl (fun (w : Chip) q =>
    ((w.ringGone q).consumed q (w.qProd q)).setFlag (Addr.qStatus q) F.qStatus_RING_LOST true) w

/-- Sleep entry clears ARRIVED bits 1 to 63 of every Bloom line, and removes every registration from cores 1 to 63 and from
other chips (R290). -/
def sleepSync (w : Chip) : Chip :=
  let lines := (w.regs.filter fun p => decide (0x4210000 ≤ p.1) && decide (p.1 < 0x4211000) && p.1 % 64 == 8).map fun p => p.1
  let w := lines.foldl (fun (w : Chip) a => w.setReg a (w.rd a % 2)) w
  { w with sync := { regsHeld := w.sync.regsHeld.filter fun (p : Nat × Reg) => p.2.msg.srcChip == 255 && p.2.msg.srcCore == 0 } }

/-- The SLEEP_ENTER commands in progress complete with OK and the time of entry (R498, R569). -/
def endSleepCmds (w : Chip) : Chip :=
  let fin (p : Nat × MbxCmd) : Nat × MbxCmd :=
    if bits (p.2.req.headD 0) 15 0 == 0x91 && p.2.result.isNone then (p.1, { p.2 with result := some (0, [w.time]) }) else p
  { w with stw := { w.stw with cmds := w.stw.cmds.map fin } }

/-- The chip reaches SLEEP (R564, step 4 and 5): the losses, core 0's snoop filter among them (R140), the gates open, VCORE_EN
low. Whether VCORE stays in range is the board's (R548), so VCORE_OK and the bit of RAIL_OK are left open. `mv` is the VSEPAL setpoint of the command, 0 for none. -/
def enterSleep (w : Chip) (forced : Bool) (mv : Nat) : Chip :=
  let w := (w.sleepSync.sleepQueues.gateOff cores1).emptyCoh 0
  let w := ((w.eraseRegs 0x4211000 0x4212000).eraseRegs 0x4280000 0x4300000).eraseRegs 0x4300000 0x4310000
  let ports := w.net.msgs.filter fun p => (match p.2.src with | .port _ => true | _ => false) ||
    (match p.2.dst with | .port _ => true | _ => false)
  let gone := ports.map fun p => p.1
  let w := { w with lnk := [], pod := {}, goingDown := []
                    net := { w.net with arbs := w.net.arbs.filter fun (p : Nat × Arb) => decide (p.1 < 128)
                                        msgs := w.net.msgs.filter fun (p : Nat × MsgRec) => !gone.contains p.1
                                        flits := w.net.flits.filter fun (f : Flit) => !gone.contains f.msg } }
  let now := w.fld Addr.vcoreStatus F.vcoreStatus_VSEPAL_MV
  let w := { w with pwr := { w.pwr with awakeVsepal := now, drainAt := none, drained := false, sleepReq := none } }
  let w := if mv = 0 then w else w.setFld Addr.vcoreStatus F.vcoreStatus_VSEPAL_MV mv
  let ok := w.freeNat 1
  let w := (((w.drew.setPstate 2).setFld Addr.pwrState F.pwrState_VCORE_EN 0).setFld Addr.pwrState F.pwrState_VCORE_OK
    ok).setFlag Addr.pwrState F.pwrState_FORCED forced
  let w := w.setFld Addr.railOk F.railOk_VCORE ok
  let w := ((w.setReg Addr.corePwr 1).setFld Addr.spx F.spx_CORE 0).bump Addr.sleepCount
  (w.setReg Addr.lastSleepTime w.time).endSleepCmds

/-- A forced Sleep (R563, R569): no flush, no sweep, no LEAVE; work on cores 1 to 63 is cut off, and a wake in progress is
abandoned. In Sleep nothing more is lost. -/
def forceSleep (w : Chip) : Chip :=
  if w.pstate = 2 then w
  else if w.pstate = 3 then
    (((w.setPstate 2).setFld Addr.pwrState F.pwrState_VCORE_EN 0).setFlag Addr.pwrState F.pwrState_FORCED true).bump Addr.sleepCount
      |>.setReg Addr.lastSleepTime w.time
  else
    let w := (w.abandon cores1).becomeAlone
    ((0 :: cores1).foldl (fun (w : Chip) n => w.emptyCoh n) w).enterSleep true 0

/-! ## The wake -/

/-- Step 1 of Table PWR-3 (R565, R566): WAKING, VCORE_EN high, the awake VSEPAL setpoint. -/
def beginWake (w : Chip) : Chip :=
  let w := (w.setPstate 3).setFld Addr.pwrState F.pwrState_VCORE_EN 1
  let w := w.setFld Addr.vcoreStatus F.vcoreStatus_VSEPAL_MV w.pwr.awakeVsepal
  { w with pwr := { w.pwr with wakeAt := w.time, stages := 0, zeroed := false, tripHold := false } }

/-- After a trip every wake is refused while TJ.MAX is above 100 °C (R563). -/
def wakeBarred (w : Chip) : Bool := w.pwr.tripHold && decide (100 < w.tjMax)

/-- Write recorded configuration back into the blocks that `sel` names (R480): registers that are not staged at once, the
staged ones with one commit of each block. -/
def restoreRecord (w : Chip) (sel : Nat → Bool) : Chip :=
  let rs := w.stw.record.filter fun p => sel p.1
  let staged := rs.filter fun p => isStaged p.1
  let w := (rs.filter fun p => !isStaged p.1).foldl (fun (w : Chip) p => w.setReg p.1 p.2) w
  (staged.map fun p => blockOf p.1).eraseDups.foldl (fun (w : Chip) blk => w.stewardCommit blk fun w =>
    (staged.filter fun p => blockOf p.1 == blk).foldl (fun (w : Chip) p => w.setReg p.1 p.2) w) w

/-- The power-down of cores `ns` begins: their remote ports refuse what has not been admitted (R112). -/
def beginDown (w : Chip) (ns : List Nat) : Chip := { w with goingDown := w.goingDown ++ ns }.restCores

/-- The quarters of the LM of cores `ns` have valid check bits (R87). -/
def cleanEcc (w : Chip) (ns : List Nat) : Chip :=
  { w with lm := { w.lm with ecc := w.lm.ecc.filter fun (p : Nat × Nat) => !ns.contains (p.1 / 0x20000) } }

/-- Cores `ns` have power and their LM is zero (R87): memory of cores that `ns` names is cleared. -/
def zeroLm (mem : List Host.Cell) (ns : List Nat) : List Host.Cell := mem.filter fun e => !ns.contains (e.1 / 0x100000)

/-- The setpoint that VCORE's regulator is sent (R556). -/
def vcoreTarget (w : Chip) : Nat :=
  min (w.fld Addr.vcoreStatus F.vcoreStatus_REQ_MV) (w.fld Addr.vcoreStatus F.vcoreStatus_CEILING_MV)

end Chip

open Chip

/-- SLEEP_DRAIN_TIMEOUT (R564, step 2): the rest of the work of cores 1 to 63 is abandoned. -/
def sleepDrainTimeout (w : Chip) : Chip :=
  match w.pwr.drainAt with
  | some t => if w.live && w.pstate == 1 && decide (t + 100000 ≤ w.time) then
      { w.abandon cores1 with pwr := { w.pwr with drained := true } } else w
  | none => w
def execSleepDrainTimeout (s : State) : Out := s.onChip sleepDrainTimeout

/-- WAKE_ACCEPT (R565, R563). -/
def wakeAccept (w : Chip) : Chip :=
  if !w.stewardRuns || w.pstate != 2 || !w.evt.wakeReq then w
  else
    let w := { w with evt := { w.evt with wakeReq := false } }
    if w.wakeBarred then w.setFlag Addr.pwrStatus F.pwrStatus_WAKE_REFUSED true else w.beginWake
def execWakeAccept (s : State) : Out := s.onChip wakeAccept

/-- VCORE_OK (R566, step 2). -/
def vcoreOk (w : Chip) : Chip :=
  if w.live && w.pstate == 3 then (w.setFld Addr.pwrState F.pwrState_VCORE_OK 1).setFld Addr.railOk F.railOk_VCORE 1 else w
def execVcoreOk (s : State) : Out := s.onChip vcoreOk

/-- VCORE_OK_TIMEOUT (R567): SLEEP is reached again. -/
def vcoreOkTimeout (w : Chip) : Chip :=
  if w.live && w.pstate == 3 && w.fld Addr.pwrState F.pwrState_VCORE_OK == 0 && decide (w.pwr.wakeAt + 20000 ≤ w.time) then
    (((w.setPstate 2).setFld Addr.pwrState F.pwrState_VCORE_EN 0).setFlag Addr.pwrStatus F.pwrStatus_VCORE_LOST true).setReg
      Addr.lastSleepTime w.time
  else w
def execVcoreOkTimeout (s : State) : Out := s.onChip vcoreOkTimeout

/-- POWER_GATE_STAGE (R566, step 3): the next of nine stages closes. -/
def powerGateStage (w : Chip) : Chip :=
  if w.live && w.pstate == 3 && w.fld Addr.pwrState F.pwrState_VCORE_OK == 1 && decide (w.pwr.stages < 9) then
    { w with pwr := { w.pwr with stages := w.pwr.stages + 1 } }
  else w
def execPowerGateStage (s : State) : Out := s.onChip powerGateStage

/-- WAKE_LM_ZERO_COMPLETE (R87, R566, step 4). -/
def wakeLmZeroComplete (b : Both) : Both :=
  let w := b.2
  if w.live && w.pstate == 3 && w.pwr.stages == 9 && !w.pwr.zeroed then
    (zeroLm b.1 cores1, { w.cleanEcc cores1 with pwr := { w.pwr with zeroed := true } })
  else b
def execWakeLmZeroComplete (s : State) : Out :=
  let r := wakeLmZeroComplete (s.mem, s.w)
  .next { s with mem := r.1, w := r.2 }

/-- WAKE_RESTORE_COMPLETE (R140, R480, R566, step 5): AWAKE with every core powered and no RLC line or snoop filter entry; the
link ports listen (R568). -/
def wakeRestoreComplete (w : Chip) : Chip :=
  if w.stewardRuns && w.pstate == 3 && w.pwr.zeroed then
    let w := ((w.emptyCoh 0).setPstate 0).setReg Addr.corePwr (2 ^ 64 - 1)
    let w := ((w.bump Addr.wakeCount).setReg Addr.lastWakeTime w.time).enablePorts
    let w := w.restoreRecord fun a => decide (0x5040000 ≤ a) || (decide (0x4280000 ≤ a) && decide (a < 0x4310000)) ||
      (decide (0x4211000 ≤ a) && decide (a < 0x4212000))
    let w := w.setFlag Addr.podCtrl F.podCtrl_MGMT_OPEN (w.flag Addr.stwStatus F.stwStatus_READY)
    ({ w with pwr := { w.pwr with spxMin := none, stepAt := w.time } } : Chip).releaseInputs
  else w
def execWakeRestoreComplete (s : State) : Out := s.onChip wakeRestoreComplete

/-- REGULATOR_UPDATE (R555, R556, R558; Table ADR-4): the power control step applies a pending commit of the power block
and sends a setpoint that has changed with VOUT_COMMAND. -/
def regulatorUpdate (w : Chip) : Chip :=
  if !w.live then w
  else
    let w := w.commitApply .power 0
    if !w.stewardRuns then w
    else
      let vc := w.vcoreTarget
      let vs := w.fld Addr.vcoreStatus F.vcoreStatus_VSEPAL_MV
      let send (r v old : Nat) (p : Ports) : Ports :=
        { p with pmbQ := p.pmbQ ++ [{ rail := r, cmd := 0x21, value := v, old := old }] }
      let w := if w.pstate = 0 ∧ vc ≠ w.pwr.sentVcore then
        { w with io := send 0 vc w.pwr.sentVcore w.io, pwr := { w.pwr with sentVcore := vc } } else w
      if vs ≠ w.pwr.sentVsepal then { w with io := send 1 vs w.pwr.sentVsepal w.io, pwr := { w.pwr with sentVsepal := vs } } else w
def execRegulatorUpdate (s : State) : Out := s.onChip regulatorUpdate

/-- SPEED_INDEX_UPDATE (R552; probes SPX and VCORE_DROOP of Table FLT-1): the readings of the 16 and 2 tempo sensors, and
the lowest on-die VCORE of the microsecond. -/
def speedIndexUpdate (core sepal : List Nat) (low : Nat) (w : Chip) : Chip :=
  if !w.live || core.length != 16 || sepal.length != 2 then w
  else
    let c := if w.switchedOn then core.foldl min 255 else 0
    let p := sepal.foldl min 255
    let w := (w.setFld Addr.spx F.spx_CORE c).setFld Addr.spx F.spx_SEPAL p
    let f := Addr.spxFloor
    let w := (w.setFld f F.spxFloor_CORE (min c (w.fld f F.spxFloor_CORE))).setFld f F.spxFloor_SEPAL
      (min p (w.fld f F.spxFloor_SEPAL))
    let w := w.irisSample 0x07 (fun sel => bits sel 0 0 == 1) (p : Nat)
    if !w.switchedOn then w
    else
      let w := (w.irisSample 0x07 (fun sel => bits sel 0 0 == 0) (c : Nat)).irisSample 0x09 (fun _ => true)
        ((w.vcoreTarget : Int) - low)
      { w with pwr := { w.pwr with spxMin := some (min c (w.pwr.spxMin.getD 255)) } }
def execSpeedIndexUpdate (core sepal : List Nat) (low : Nat) (s : State) : Out := s.onChip (speedIndexUpdate core sepal low)

/-- ADAPTIVE_STEP (R557, R558). -/
def adaptiveStep (w : Chip) : Chip :=
  let v := Addr.vcoreStatus
  if !w.stewardRuns || w.fld v F.vcoreStatus_ADAPT != 1 || w.pstate != 0 || decide (w.time < w.pwr.stepAt + 1000000) then w
  else
    let x := w.pwr.spxMin.getD (w.fld Addr.spx F.spx_CORE)
    let t := w.fld v F.vcoreStatus_SPX_TARGET
    let r := w.fld v F.vcoreStatus_REQ_MV
    let r := if x < t then r + 5 else if t + 8 < x then r - 5 else r
    let r := max 450 (min r (w.fld v F.vcoreStatus_CEILING_MV))
    { w.setFld v F.vcoreStatus_REQ_MV r with pwr := { w.pwr with spxMin := none, stepAt := w.time } }
def execAdaptiveStep (s : State) : Out := s.onChip adaptiveStep

/-- THERMAL_SAMPLE (R559; probe TEMPERATURE): the eight sensors. Which of several sensors that read TJ.MAX the field SENSOR
names, the spec leaves open. -/
def thermalSample (temps : List Int) (w : Chip) : Chip :=
  if !w.live || temps.length != 8 then w
  else
    let m := temps.foldl max (temps.headD 0)
    let at_ := (List.range 8).filter fun i => temps.getD i 0 == m
    let w := (w.setFld Addr.tj F.tj_MAX (wrapInt 16 m)).setFld Addr.tj F.tj_SENSOR (at_.getD (w.freeNat 8 % at_.length) 0)
    let w := if at_.length = 1 then w else w.drew
    let pk := signed 16 (w.fld Addr.tjPeak F.tjPeak_PEAK)
    let w := if pk < m then w.setFld Addr.tjPeak F.tjPeak_PEAK (wrapInt 16 m) else w
    let w := (List.range 8).foldl (fun (w : Chip) i => w.irisSample 0x08 (fun sel => sel == i) (temps.getD i 0)) w
    w.irisSample 0x08 (fun sel => sel == 8) m
def execThermalSample (temps : List Int) (s : State) : Out := s.onChip (thermalSample temps)

/-- The temperature limit in force (R560): at most the grade's maximum. -/
def Chip.thermLimit (w : Chip) : Nat := min (w.cfg Addr.thermCfg F.thermCfg_THERM_LIMIT) (if Config.industrial then 105 else 95)

/-- THERMAL_CEILING_STEP (R560). -/
def thermalCeilingStep (w : Chip) : Chip :=
  let v := Addr.vcoreStatus
  let c := w.fld v F.vcoreStatus_CEILING_MV
  let step (c : Nat) : Chip := { w.setFld v F.vcoreStatus_CEILING_MV c with pwr := { w.pwr with ceilAt := w.time } }
  if !w.stewardRuns then w
  else if (w.thermLimit : Int) ≤ w.tjMax then
    if w.pwr.ceilAt + 1000000 ≤ w.time then step (max 450 (c - 10)) else w
  else if w.tjMax ≤ (w.thermLimit : Int) - 5 then
    if w.pwr.ceilAt + 10000000 ≤ w.time then step (min 900 (c + 10)) else w
  else w
def execThermalCeilingStep (s : State) : Out := s.onChip thermalCeilingStep

/-- What the journal captures of a trip or a brown-out (Table FLT-5). -/
def Chip.powerNotice (w : Chip) : Chip :=
  w.notice { kind := 8, time := w.time, data := toLE 8 (w.rd Addr.pwrState) ++ toLE 8 (w.rd Addr.tj) ++ toLE 8 (w.rd Addr.pwrStatus) }

/-- THERMAL_TRIP (R561, R563). -/
def thermalTrip (w : Chip) : Chip :=
  if w.live && decide (115 ≤ w.tjMax) then
    let w := (w.setFlag Addr.pwrStatus F.pwrStatus_TRIPPED true).forceSleep
    { w.powerNotice with pwr := { w.pwr with tripHold := true } }
  else w
def execThermalTrip (s : State) : Out := s.onChip thermalTrip

/-- BROWNOUT (R562): while the Switched blocks are powered. -/
def brownout (w : Chip) : Chip :=
  if w.live && (decide (w.pstate ≤ 1) || (w.pstate == 3 && w.pwr.stages != 0)) then
    ((w.setFlag Addr.pwrStatus F.pwrStatus_BROWNOUT true).forceSleep).powerNotice
  else w
def execBrownout (s : State) : Out := s.onChip brownout

/-- SPX_FLOOR_REARM (R552). -/
def spxFloorRearm (w : Chip) : Chip := if w.live then w.setReg Addr.spxFloor 0xFFFF else w
def execSpxFloorRearm (s : State) : Out := s.onChip spxFloorRearm

/-- TJ_PEAK_REARM (R559). -/
def tjPeakRearm (w : Chip) : Chip := if w.live then w.setReg Addr.tjPeak 0x8000 else w
def execTjPeakRearm (s : State) : Out := s.onChip tjPeakRearm

/-- REFCLK_LOSS (R575): holdover begins, and the chip leaves TB_LOCKED. -/
def refclkLoss (w : Chip) : Chip :=
  let t := Addr.tbStatus
  if !w.live then w
  else
    let w := ((w.setFlag t F.tbStatus_LOCKED false).setFlag t F.tbStatus_HOLDOVER true).setFlag t F.tbStatus_REF_LOST true
    if w.switchedOn then w.setFlag Addr.podState F.podState_TB_LOCKED false else w
def execRefclkLoss (s : State) : Out := s.onChip refclkLoss

/-- HOLDOVER_END (R575). -/
def holdoverEnd (w : Chip) : Chip :=
  if w.live && w.flag Addr.tbStatus F.tbStatus_HOLDOVER then
    (w.setFlag Addr.tbStatus F.tbStatus_HOLDOVER false).setFlag Addr.tbStatus F.tbStatus_LOCKED true
  else w
def execHoldoverEnd (s : State) : Out := s.onChip holdoverEnd

end Sys2Proof.Machine
end

