-- ==== Sys2Proof/Machine/Monitor.lean ====
section
/-! DEFINITION. Monitors and faults of the chip (20_deadlines_monitors_and_faults.md): Iris snapshots, the watchdog and its
snapshot, and the fault journal. -/

namespace Sys2Proof.Machine

open Chip

/-! ## Iris snapshots (R583) -/

/-- IRIS_SNAP_GO (R583): ignored while BUSY is 1. -/
def irisSnapGo (w : Chip) : Chip := if w.live then w.setFlag Addr.irisSnap F.irisSnap_BUSY true else w
def execIrisSnapGo (s : State) : Out := s.onChip irisSnapGo

/-- Unit `u` copies its live values to its snapshot registers (R582, R583). -/
def Chip.irisCopy (w : Chip) (u : Nat) : Chip :=
  let x := w.irisLive u
  let w := (((w.setReg (Addr.irisMin u) (wrapInt 64 x.min)).setReg (Addr.irisMax u) (wrapInt 64 x.max)).setReg
    (Addr.irisCount u) x.count).setReg (Addr.irisSum u) (wrapInt 64 x.sum)
  (List.range 32).foldl (fun (w : Chip) i => w.setReg (Addr.irisBin u i) (tget x.bins i)) w

/-- SNAPSHOT_BOUNDARY (R583). -/
def snapshotBoundary (w : Chip) : Chip :=
  let a := Addr.irisSnap
  if !w.live || w.time % 1000 != 0 || !w.flag a F.irisSnap_BUSY then w
  else
    let us := (List.range 32).filter fun u => bit (w.fld a F.irisSnap_UNITS) u
    let clear := w.flag a F.irisSnap_RESET
    let w := us.foldl (fun (w : Chip) u =>
      let w := w.irisCopy u
      if clear then w.setIris u {} else w) w
    (w.setReg Addr.irisSnapTime w.time).setFlag a F.irisSnap_BUSY false
def execSnapshotBoundary (s : State) : Out := s.onChip snapshotBoundary

/-! ## The chip watchdog (R587 to R592) -/

/-- The watchdog's period in ticks. -/
def Chip.wdPeriod (w : Chip) : Nat := w.fld Addr.wdCfg F.wdCfg_PERIOD_MS * 1000000

/-- WATCHDOG_FEED (R587): the steward, while it runs, feeds every quarter period unless the host feeds. -/
def watchdogFeed (w : Chip) : Chip :=
  if w.live && !w.frozen && w.phase != 5 && !w.flag Addr.wdCfg F.wdCfg_HOST_FEED &&
      decide (w.wd.fedAt + w.wdPeriod / 4 ≤ w.time) then
    { w with wd := { w.wd with fedAt := w.time } }
  else w
def execWatchdogFeed (s : State) : Out := s.onChip watchdogFeed

/-- WATCHDOG_WARNING (R587, R600): source 0xA81 rises. -/
def execWatchdogWarning (s : State) : Out := s.onChip (sourceInputChange 0xA81)

/-- WATCHDOG_EXPIRY (R588). -/
def watchdogExpiry (w : Chip) : Chip :=
  if w.live && !w.frozen && decide (w.wd.fedAt + w.wdPeriod ≤ w.time) then (w.bump Addr.wdFired).freeze 1 else w
def execWatchdogExpiry (s : State) : Out := s.onChip watchdogExpiry

/-- A chip released from a freeze (R591): at INIT with the image in private RAM if it still matches its header, else loading
or waiting for a host as BOOT_SEL was. -/
def wdRelease (ramOk : Bool) (w : Chip) : Chip :=
  if w.live && w.frozen then w.chipReset (if ramOk then 3 else if w.stw.bootSrc = 0 then 2 else 1) else w
def execWdRelease (ramOk : Bool) (s : State) : Out := s.onChip (wdRelease ramOk)

/-- One bit per core. -/
def coreBits (f : Nat → Bool) : Nat := ((List.range 64).map fun n => b2n (f n) * 2 ^ n).sum

/-- The words of the snapshot header after INFO (Table FLT-2). -/
def Chip.snapHeader (w : Chip) : List Nat :=
  [w.wd.frozenAt,
   w.rd Addr.stwStatus % 2 ^ 32 + w.rd Addr.stwHalt % 2 ^ 32 * 2 ^ 32,
   w.rd Addr.pwrState % 2 ^ 8 + w.rd Addr.spx % 2 ^ 16 * 2 ^ 16 + w.fld Addr.tj F.tj_MAX * 2 ^ 32,
   w.rd Addr.podState % 2 ^ 32,
   ((List.range 8).map fun i => w.lState i * 2 ^ (4 * i) + w.fld (Addr.mbState i) F.mbState_STATE * 2 ^ (32 + 2 * i)).sum,
   w.rd Addr.corePwr,
   coreBits fun n => !(w.mxOf n).runs.isEmpty,
   coreBits fun n => (w.vxOf n).isSome,
   coreBits fun n => [0, 1, 2, 3].any fun h => w.chState n h != 0,
   w.rd Addr.chipEccLog]

/-- The four words of a slot record (Table FLT-3). -/
def Chip.slotRecord (w : Chip) (n c : Nat) : List Nat :=
  if !w.coreUp n then [0, 0, 0, 0]
  else
    [w.slotState n c + w.blockCode n c * 2 ^ 4 + w.waitKind n c * 2 ^ 8 + w.ctxId n c * 2 ^ 16 + w.cp n c * 2 ^ 32,
     w.rd (Addr.ctxWaitArg n c), w.rd (Addr.ctxWaitTarget n c), if w.dlArmed n c then w.deadline n c else 0]

/-- Every sequencer has stopped at a command boundary (R588). -/
def Chip.allStopped (w : Chip) : Bool :=
  allSlots.all fun x => !w.coreUp x.1 || w.slotState x.1 x.2 != slActive || w.atBoundary x.1 x.2

/-- WATCHDOG_SNAPSHOT (R588, R590): the snapshot of a freeze, or LOST. With AUTO_RESET the chip is released at once (R591);
whether the steward's image in private RAM is still good then, the spec leaves open to the RAM. -/
def watchdogSnapshot (w : Chip) : Chip :=
  let i := Addr.snapInfo
  if !w.live || !w.frozen || w.wd.snapped || !w.allStopped then w
  else
    let w := { w with wd := { w.wd with snapped := true } }
    let w := if w.flag i F.snapInfo_VALID then w.addSat i F.snapInfo_LOST 1
      else
        let hdr := w.snapHeader
        let recs := allSlots.map fun x => (x, w.slotRecord x.1 x.2)
        let w := (List.range 10).foldl (fun (w : Chip) k => w.setReg (Addr.snapHdr k) (hdr.getD k 0)) w
        let w := recs.foldl (fun (w : Chip) r => [0, 1, 2, 3].foldl (fun (w : Chip) k =>
          w.setReg (Addr.snapSlot (r.1.1 * 4 + r.1.2) k) (r.2.getD k 0)) w) w
        ((w.setFlag i F.snapInfo_VALID true).setFlag i F.snapInfo_JOURNALED false).setFld i F.snapInfo_CAUSE w.wd.cause
    if w.flag Addr.wdCtrl F.wdCtrl_AUTO_RESET then wdRelease (w.freeNat 1 == 1) w.drew else w
def execWatchdogSnapshot (s : State) : Out := s.onChip watchdogSnapshot

/-! ## The fault journal (R594 to R596, Table FWC-12) -/

/-- DEC_LOG_REARM (R49). -/
def decLogRearm (w : Chip) : Chip := if w.live then w.setFlag Addr.decStatus F.decStatus_LOG_VALID false else w
def execDecLogRearm (s : State) : Out := s.onChip decLogRearm

/-- Write entry `e` into the journal: of 1,023 the oldest is overwritten (R501). -/
def Chip.journalPut (w : Chip) (e : Occ × Nat) : Chip :=
  let j := w.jrnl
  let full : Bool := decide (1023 ≤ j.entries.length)
  let es := if full then j.entries.drop 1 else j.entries
  { w with
    jrnl := { j with entries := spInsert es j.next e, next := j.next + 1
                     oldest := if full then j.oldest + 1 else j.oldest }
    stw := { w.stw with overwritten := w.stw.overwritten + b2n full } }

/-- An entry arises (R501, R596). While the sector is being erased up to 16 are kept for later, and any further one is lost and
counted in OVERWRITTEN (R502). -/
def Chip.journalAppend (w : Chip) (o : Occ) : Chip :=
  let e := (o, w.chipNum?.getD 0xFF)
  let w := { w with jrnl := { w.jrnl with recent := w.time :: w.jrnl.recent.filter fun t => decide (w.time < t + 1000000000) } }
  match w.jrnl.erasing with
  | none => w.journalPut e
  | some es =>
    if es.length < 16 then { w with jrnl := { w.jrnl with erasing := some (es ++ [e]) } }
    else { w with stw := { w.stw with overwritten := w.stw.overwritten + 1 } }

/-- The erase of the journal sector ends: the entries that arose during it are written (R502). -/
def Chip.journalErased (w : Chip) : Chip :=
  match w.jrnl.erasing with
  | none => w
  | some es => es.foldl Chip.journalPut { w with jrnl := { w.jrnl with erasing := none } }

/-- What the steward does once it has dealt with an occurrence: it rearms the log that captured it (R49, Table FLT-5), marks
the snapshot journaled (R592) or the emergency area empty (R468). -/
def Chip.journalAfter (w : Chip) (o : Occ) : Chip :=
  match o.kind with
  | 3 => decLogRearm w
  | 4 =>
    if o.data.length = 4 then w.setFlag Addr.chipEccLog F.chipEccLog_VALID false
    else w.setFlag (Addr.bgEccLog o.core o.slot) F.bgEccLog_VALID false
  | 6 => w.setFlag Addr.snapInfo F.snapInfo_JOURNALED true
  | 7 => { w with stw := { w.stw with emerg := none } }
  | _ => w

/-- Faults whose frames are counted only (Table FLT-5): WAIT_TIMEOUT, DEADLINE_MISS and SYNC_OVERRUN. -/
def journaled (o : Occ) : Bool := o.kind == 1 && !([0x07, 0x08, 0x09].contains o.code)

/-- JOURNAL_ENTRY_WRITE (R595, R596): the occurrence observed first of the fault tap and of what the steward observes. At
most 32 entries in 1 s, but for kinds 6 to 9. -/
def journalEntryWrite (w : Chip) : Chip :=
  if !w.stewardRuns then w
  else
    let tapFirst : Bool := match w.jrnl.tap.head?, w.jrnl.seen.head? with
      | some t, some o => decide (t.time < o.time)
      | some _, none => true
      | none, _ => false
    let go (w : Chip) (o : Occ) : Chip :=
      let busy := w.jrnl.recent.filter fun t => decide (w.time < t + 1000000000)
      let w := if 32 ≤ busy.length && !(decide (6 ≤ o.kind) && decide (o.kind ≤ 9)) then
        w.addSat Addr.jrnlStatus F.jrnlStatus_SUPPRESSED 1 else w.journalAppend o
      w.journalAfter o
    if tapFirst then
      match w.jrnl.tap with
      | [] => w
      | o :: r =>
        let w := { w with jrnl := { w.jrnl with tap := r } }
        if journaled o then go w o else w
    else
      match w.jrnl.seen with
      | [] => w
      | o :: r => go { w with jrnl := { w.jrnl with seen := r } } o
def execJournalEntryWrite (s : State) : Out := s.onChip journalEntryWrite

/-- The 64 bytes of a journal entry (Table FWC-12). -/
def journalBytes (number : Nat) (e : Occ × Nat) : List Byte :=
  let o := e.1
  toLE 4 (number % 2 ^ 32) ++ toLE 1 o.kind ++ toLE 1 o.code ++ toLE 1 (o.core % 64 + o.slot % 4 * 64) ++ toLE 1 e.2 ++ toLE 8 o.time ++
    (o.data ++ List.replicate 48 0).take 48

end Sys2Proof.Machine
end

