-- ==== Sys2Proof/Machine/Board.lean ====
section
/-! DEFINITION. The board ports (18_host_and_audio_ports.md): PMBus (R536, R537), the I2C target (R538), GPIO (R539, R540)
and JTAG (R541). -/

namespace Sys2Proof.Machine

open Chip

/-! ## PMBus -/

/-- PMBUS_POLL (R536): the three readings of both rails are queued. -/
def pmbusPoll (w : Chip) : Chip :=
  if w.stewardRuns && decide (w.io.pollAt + 1000000 ≤ w.time) then
    let txn (r c : Nat) : PmbTxn := { rail := r, cmd := c }
    { w with io := { w.io with
        pollAt := w.time
        pmbQ := w.io.pmbQ ++ [txn 0 0x8B, txn 0 0x8C, txn 0 0x79, txn 1 0x8B, txn 1 0x8C, txn 1 0x79] } }
  else w
def execPmbusPoll (s : State) : Out := s.onChip pmbusPoll

/-- A reading arrives in PMB[r]; a non-zero STATUS_WORD shows on source 0x931 (Table HIO-8). -/
def Chip.pmbRead (w : Chip) (t : PmbTxn) (v : Nat) : Chip :=
  let a := Addr.pmb t.rail
  match t.cmd with
  | 0x8B => w.setFld a F.pmb_VOUT v
  | 0x8C => w.setFld a F.pmb_IOUT v
  | 0x79 =>
    let w := w.setFld a F.pmb_STATUS v
    let w := if v % 2 ^ 16 = 0 then w else w.setPayload 0x931 (t.rail + v % 2 ^ 16 * 2 ^ 16)
    { w with railAlarm := w.fld (Addr.pmb 0) F.pmb_STATUS != 0 || w.fld (Addr.pmb 1) F.pmb_STATUS != 0 }
  | _ => w

/-- A failed VOUT_COMMAND leaves the setpoint as it was (R537). -/
def Chip.pmbFailed (w : Chip) (t : PmbTxn) : Chip :=
  let v := Addr.vcoreStatus
  if t.cmd != 0x21 || t.old == 0 then w
  else if t.rail = 0 then
    let w := { w with pwr := { w.pwr with sentVcore := t.old } }
    if w.fld v F.vcoreStatus_REQ_MV = t.value then w.setFld v F.vcoreStatus_REQ_MV t.old else w
  else
    { w with pwr := { w.pwr with sentVsepal := t.old } }.setFld v F.vcoreStatus_VSEPAL_MV t.old

/-- PMBUS_TRANSACTION_END (R537). -/
def pmbusTransactionEnd (how : PmbEnd) (w : Chip) : Chip :=
  match w.io.pmbQ with
  | [] => w
  | t :: r =>
    if !w.live then w
    else
      let pop : Chip := { w with io := { w.io with pmbQ := r } }
      let fail (f : Fld) : Chip :=
        if t.retries < 3 then { w with io := { w.io with pmbQ := { t with retries := t.retries + 1 } :: r } }
        else ((pop.setFlag Addr.pmbStatus f true).bump Addr.pmbErrs).pmbFailed t
      match how with
      | .done v => pop.pmbRead t v
      | .nack => fail F.pmbStatus_NACK
      | .pec => fail F.pmbStatus_PEC
      | .timeout => fail F.pmbStatus_TIMEOUT
def execPmbusTransactionEnd (how : PmbEnd) (s : State) : Out := s.onChip (pmbusTransactionEnd how)

/-- The measured voltage of a rail in mV: Linear16 with exponent −12 (Table HIO-5), to the nearest. -/
def Chip.railMv (w : Chip) (r : Nat) : Nat := (w.fld (Addr.pmb r) F.pmb_VOUT * 1000 + 2048) / 4096

/-- The measured voltage of a rail lies within ±10 mV of `mv` (R497). -/
def Chip.railNear (w : Chip) (r mv : Nat) : Bool :=
  let x := w.fld (Addr.pmb r) F.pmb_VOUT * 1000
  decide (mv * 4096 ≤ x + 40960) && decide (x ≤ mv * 4096 + 40960)

/-- A current in units of 0.1 A from its Linear11 reading, to the nearest. -/
def tenthAmps (v : Nat) : Nat :=
  let m : Int := signed 11 (bits v 10 0) * 10
  let e := signed 5 (bits v 15 11)
  wrapInt 16 (if 0 ≤ e then m * ((2 ^ e.toNat : Nat) : Int) else roundShift m (-e).toNat)

/-! ## I2C target -/

/-- The status file (Table HIO-6). -/
def Chip.statusFile (w : Chip) : List Byte :=
  let p := w.phase
  let fl := b2n (w.flag Addr.stwStatus F.stwStatus_READY) + b2n (w.pstate == 2) * 2 + b2n (p == 5) * 4 +
    b2n (w.flag Addr.pwrStatus F.pwrStatus_TRIPPED) * 8 + b2n (w.flag Addr.podState F.podState_TB_LOCKED) * 16
  let head := toLE 1 0x64 ++ toLE 1 0xB0 ++ toLE 1 p ++ toLE 1 fl ++ toLE 2 (w.fld Addr.tj F.tj_MAX) ++
    toLE 1 (w.fld Addr.spx F.spx_CORE) ++ toLE 1 0 ++ toLE 2 (w.railMv 0) ++ toLE 2 (w.railMv 1) ++
    toLE 2 (tenthAmps (w.fld (Addr.pmb 0) F.pmb_IOUT)) ++ toLE 1 (w.chipNum?.getD 0xFF) ++ toLE 1 w.epoch ++
    toLE 8 ownSerial ++ toLE 4 (w.jrnl.next % 2 ^ 32)
  head ++ List.replicate (64 - head.length) 0

/-- The target answers at its address. -/
def Chip.i2cOn (w : Chip) : Bool := w.live && w.cfg Addr.i2ct F.i2ct_EN == 1

/-- I2C_TARGET_WRITE (R538): a transaction addressed to the target sets the pointer from its first data byte. -/
def i2cTargetWrite (data : List Byte) (w : Chip) : Chip :=
  match data with
  | b :: _ => if w.i2cOn then { w with io := { w.io with i2cPtr := b.toNat % 64 } } else w
  | [] => w
def execI2cTargetWrite (data : List Byte) (s : State) : Out := s.onChip (i2cTargetWrite data)

/-- I2C_TARGET_READ (R538): the file is latched, and `n` bytes are returned from the pointer onwards. -/
def i2cTargetRead (n : Nat) (w : Chip) : Chip :=
  if !w.i2cOn then w
  else
    let f := w.statusFile
    { w with io := { w.io with i2cOut := (List.range n).map fun i => f.getD ((w.io.i2cPtr + i) % 64) 0 } }
def execI2cTargetRead (bytes : Nat) (s : State) : Out := s.onChip (i2cTargetRead bytes)

/-! ## GPIO -/

/-- GPIO_PIN_CHANGE (R539, R540): a pin that the chip drives keeps the level it drives. -/
def gpioPinChange (pin : Nat) (level : Bool) (w : Chip) : Chip :=
  if 16 ≤ pin then w
  else if w.live then (if w.pinDriven pin then w else w.pinLevel pin level)
  else { w with io := { w.io with gpioLevel := putBit w.io.gpioLevel pin level } }
def execGpioPinChange (pin : Nat) (level : Bool) (s : State) : Out := s.onChip (gpioPinChange pin level)

/-- GPIO_FILTER_EXPIRY (R540): a level that has held for FILTER µs. -/
def gpioFilterExpiry (pin : Nat) (w : Chip) : Chip :=
  let f := w.cfg (Addr.gpioCfg pin) F.gpioCfg_FILTER
  if w.live && decide (pin < 16) && decide (tget w.io.gpioSince pin + f * 1000 ≤ w.time) then
    w.setReg Addr.gpioIn (putBit (w.rd Addr.gpioIn) pin (bit w.io.gpioLevel pin))
  else w
def execGpioFilterExpiry (pin : Nat) (s : State) : Out := s.onChip (gpioFilterExpiry pin)

/-! ## JTAG (R541, Table HIO-7) -/

/-- JTAG_EXTEST: the boundary-scan register drives the pins; only RESET_N brings the chip back to use. -/
def execJtagExtest (bsr : Nat) (s : State) : Out :=
  s.onChip fun w => { w with pins := { w.pins with extest := true }, io := { w.io with jtagIr := 0, jtagBsr := bsr } }

/-- JTAG_IDCODE. -/
def execJtagIdcode (s : State) : Out := s.onChip fun w => { w with io := { w.io with jtagIr := 1 } }

/-- JTAG_SAMPLE_PRELOAD: the pin levels are sampled, and the register is preloaded. -/
def execJtagSamplePreload (levels bsr : Nat) (s : State) : Out :=
  s.onChip fun w => { w with io := { w.io with jtagIr := 2, jtagOut := levels, jtagBsr := bsr } }

/-- JTAG_BYPASS: with TEST_EN low every code but those of the other instructions acts so. -/
def execJtagBypass (code : Nat) (s : State) : Out :=
  s.onChip fun w => if code % 256 ≤ 2 then w else { w with io := { w.io with jtagIr := code % 256 } }

end Sys2Proof.Machine
end

