-- ==== Sys2Proof/Machine/FwBase.lean ====
section
/-! DEFINITION. The command set of the mailboxes as a whole (17_firmware_commands.md): Table FWC-1, the layout of the
arguments (R472), the objects that commands hold (R476), the checks made at a command's start (R456, R475, R478), and the
steps that every command shares: its accesses, its commits, its bulk data (R461 to R464, R477), its end. -/

namespace Sys2Proof.Machine

/-- A row of Table FWC-1 with the bits that the table of its arguments defines: code, argument words as bit ranges, limit in
ms, whether it needs the awake chip (Sleep column "—"), whether only a host may send it, whether it holds All, and which
field names a core (0 none, 1 REQ[1] [5:0], 2 that of SYNC_CONFIG). -/
structure FwRow where
  code : Nat
  args : List (List (Nat × Nat))
  limit : Nat
  awake : Bool := false
  host : Bool := false
  all : Bool := false
  core : Nat := 0

/-- A whole word. -/
def fullWord : List (Nat × Nat) := [(63, 0)]

/-- CORE and SLOT of a context command (Table FWC-4). -/
def coreSlot : List (Nat × Nat) := [(5, 0), (9, 8)]

/-- Table FWC-1, first half. -/
def fwTableA : List FwRow := [
  { code := 0x01, args := [], limit := 1 },
  { code := 0x02, args := [], limit := 1 },
  { code := 0x03, args := [[(15, 0)]], limit := 250, host := true, all := true },
  { code := 0x10, args := [[(5, 0), (27, 8), (33, 32)], [(20, 0)], fullWord], limit := 1000, core := 1 },
  { code := 0x11, args := [[(5, 0), (27, 8)], [(20, 0)], [(31, 0)]], limit := 1000, core := 1 },
  { code := 0x20, args := [[(5, 0), (10, 8), (34, 16), (61, 48)], [(39, 0)], [(39, 0)], [(39, 0)], [(39, 0)], [(31, 0)]],
    limit := 1, core := 1 },
  { code := 0x21, args := [coreSlot], limit := 1, core := 1 },
  { code := 0x22, args := [coreSlot], limit := 100, core := 1 },
  { code := 0x23, args := [(17, 16) :: coreSlot, fullWord], limit := 1000, core := 1 },
  { code := 0x24, args := [[(5, 0), (10, 8), (17, 16)], fullWord, [(19, 0)]], limit := 1, core := 1 },
  { code := 0x25, args := [coreSlot], limit := 1, core := 1 },
  { code := 0x30, args := [[(13, 0), (15, 15)], fullWord, [(2, 0), (5, 4), (12, 8), (18, 16), (47, 32)],
      [(20, 0), (25, 24), (40, 32)]], limit := 1 },
  { code := 0x31, args := [[(13, 0)]], limit := 10 },
  { code := 0x32, args := [[(13, 0)], fullWord, [(4, 0)]], limit := 100 },
  { code := 0x40, args := [[(5, 0), (11, 8), (19, 16), (27, 24), (33, 32)]], limit := 10, core := 1 },
  { code := 0x41, args := [[(5, 0), (11, 8)], fullWord, fullWord], limit := 1, core := 1 },
  { code := 0x50, args := [[(0, 0), (13, 8), (24, 16), (35, 32)], [(47, 0)], [(2, 0), (24, 16), (47, 32)]], limit := 1,
    core := 2 },
  { code := 0x51, args := [[(0, 0), (13, 8), (16, 16)], fullWord], limit := 1 },
  { code := 0x60, args := [[(11, 0), (21, 16), (25, 24)],
      [(7, 0), (15, 15), (23, 16), (31, 31), (39, 32), (47, 47), (55, 48), (63, 63)]], limit := 1 },
  { code := 0x61, args := [[(8, 0), (12, 12), (21, 16), (24, 24)], [(37, 0)], [(23, 0)]], limit := 1 }]

/-- Table FWC-1, second half. -/
def fwTableB : List FwRow := [
  { code := 0x70, args := [[(1, 0), (10, 8), (16, 16)], fullWord, fullWord, [(31, 0)]], limit := 100 },
  { code := 0x71, args := [fullWord, [(31, 0)]], limit := 100 },
  { code := 0x80, args := [[(23, 0)]], limit := 1 },
  { code := 0x81, args := [[(8, 0)]], limit := 1000, awake := true, host := true },
  { code := 0x82, args := [[(7, 0)]], limit := 100, awake := true, host := true },
  { code := 0x83, args := [[(2, 0), (12, 8)], [(1, 0), (15, 8), (31, 16), (47, 32), (55, 48)]], limit := 10, awake := true,
    host := true },
  { code := 0x90, args := [[(32, 0), (47, 40)]], limit := 10, host := true },
  { code := 0x91, args := [[(15, 0)]], limit := 100, host := true, all := true },
  { code := 0x92, args := [fullWord, [(0, 0)]], limit := 10, awake := true, host := true },
  { code := 0xA0, args := [[(4, 0), (8, 8), (29, 16)], fullWord], limit := 1 },
  { code := 0xA1, args := [[(32, 0)], [(23, 0)]], limit := 1 },
  { code := 0xB0, args := [[(5, 0), (9, 8), (17, 16), (63, 32)]], limit := 1, core := 1 },
  { code := 0xC0, args := [[(55, 0)]], limit := 100 },
  { code := 0xC1, args := [], limit := 2000, host := true },
  { code := 0xD0, args := [[(1, 0), (8, 8)], fullWord, fullWord, fullWord], limit := 10 },
  { code := 0xE0, args := [[(17, 0), (49, 32), (63, 63)]], limit := 4000, host := true },
  { code := 0xF0, args := [[(33, 0)]], limit := 1, host := true }]

/-- The row of a command code. -/
def fwRow? (code : Nat) : Option FwRow := (fwTableA ++ fwTableB).find? fun r => r.code == code

/-- Word `i` of a command's request, and its fields of word 0 (Table STW-2). -/
def reqw (m : MbxCmd) (i : Nat) : Nat := m.req.getD i 0
/-- Bits [hi:lo] of request word `i`. -/
def rf (m : MbxCmd) (i hi lo : Nat) : Nat := bits (reqw m i) hi lo
/-- Bit `k` of request word `i`. -/
def rb (m : MbxCmd) (i k : Nat) : Bool := bit (reqw m i) k
def cmdCode (m : MbxCmd) : Nat := rf m 0 15 0
/-- The CORE field of commands that have it in REQ[1] [5:0], and SLOT. -/
def rCore (m : MbxCmd) : Nat := rf m 1 5 0

/-- The slot of a context command: SLOT, or the slot that ANY chose at the start. -/
def rSlot (m : MbxCmd) : Nat := if (cmdCode m = 0x20 ∨ cmdCode m = 0x24) ∧ rb m 1 10 then m.obj else rf m 1 9 8

/-- The queue of a QUEUE command: QUEUE, or the queue that ANY chose at the start. -/
def rQueue (m : MbxCmd) : Nat := if cmdCode m = 0x30 ∧ rb m 1 15 then m.obj else rf m 1 13 0

/-- The objects a command holds (R476, Table FWC-1), as kind and number. -/
def holds (m : MbxCmd) : List (Nat × Nat) :=
  match cmdCode m with
  | 0x10 | 0x11 => [(1, rCore m)]
  | 0x20 => (2, rCore m * 8 + rSlot m) :: if rb m 1 34 then [(3, rf m 1 61 48)] else []
  | 0x21 | 0x22 | 0x23 | 0x24 | 0xB0 => [(2, rCore m * 8 + rSlot m)]
  | 0x30 | 0x31 | 0x32 => [(3, rQueue m)]
  | 0x40 | 0x41 => [(4, rCore m)]
  | 0x50 =>
    if rb m 1 0 then (5, rf m 1 24 16) :: if rb m 1 34 then [(5, rf m 3 24 16)] else []
    else [(5, 512 + rf m 1 13 8 * 16 + rf m 1 19 16)]
  | 0x51 => [(6, rf m 1 0 0 * 64 + rf m 1 13 8)]
  | 0x60 | 0x61 => [(7, 0)]
  | 0x70 | 0x71 => [(8, 0)]
  | 0x81 | 0x82 => [(9, 0)]
  | 0x83 => [(10, rf m 1 2 0)]
  | 0x90 | 0x92 => [(11, 0)]
  | 0xA0 | 0xA1 => [(12, 0)]
  | 0xC0 | 0xC1 | 0xE0 => [(13, 0)]
  | 0xD0 => [(14, rf m 1 1 0)]
  | _ => []

/-- A TARGET that is enabled in a ROUTE value and fails R492: above 128, or (with `write`) a core's. -/
def routeBad (write : Bool) (route : Nat) : Bool :=
  [0, 1, 2, 3].any fun i => bit route (16 * i + 15) &&
    (decide (128 < bits route (16 * i + 7) (16 * i)) || (write && decide (bits route (16 * i + 7) (16 * i) < 64)))

/-- A descriptor that would set CFG_BAD, judged from the request (R293, R296, R487, Table QUE-1): its ring and QCFG. -/
def descWrong (ring c : Nat) : Bool :=
  let t := bits c 2 0
  let e := 16 * 2 ^ bits c 5 4
  let log := bits c 12 8
  let b := bits c 47 32
  let a := ring % 2 ^ 32
  if t = 0 then b != 0
  else decide (6 ≤ t) || decide (log < 4) || decide (20 < log) || ring % 128 != 0 ||
    (!bit c 16 && (decide (0x4000000 < a + 2 ^ log * e) || a / 0x100000 != (a + 2 ^ log * e - 1) / 0x100000)) ||
    (match t with
      | 1 => bit c 18 || decide (256 ≤ b)
      | 2 => bit c 18 || decide (256 ≤ b) || e != 64
      | 3 => bit c 17 || decide (128 < b) || e != 16
      | _ => b != 0)

/-- The frames, base and slot mask of an audio buffer break R524 or R525: its alignment, its blocks, whole lines per block, or
one bank group of core 0. `fb` is its bytes per frame, 0 for a buffer not used. -/
def audBufBad (cfg0 base fb : Nat) : Bool :=
  let bb := bits cfg0 31 24
  let bf := bits cfg0 47 32
  fb != 0 && (base % 64 != 0 || decide (bb < 2) || bf == 0 || bf * fb % 64 != 0 ||
    decide (0x100000 < base + bf * bb * fb) || base / 0x40000 != (base + bf * bb * fb - 1) / 0x40000)

/-- A setting that AUDIO_CONFIG does not accept, judged from the request (R504, R524, R525, R530, R535 and the ranges of the
audio registers). The frequency of AUD_MCLK at a TDM controller is the board's (log entry 18). -/
def audioBad (m : MbxCmd) : Bool :=
  let p := rf m 1 1 0
  let c0 := reqw m 2
  let c1 := reqw m 3
  let c2 := reqw m 4
  if p = 3 then true
  else if !onlyBits c0 [(19, 0), (31, 24), (47, 32), (57, 48)] then true
  else if p = 2 then
    let div := bits c1 7 0
    let r := bits c1 24 16
    let f := c2 % 2 ^ 32
    let n := popCount 16 (bits c1 63 48)
    !onlyBits c1 [(7, 0), (30, 16), (35, 32), (63, 48)] || decide (2 ^ 32 ≤ c2) || decide (div < 2) || decide (r < 16) ||
      decide (300 < r) || decide (f < 768000 * div) || decide (4800000 * div < f) ||
      (f != 16000 * div * r && f != 48000 * div * r) || n == 0 ||
      audBufBad c0 (bits c0 19 0) (n * (if bit c1 30 then 4 else 2))
  else
    let slots := bits c1 7 4 + 1
    let sb := 16 + 8 * bits c1 9 8
    let rx := bits c1 47 32
    let tx := bits c1 63 48
    let sz := if bit c1 10 then 4 else 2
    let div := bits c1 23 16
    let mclk := Config.audMclkHz.toNat
    !onlyBits c1 [(2, 0), (10, 4), (23, 16), (63, 32)] || decide (2 ^ 20 ≤ c2) || bits c1 1 0 == 3 || bits c1 9 8 == 3 ||
      (bits c1 1 0 != 2 && slots != 2) || decide (2 ^ slots ≤ rx) || decide (2 ^ slots ≤ tx) || (rx == 0 && tx == 0) ||
      (bit c1 2 && (div == 0 || decide (24576000 * div < mclk) || decide (mclk < 8000 * (div * slots * sb)) ||
        decide (192000 * (div * slots * sb) < mclk))) ||
      audBufBad c0 (bits c0 19 0) (popCount 16 rx * sz) || audBufBad c0 c2 (popCount 16 tx * sz)

namespace Chip

/-- The command in progress on a channel. -/
def cmd? (w : Chip) (c : Nat) : Option MbxCmd := spFind? w.stw.cmds c
def setCmd (w : Chip) (c : Nat) (m : MbxCmd) : Chip := { w with stw := { w.stw with cmds := spInsert w.stw.cmds c m } }

/-- R475, check 3, but for the Sleep column: a core that the command names is powered down; and the commands' own rules
(R491, R497). -/
def notReady (w : Chip) (r : FwRow) (m : MbxCmd) : Bool :=
  (r.awake && !w.switchedOn) ||
  (r.core == 1 && !w.coreUp (rCore m)) ||
  (r.core == 2 && !rb m 1 0 && !w.coreUp (rf m 1 13 8)) ||
  (r.code == 0x51 && rb m 1 0 && !w.switchedOn) ||
  (r.code == 0x90 && !w.switchedOn && (rf m 1 15 0 != 0 || rb m 1 32))

/-- R475, check 4: an argument outside the command's rule, judged from the request alone. -/
def argBad (m : MbxCmd) : Bool :=
  let w1 := reqw m 1
  let w2 := reqw m 2
  let bin := rb m 0 40
  let bout := rb m 0 41
  match cmdCode m with
  | 0x03 => w1 % 2 ^ 16 != 0x5253
  | 0x10 =>
    let sp := rf m 1 33 32
    rf m 1 27 8 % 32 != 0 || w2 % 32 != 0 || w2 == 0 || decide (0x100000 < rf m 1 27 8 + w2) || sp == 3 ||
      (sp == 0 && (!bin || reqw m 3 != 0))
  | 0x11 => rf m 1 27 8 % 32 != 0 || w2 % 32 != 0 || w2 == 0 || decide (0x100000 < rf m 1 27 8 + w2)
  | 0x20 =>
    let bind := rb m 1 34
    (rb m 1 10 && rf m 1 9 8 != 0) || rf m 2 39 20 % 512 != 0 || (!bind && rf m 1 61 48 != 0) || (bind && rf m 2 19 0 != 0)
  | 0x23 => (!rb m 1 16 && w2 != 0) || w2 % 64 != 0
  | 0x24 =>
    let sp := rf m 1 17 16
    (rb m 1 10 && rf m 1 9 8 != 0) || sp == 3 || w2 % 64 != 0 ||
      (if sp = 0 then decide (0x100000 ≤ w2) || reqw m 3 != 0 else reqw m 3 % 512 != 0)
  | 0x30 => (rb m 1 15 && rf m 1 13 0 != 0) || descWrong w2 (reqw m 3)
  | 0x32 => decide (reqw m 3 < 4) || decide (20 < reqw m 3) || w2 % 128 != 0
  | 0x41 =>
    [0, 1, 2, 3].any fun g => rb m 1 (8 + g) && (List.range 8).any fun k =>
      decide (0xB ≤ bits (reqw m (2 + g / 2)) (32 * (g % 2) + 4 * k + 3) (32 * (g % 2) + 4 * k))
  | 0x50 =>
    let cfg := reqw m 3
    let idx := rf m 1 24 16
    if rb m 1 0 then
      rf m 1 13 8 != 0 || (rb m 1 34 && (bit cfg 0 || !bit cfg 1 || bits cfg 47 32 == 0 || bits cfg 24 16 == idx))
    else decide (15 < idx) || rb m 1 34 || (rb m 1 33 && decide (1 < cfg))
  | 0x51 => !rb m 1 0 && decide (7 < rf m 1 13 8)
  | 0x60 =>
    rf m 1 11 0 == 0xFFF || rf m 1 21 20 == 3 || (rb m 1 25 && routeBad (rb m 1 24 && !rb m 1 19) w2)
  | 0x61 =>
    let t := rf m 1 8 0
    rb m 1 12 && (decide (128 < t) || (decide (63 < t) && bits w2 36 32 != 0) || (decide (t < 65) && bit w2 37))
  | 0x70 =>
    let pages := reqw m 4
    decide (2 ≤ rf m 1 1 0) || w2 % 4096 != 0 || reqw m 3 % 4096 != 0 ||
      (if rf m 1 1 0 = 1 then reqw m 3 != 0 || pages == 0
       else decide (2 ^ 39 < w2 + pages * 4096) || rf m 1 9 8 == 0)
  | 0x71 => w1 % 4096 != 0
  | 0x80 => !bout && w1 != 0
  | 0x83 => rf m 1 12 11 == 3
  | 0x90 =>
    let v := rf m 1 15 0
    let p := rf m 1 31 16
    (v != 0 && (decide (v < 450) || decide (900 < v))) || (p != 0 && (decide (p < 500) || decide (800 < p)))
  | 0x91 => w1 != 0 && (decide (w1 < 500) || decide (800 < w1))
  | 0x92 => bit w1 0
  | 0xA1 => !bout && (w2 != 0 || popCount 32 w1 != 1)
  | 0xA0 => !selectOk (rf m 1 23 16) w2
  | 0xC0 => !bout
  | 0xD0 => audioBad m
  | 0xE0 => !bin || rf m 1 49 32 == 0 || decide (65536 < rf m 1 49 32)
  | 0xF0 => decide (60000 < rf m 1 31 0)
  | _ => false

/-- The common result word of the context commands (17_firmware_commands.md, "Contexts"). -/
def ctxWord (w : Chip) (n c result : Nat) : Nat :=
  c + w.slotState n c * 2 ^ 8 + result * 2 ^ 16 + w.ctxId n c * 2 ^ 32

/-- The result words that go with a status (R473): the context commands return their common word with BAD_ARGUMENT, of the
slot that ANY chose if it chose one. -/
def refusedWords (w : Chip) (m : MbxCmd) (status : Nat) : List Nat :=
  let c := cmdCode m
  let slot := if rSlot m < 4 then rSlot m else 0
  if status = 3 ∧ (decide (0x20 ≤ c) && decide (c ≤ 0x25) || c == 0xB0) then [w.ctxWord (rCore m) slot 0] else []

/-- Queue `q` may carry bulk data: committed, of TYPE MBOX, and the steward's side in DOORBELL mode (R461). -/
def bulkQueue (w : Chip) (q : Nat) (side : Fld) : Bool := w.qType q == 5 && w.cfg (Addr.qQcfg q) side == 1

def bulkIn (w : Chip) (c : Nat) : Nat := w.fld (Addr.mbBulk c) F.mbBulk_IN_Q
def bulkOut (w : Chip) (c : Nat) : Nat := w.fld (Addr.mbBulk c) F.mbBulk_OUT_Q

/-- The bulk input or output queue of channel `c` is enabled and may carry bulk data (R461). -/
def bulkInOk (w : Chip) (c : Nat) : Bool := w.flag (Addr.mbBulk c) F.mbBulk_IN_EN && w.bulkQueue (w.bulkIn c) F.qQcfg_CMODE
def bulkOutOk (w : Chip) (c : Nat) : Bool := w.flag (Addr.mbBulk c) F.mbBulk_OUT_EN && w.bulkQueue (w.bulkOut c) F.qQcfg_PMODE

/-- A request with BIN or BOUT whose queue breaks R461. -/
def bulkWrong (w : Chip) (c : Nat) (m : MbxCmd) : Bool := (rb m 0 40 && !w.bulkInOk c) || (rb m 0 41 && !w.bulkOutOk c)

/-- The commands that carry bulk data or can answer NO_RESOURCE, which come to R461 after that (R475, 7 and 8): their first step
makes this check, and a command's start makes it for every other. -/
def bulkLater : List Nat := [0x10, 0x20, 0x24, 0x30, 0x70, 0x80, 0xA1, 0xC0, 0xE0]

/-- The checks at a command's start, in the order of R475: word 0 and its argument words (R456, R472), its origin (R478), its
blocks, its arguments, its objects (R476), and BIN and BOUT of a command without bulk data (R461). -/
def startStatus (w : Chip) (c : Nat) (m : MbxCmd) : Option Nat :=
  let w0 := reqw m 0
  if bits w0 63 42 != 0 || decide (56 < bits w0 39 32) then some 3
  else match fwRow? (cmdCode m) with
    | none => some 2
    | some r =>
      let undefd := (List.range r.args.length).any fun i => !onlyBits (reqw m (i + 1)) (r.args.getD i [])
      if bits w0 39 32 != 8 * r.args.length || undefd then some 3
      else if r.host && decide (2 ≤ w.fld (Addr.mbState c) F.mbState_ORIGIN) then some 7
      else if w.notReady r m then some 5
      else if argBad m then some 3
      else if w.stw.cmds.any (fun p => p.1 != c && (holds p.2).any fun o => (holds m).contains o) then some 1
      else if !bulkLater.contains r.code && w.bulkWrong c m then some 3
      else none

/-- The object that ANY chooses at a command's start: the lowest EMPTY slot (4 for none), the lowest queue of TYPE NONE
(16,384 for none). For the image commands, the CRC register before the first byte (R384). -/
def choose (w : Chip) (m : MbxCmd) : Nat :=
  match cmdCode m with
  | 0x20 | 0x24 => ([0, 1, 2, 3].find? fun c => w.slotState (rCore m) c == slEmpty).getD 4
  | 0x10 | 0x11 => 0xFFFFFFFF
  | 0x30 => ((List.range 16384).find? fun q => w.cfg (Addr.qQcfg q) F.qQcfg_TYPE == 0).getD 16384
  | _ => 0

/-! ## Steps of a command -/

/-- A step of the command on channel `c` if its code is `code` and it has no result yet. -/
def fw (w : Chip) (c code : Nat) (go : MbxCmd → Chip) : Chip :=
  if !w.ready then w
  else match w.cmd? c with
    | some m => if cmdCode m = code ∧ m.result = none then go m else w
    | none => w

/-- What the accesses of a channel's command leave behind is forgotten: those in progress end unheard. -/
def fwForget (w : Chip) (c : Nat) : Chip :=
  { w with accs := (w.accs.filter fun p => !(p.2.owner == .fw c && p.2.done)).map fun p =>
      if p.2.owner == .fw c then (p.1, { p.2 with owner := .none }) else p }

/-- The command has its result (R459): its status and result words. -/
def fwEnd (w : Chip) (c status : Nat) (words : List Nat) : Chip :=
  match w.cmd? c with
  | some m => (w.fwForget c).setCmd c { m with result := some (status, words) }
  | none => w

/-- Some access of the command is not done. -/
def fwWaits (w : Chip) (c : Nat) : Bool := w.accs.any fun p => p.2.owner == .fw c && !p.2.done

/-- The first fault that an access of the command met, with its DETAIL. -/
def fwFault (w : Chip) (c : Nat) : Option (Nat × Nat) :=
  ((w.accs.filter fun p => p.2.owner == .fw c && p.2.fault != 0).head?).map fun p => (p.2.fault, p.2.detail)

/-- What its accesses have read, in order of issue. -/
def fwData (w : Chip) (c : Nat) : List Byte := (w.accsOf (.fw c)).flatMap fun p => p.2.data

/-- Once every access of the command is done: `bad` follows a fault; otherwise it goes on with what was read. -/
def fwOnOr (w : Chip) (c : Nat) (bad : Chip → Nat × Nat → Chip) (go : Chip → List Byte → Chip) : Chip :=
  if w.fwWaits c then w
  else match w.fwFault c with
    | some f => bad w f
    | none => go (w.dropAccs (.fw c)) (w.fwData c)

/-- The same, where a fault ends the command FAULTED (R460). -/
def fwOn (w : Chip) (c : Nat) (go : Chip → List Byte → Chip) : Chip :=
  w.fwOnOr c (fun w f => w.fwEnd c 9 [f.1 + f.2 % 2 ^ 32 * 2 ^ 32]) go

/-- The command moves on to phase `p`. -/
def fwPhase (w : Chip) (c : Nat) (m : MbxCmd) (p : Nat) : Chip := w.setCmd c { m with phase := p }

/-- The checks that a command's first step still makes (R475, 6 to 8): a status ends it, otherwise it is in phase 1. -/
def fwCheck (w : Chip) (c : Nat) (m : MbxCmd) (st : Chip → Option Nat) (go : Chip → MbxCmd → Chip) : Chip :=
  if m.phase = 0 then
    match st w with
    | some x => w.fwEnd c x (w.refusedWords m x)
    | none => go (w.fwPhase c m 1) { m with phase := 1 }
  else go w m

/-- An operation of SEQ_OP on a slot (R211): the command waits for BUSY 0, starts it in phase `p`, and goes on with its RESULT
once BUSY is 0 again. -/
def fwSeq (w : Chip) (c : Nat) (m : MbxCmd) (n op slot p : Nat) (go : Chip → Nat → Chip) : Chip :=
  let a := Addr.seqOp n
  if !w.coreUp n then w.fwEnd c 9 [0x0A]
  else if w.flag a F.seqOp_BUSY then w
  else if m.phase = p then (w.seqGo n op slot).fwPhase c m (p + 1)
  else if m.phase = p + 1 then go w (w.fld a F.seqOp_RESULT)
  else w

/-- An access of the steward as DMR or DMW of a core (R483). -/
def fwLm (w : Chip) (c n : Nat) (kind : AccKind) (off len : Nat) (data : List Byte) : Chip :=
  w.localAcc (.fw c) n n (match kind with | .rd => 7 | _ => 8) kind off len data

/-- An access of the steward to pod memory, as a requester with SRC_UNIT 12, or to host memory (R444, R464, R483). -/
def fwFar (w : Chip) (c : Nat) (host : Bool) (kind : AccKind) (a len : Nat) (data : List Byte) : Chip :=
  if host then w.hostAcc (.fw c) 0 kind (a % 2 ^ 64) len data
  else w.hubAccess (.fw c) 12 0 (a % 2 ^ 40 / 2 ^ 32) (a % 2 ^ 32) kind len data

/-- The length of the next piece of `n` bytes at address `a`: up to the next 64-byte boundary. -/
def piece (a n : Nat) : Nat := min n (64 - a % 64)

/-- `n` bytes at address `a`, as one access per 64-byte line. -/
def fwFarAll (w : Chip) (c : Nat) (host : Bool) (kind : AccKind) (data : List Byte) : Nat → Nat → Nat → Nat → Chip
  | 0, _, _, _ => w
  | k + 1, a, n, pos =>
    if n = 0 then w
    else
      let l := piece a n
      (w.fwFar c host kind a l (slice data pos l)).fwFarAll c host kind data k (a + l) (n - l) (pos + l)

/-! ## Commits of a command -/

/-- The commit of a command (R477): it starts once none is pending, and `go` follows when it has been applied. `p` and
`p + 1` are the command's phases before it is accepted and until it is applied. -/
def fwCommit (w : Chip) (c : Nat) (m : MbxCmd) (blk : CfgBlock) (p : Nat) (stage : Chip → Chip) (go : Chip → MbxCmd → Chip) : Chip :=
  if m.phase = p then
    if w.cfgPending blk then w else ((stage w).commit blk).fwPhase c m (p + 1)
  else if m.phase = p + 1 then
    if w.cfgPending blk then w else go w { m with phase := p + 2 }
  else w

/-- The steward writes a staged register (R53): DIRTY follows. -/
def stageReg (w : Chip) (blk : CfgBlock) (a v : Nat) : Chip :=
  (w.setReg a (maskReg a v)).setFlag (cfgStateAddr blk) F.bgCfgState_DIRTY true

/-- The steward's record of configuration (R480). -/
def setRecord (w : Chip) (a v : Nat) : Chip := { w with stw := { w.stw with record := spInsert w.stw.record a v } }
def recordOf (w : Chip) (a : Nat) : Nat := (spFind? w.stw.record a).getD (resetWord a).toNat

/-! ## Bulk data (R461 to R463) -/

/-- R475, checks 7 and 8, for the bulk data of a command that reads `n` bytes and writes at most `k`. -/
def bulkStatus (w : Chip) (c : Nat) (m : MbxCmd) (n k : Nat) : Option Nat :=
  let qi := w.bulkIn c
  let qo := w.bulkOut c
  let room := (k + w.qE qo - 1) / w.qE qo
  if rb m 0 41 && w.bulkOutOk c && decide (w.qN qo < w.qDepth qo + room) then some 4
  else if w.bulkWrong c m || (rb m 0 40 && decide (w.qDepth qi < (n + w.qE qi - 1) / w.qE qi)) then some 3
  else none

/-- Entry `i` of the ring of queue `q` is read or written by the steward. -/
def fwRing (w : Chip) (c q i : Nat) (kind : AccKind) (data : List Byte) : Chip :=
  w.fwFar c (w.cfg (Addr.qQcfg q) F.qQcfg_SPACE == 1) kind (w.entryAddr q i) (w.qE q) data

/-- Write `d` to the bulk output queue entry by entry, each committed by a DB_PROD write once its write is complete (R463);
`fin` follows with the command. `m.data` holds what is still to be written, `m.mark` counts the bytes written; the last
entry is filled with zeros. -/
def fwOutput (w : Chip) (c : Nat) (m : MbxCmd) (p : Nat) (fin : Chip → MbxCmd → Chip) : Chip :=
  let q := w.bulkOut c
  if m.phase = p then
    if m.data.isEmpty then fin w m
    else (w.fwRing c q (w.qProd q) .wr (padTo (w.qE q) m.data)).fwPhase c m (p + 1)
  else if m.phase = p + 1 then
    w.fwOn c fun w _ =>
      let w := doorbellWrite .dbProd q ((w.qProd q + 1) % 2 ^ 32) .steward w
      let m := { m with phase := p, mark := m.mark + min m.data.length (w.qE q), data := m.data.drop (w.qE q) }
      if m.data.isEmpty then fin w m else (w.fwRing c q (w.qProd q) .wr (padTo (w.qE q) m.data)).fwPhase c m (p + 1)
  else w

end Chip

end Sys2Proof.Machine
end

