-- ==== Sys2Proof/Machine/Mailbox.lean ====
section
/-! DEFINITION. The mailbox channels (R451 to R460, R475, R476, R479, R481): the doorbell, the start, the end and the timeout
of a command; the steward's exceptions (R467, R468). -/

namespace Sys2Proof.Machine

namespace Chip

/-- STATE of channel `c`: 0 IDLE, 1 POSTED, 2 BUSY, 3 DONE. -/
def mbState (w : Chip) (c : Nat) : Nat := w.fld (Addr.mbState c) F.mbState_STATE
def setMbState (w : Chip) (c v : Nat) : Chip := w.setFld (Addr.mbState c) F.mbState_STATE v

/-- The channels that are POSTED, in the order of R454. -/
def postedChans (w : Chip) : List Nat :=
  ((List.range 8).map fun i => (w.stw.last + 1 + i) % 8).filter fun c => w.mbState c == 1

/-- A command that holds All (R476). -/
def holdsAll (m : MbxCmd) : Bool := match fwRow? (cmdCode m) with | some r => r.all | none => false

/-- The whole response slot is written and the channel is DONE (R455). -/
def respond (w : Chip) (c : Nat) (rsp : List Nat) : Chip :=
  ((List.range 8).foldl (fun (w : Chip) i => w.setReg (Addr.mbRsp c i) (rsp.getD i 0)) w).setMbState c 3

/-- The response of command `m` with a status and result words (Table STW-2, R473). -/
def rspOf (m : MbxCmd) (status : Nat) (words : List Nat) : List Nat :=
  (reqw m 0 % 2 ^ 32 + 8 * words.length * 2 ^ 32 + status * 2 ^ 40) :: (words ++ List.replicate (7 - words.length) 0)

/-- The steward keeps a response, and STATE mirrors its SEQ (R457, R458). -/
def keepRsp (w : Chip) (c : Nat) (rsp : List Nat) : Chip :=
  let w := { w with stw := { w.stw with kept := spInsert w.stw.kept c rsp } }
  (w.setFld (Addr.mbState c) F.mbState_LAST_SEQ (bits (rsp.headD 0) 31 16)).setFlag (Addr.mbState c) F.mbState_LAST_VALID
    true

end Chip

open Chip

/-- A write of 1 to DOORBELL.RING (R453): dropped while the chip is not READY, accepted by an IDLE or DONE channel, which
latches the request and its origin, and else lost. -/
def mailboxDoorbell (c origin : Nat) (w : Chip) : Chip :=
  if !w.live || decide (8 ≤ c) then w
  else if !w.ready then w.bump Addr.earlyDrop
  else if w.mbState c = 0 ∨ w.mbState c = 3 then
    let req := (List.range 8).map fun i => w.rd (Addr.mbReq c i)
    let w := { w with stw := { w.stw with latched := spInsert w.stw.latched c req } }
    ((w.setMbState c 1).setFld (Addr.mbState c) F.mbState_ORIGIN origin).bump (Addr.mbDoorbells c)
  else w.setFlag (Addr.mbState c) F.mbState_DB_LOST true
/-- MAILBOX_DOORBELL (R453): `origin` is 0 for the PCIe endpoint, 1 for the QSPI target, 2 for another pod member. -/
def execMailboxDoorbell (chan origin : Nat) (s : State) : Out := s.onChip (mailboxDoorbell chan (origin % 3))

/-- MAILBOX_COMMAND_START (R454 to R457, R475, R476): the posted channel that comes after the one taken last. A command that
holds All waits until no other channel is BUSY, and nothing starts meanwhile nor while it runs. A request with the kept SEQ
is answered from the record; one that fails a check has its status at once. -/
def mailboxCommandStart (w : Chip) : Chip :=
  if !w.ready then w
  else match w.postedChans with
    | [] => w
    | c :: _ =>
      let m : MbxCmd := { req := spGet (fun _ => []) w.stw.latched c, born := w.time, stamp := w.nextId }
      let dup := match spFind? w.stw.kept c with
        | some k => bits (k.headD 0) 31 16 == rf m 0 31 16
        | none => false
      let others := w.stw.cmds.filter fun p => p.1 != c
      if others.any (fun p => holdsAll p.2) || (holdsAll m && !dup && !others.isEmpty) then w
      else
        let w := { w.bumpId with stw := { w.stw with latched := spErase w.stw.latched c, last := c } }
        match spFind? w.stw.kept c with
        | some k =>
          if dup then w.respond c ((k.headD 0 % 2 ^ 48 + 2 ^ 48) :: k.drop 1)
          else
            let m := { m with obj := w.choose m }
            let st := w.startStatus c m
            (w.setMbState c 2).setCmd c { m with result := st.map fun x => (x, w.refusedWords m x) }
        | none =>
          let m := { m with obj := w.choose m }
          let st := w.startStatus c m
          (w.setMbState c 2).setCmd c { m with result := st.map fun x => (x, w.refusedWords m x) }
def execMailboxCommandStart (s : State) : Out := s.onChip mailboxCommandStart

/-- MAILBOX_COMMAND_DONE (R455, R457 to R459, R477): a command with a result is answered, and its response kept.
GET_INFO and GET_STATUS end in the timebase at the response (Table FWC-2). -/
def mailboxCommandDone (c : Nat) (w : Chip) : Chip :=
  if !w.ready then w
  else match w.cmd? c with
    | some m =>
      match m.result with
      | some (st, words) =>
        let live : Bool := st == 0 && (cmdCode m == 0x01 || cmdCode m == 0x02)
        let rsp := rspOf m st (if live then words.dropLast ++ [w.time] else words)
        let w := { w with stw := { w.stw with cmds := spErase w.stw.cmds c } }
        (w.respond c rsp).keepRsp c rsp
      | none => w
    | none => w
def execMailboxCommandDone (chan : Nat) (s : State) : Out := s.onChip (mailboxCommandDone chan)

/-- A QUEUE_RESIZE that ends while its commit is pending takes it back, so that the old descriptor stays committed (R488). -/
def Chip.dropCommit (w : Chip) (blk : CfgBlock) (m : MbxCmd) : Chip :=
  if m.phase = 7 && w.cfgPending blk then
    (w.setFlag (cfgStateAddr blk) F.bgCfgState_PENDING false).setFlag (cfgStateAddr blk) F.bgCfgState_DIRTY true
  else w

/-- MAILBOX_COMMAND_TIMEOUT (R479): the limit of Table FWC-1 has passed. LOAD_IMAGE reports what is complete (R483);
QUEUE_RESIZE clears HOLD (R488); an erase of the journal sector runs on (R502). -/
def mailboxCommandTimeout (c : Nat) (w : Chip) : Chip :=
  if !w.ready then w
  else match w.cmd? c with
    | some m =>
      match fwRow? (cmdCode m) with
      | some r =>
        if m.result.isSome || decide (w.time < m.born + r.limit * 1000000) then w
        else if cmdCode m = 0x10 then w.fwEnd c 8 [m.mark + Nat.xor m.obj 0xFFFFFFFF * 2 ^ 32]
        else if cmdCode m = 0x32 ∧ m.phase ≠ 0 then queueHoldRelease (rQueue m) ((w.dropCommit (.queue (rQueue m)) m).fwEnd c 8 [])
        else if cmdCode m = 0xC1 then w.journalErased.fwEnd c 8 []
        else w.fwEnd c 8 []
      | none => w
    | none => w
def execMailboxCommandTimeout (chan : Nat) (s : State) : Out := s.onChip (mailboxCommandTimeout chan)

/-- STEWARD_EXCEPTION (R467 to R469): STW_HALT names the cause and the time; with a valid stack pointer one journal entry is
written, otherwise the emergency area takes the cause and the state `dump`; the steward halts. -/
def stewardException (cause : Nat) (spValid : Bool) (dump : List Byte) (w : Chip) : Chip :=
  if !w.stewardRuns then w
  else
    let w := (w.setFld Addr.stwHalt F.stwHalt_CAUSE cause).setReg Addr.stwHaltTime w.time
    let w := if spValid then
        w.journalAppend { kind := 7, code := cause % 256, time := w.time,
                          data := toLE 8 (w.rd Addr.stwHalt) ++ toLE 8 w.time }
      else
        { w.setFlag Addr.stwHalt F.stwHalt_EMERG true with
          stw := { w.stw with emerg := some (padTo 256 (BitVec.ofNat 8 cause :: dump)) } }
    (w.setPhase 5).setFlag Addr.stwStatus F.stwStatus_READY false
def execStewardException (cause : Nat) (spValid : Bool) (dump : List Byte) (s : State) : Out :=
  s.onChip (stewardException cause spValid dump)

end Sys2Proof.Machine
end

