-- ==== Sys2Proof/Machine/Device.lean ====
section
/-! DEFINITION. The device region (02_addressing_and_registers.md): which register an access reaches (R38 to R43, R52), what a
register reads as and what a write of it does (R14, R44, R53, R209), and what an access to a reserved, private or unpowered
address does (R42, R45, R47 to R49). -/

namespace Sys2Proof.Machine

/-- The register that holds the 4-byte word at address `a`: its row, its address, and for a register with SET and CLR
addresses which of the three is named (R52). -/
def regAt? (a : Nat) : Option (RegRow × Nat × Nat) :=
  let a8 := a / 8 * 8
  catalogue.findSome? fun r =>
    if r.triple then
      ([0, 1, 2].find? fun k => decide (8 * k ≤ a8) && inFamily r.base r.dims (a8 - 8 * k)).map fun k => (r, a8 - 8 * k, k)
    else if r.wide then (if inFamily r.base r.dims a8 then some (r, a8, 0) else none)
    else if inFamily r.base r.dims a then some (r, a, 0) else none

/-- A register that takes a whole 8-byte slot. -/
def wideReg (r : RegRow) : Bool := r.wide || r.triple

/-- The number whose bit `i` is `f i`, for `i` below `n`. -/
def maskOf (n : Nat) (f : Nat → Bool) : Nat := ((List.range n).map fun i => b2n (f i) * 2 ^ i).sum

namespace Chip

/-! ## What registers read as -/

/-- What a register of a core's control block reads as; `o` is its offset. -/
def viewCore (w : Chip) (n o a : Nat) : Nat :=
  if o = 0x10 then
    maskOf 4 (fun c => (w.candidates n).contains c) + maskOf 4 (fun c => w.slotState n c == slWaiting) * 2 ^ 4 +
      w.fld a F.seqStatus_LAST * 2 ^ 8
  else if 0x1000 ≤ o ∧ o < 0x2000 ∧ o % 0x400 = 0x100 then putBits (w.rd a) 3 0 (w.blockCode n (o / 0x400 % 4))
  else if o = 0x2000 then
    let x := w.mxOf n
    w.rd a + maskOf 4 (fun u => x.runs.any fun r => r.unit == u) + x.queue.length % 16 * 2 ^ 4
  else if o = 0x3000 then
    w.rd a + (match w.vxOf n with | some x => 1 + x.slot % 4 * 2 | none => 0)
  else if 0x6000 ≤ o ∧ o < 0x6400 ∧ o % 0x100 = 0 then
    let h := (o - 0x6000) / 0x100
    let c := w.chan n h
    w.rd a + c.txns.length % 16 * 2 ^ 4 + b2n (w.chState n h == 3 && c.next.isSome) * 2 ^ 16
  else if o = 0x9008 then
    let es := (w.cohOf n).sf.flatMap fun p => p.2
    (es.filter fun e => !e.broad).length + (es.filter fun e => e.broad).length * 2 ^ 16
  else if o = 0x900C then (w.cohOf n).recs.length
  else if 0xB000 ≤ o ∧ o < 0xB200 ∧ o % 0x20 = 0 then
    let k := (o - 0xB000) / 0x20
    w.rd (Addr.ctxLc n (k / 4) (k % 4))
  else w.rd a

/-- What a register of the event controller reads as (R350, R362); `o` is its offset. -/
def viewEvents (w : Chip) (o a : Nat) : Nat :=
  if 0x800 ≤ o ∧ o < 0x1000 then
    maskOf 64 fun i => let st := (w.evSrc ((o - 0x800) / 0x20 * 64 + i)).state; st == 1 || st == 2
  else if 0x1000 ≤ o ∧ o < 0x1200 then maskOf 64 fun i => (w.evSrc ((o - 0x1000) / 8 * 64 + i)).state == 3
  else if 0x1200 ≤ o ∧ o < 0x1400 then
    maskOf 64 fun i => let s := (o - 0x1200) / 8 * 64 + i; !swSource s && decide (s < 0xFFF) && w.sensedInput s
  else if 0x3000 ≤ o ∧ o < 0x4020 ∧ o % 0x20 = 8 then
    match w.evQueue? ((o - 0x3000) / 0x20) with
    | some q => w.rd a / 8 * 8 % 2 ^ 16 + w.rd a % 4 + q * 2 ^ 16
    | none => w.rd a % 2 ^ 16 / 8 * 8 + w.rd a % 4 + 4
  else if 0x8000 ≤ o ∧ o % 0x10 = 4 then
    let x := w.evSrc ((o - 0x8000) / 0x10)
    x.state + x.slotNext * 2 ^ 4 + x.rep * 2 ^ 8 + b2n x.sat * 2 ^ 16
  else w.rd a

/-- What a register reads as, as 64 bits: its stored value, with the fields that follow the block's state. -/
def view (w : Chip) (a : Nat) : Nat :=
  if a < 0x4100000 then w.rd a
  else if a < 0x4200000 then
    let q := (a - 0x4100000) / 64
    match a % 64 with
    | 0x00 => w.qProd q
    | 0x08 => w.qCons q
    | 0x10 => w.rd a % 32 + b2n (w.qHeld q && (w.qOp? q).isNone) * 2 ^ 8 + w.qDepth q * 2 ^ 11
    | _ => w.rd a
  else if a < 0x4210000 then (if a % 0x80 = 0x18 then w.rd a % 8 + b2n (w.pairBad ((a - 0x4200000) / 0x80)) * 8 else w.rd a)
  else if a < 0x4211000 then
    if a % 0x40 = 0x10 then
      w.rd a % 2 + 2 * b2n (w.bloomStalled ((a - 0x4210000) / 0x40))
    else w.rd a
  else if a < 0x4212000 then
    if a % 0x40 = 0x10 then
      let b := (a - 0x4211000) / 0x40
      w.rd a % 2 ^ 17 + b2n (w.rd (Addr.asterMask b) != 0 || !(spGet (fun _ => []) w.sync.partKids b).isEmpty) * 2 ^ 17 +
        w.cfg Addr.podState F.podState_ROOT * 2 ^ 18
    else w.rd a
  else if 0x4220000 ≤ a ∧ a < 0x4240000 then w.viewEvents (a - 0x4220000) a
  else if a = Addr.tbValue then w.time
  else if a = Addr.wdStatus then w.rd a / 2 ^ 32 * 2 ^ 32 + w.wdLeft
  else if a = Addr.chipSerial then ownSerial
  else if a = Addr.pcieStatus then
    let p := w.pcie
    b2n p.linkUp + p.speed % 8 * 2 + p.width % 16 * 2 ^ 4 + b2n p.bme * 2 ^ 8 + b2n p.mse * 2 ^ 9 + b2n p.d3 * 3 * 2 ^ 10
  else if 0x5000000 ≤ a then w.viewCore ((a - 0x5000000) / 0x40000) (a % 0x40000) a
  else w.rd a

/-- Read part `m` (a bit mask) of a register (R14): WO fields read 0, and an RC field that the read touches is cleared in
the same access. -/
def readReg (w : Chip) (r : RegRow) (a m : Nat) : Nat × Chip :=
  let v := maskReg a (w.view a)
  let shown := Nat.land (((r.fields.filter fun f => f.acc != .wo).map fun f =>
    bits v f.pos.hi f.pos.lo * 2 ^ f.pos.lo).sum) m
  (shown, (r.fields.filter fun f => f.acc == .rc && Nat.land m (2 ^ f.pos.lo) != 0).foldl
    (fun (w : Chip) f => w.setFld a f.pos 0) w)

/-! ## What a write does -/

/-- The context slot whose registers address `a` lies among (R209: offsets 0x000 to 0x0EF), if one. The spec does not say
whether the registers of Table SEQ-4, which no image holds, are context registers for the lock of R209; the model locks only
those of the image (log entry 76). -/
def ctxRegOf (a : Nat) : Option (Nat × Nat) :=
  let o := a % 0x40000
  if 0x5000000 ≤ a ∧ a < 0x6000000 ∧ 0x1000 ≤ o ∧ o < 0x2000 ∧ o % 0x400 < 0xF0 then
    some ((a - 0x5000000) / 0x40000, o / 0x400 % 4)
  else none

/-- The fields of a register after a write of `v` under mask `m`: RW fields take it, W1C fields lose the bits written 1. A
W1S bit here only starts its action, and reads 0 again at once where its table does not say when it does (HT_INV.GO,
IRIS_SNAP.GO, LNK_CTRL.RELEASE, TJ_PEAK.REARM; log entry 76). -/
def writtenFields (r : RegRow) (old m v : Nat) : Nat :=
  r.fields.foldl (fun x f =>
    let o := bits old f.pos.hi f.pos.lo
    let fm := bits m f.pos.hi f.pos.lo
    let fv := bits v f.pos.hi f.pos.lo
    let keep := Nat.land o (2 ^ (f.pos.hi + 1 - f.pos.lo) - 1 - fm)
    match f.acc with
    | .rw => putBits x f.pos.hi f.pos.lo (Nat.lor keep (Nat.land fv fm))
    | .w1c => putBits x f.pos.hi f.pos.lo (Nat.land o (2 ^ (f.pos.hi + 1 - f.pos.lo) - 1 - Nat.land fv fm))
    | _ => x) old

/-- The effect of a write to a core's control block beyond its fields; `v` holds only the bits written. -/
def effectCore (w : Chip) (n o v old : Nat) : Chip :=
  if o = 0 then (if bit v 8 then w.seqGo n (w.fld (Addr.seqOp n) F.seqOp_OP) (w.fld (Addr.seqOp n) F.seqOp_SLOT) else w)
  else if 0x6000 ≤ o ∧ o < 0x6400 ∧ o % 0x100 = 8 then
    let h := (o - 0x6000) / 0x100
    let w := if bit v 0 then dmaResume n h w else w
    if bit v 1 then dmaSkip n h w else w
  else if o = 0x7FF0 then (if bit v 0 then w.commit (.bank n) else w)
  else if o = 0x8000 then
    let w := if bit old 0 && !w.flag (Addr.rlcCtrl n) F.rlcCtrl_ENABLE then
      rlcDisable n (w.setFlag (Addr.rlcCtrl n) F.rlcCtrl_ENABLE true) else w
    if bit v 1 then rlcFlush n w else w
  else if 0xB000 ≤ o ∧ o < 0xB200 ∧ o % 0x20 = 8 then lcntSignalWrite n ((o - 0xB000) / 0x20) (v % 2 ^ 32) w
  else w

/-- The effect of a write elsewhere; `sub` is 1 for a SET and 2 for a CLR address. -/
def effect (w : Chip) (a sub v old : Nat) (origin : Nat) : Chip :=
  if 0x5000000 ≤ a then w.effectCore ((a - 0x5000000) / 0x40000) (a % 0x40000) v old
  else if a < 0x4100000 then w
  else if a < 0x4200000 then
    if a % 64 = 0x30 ∧ bit v 0 then w.commit (.queue ((a - 0x4100000) / 64)) else w
  else if a < 0x4210000 then
    if a % 0x80 = 8 then counterSignalWrite ((a - 0x4200000) / 0x80) (v % 2 ^ 32) w else w
  else if 0x4220000 ≤ a ∧ a < 0x4240000 then
    if a < 0x4220800 then
      if sub = 0 then w else evtMaskWrite ((a - 0x4220000) / 0x20) (sub == 1) v w
    else if a < 0x4221000 then
      let g := (a - 0x4220800) / 0x20
      let go (w : Chip) (i : Nat) : Chip :=
        if bit v i then (if sub = 1 then pendSet (g * 64 + i) w else pendClr (g * 64 + i) w) else w
      if sub = 0 then w else (List.range 64).foldl go w
    else if a = Addr.evtComplete then evtComplete (v % 4096) w
    else if a = Addr.evtRaise then evtRaise (v % 4096) (v / 2 ^ 32) w
    else if a = Addr.evtCfgCommit ∧ bit v 0 then w.commit .events
    else w
  else if a < 0x4250000 then
    if a = Addr.bootCtrl then (if bit v 31 then bootGo w else w)
    else if a < 0x4240800 ∧ a % 0x100 = 0x80 ∧ bit v 0 then mailboxDoorbell ((a - 0x4240000) / 0x100) origin w
    else w
  else if a = Addr.wdCtrl then
    if bit v 1 && w.frozen then
      let ok := w.freeNat 1 == 1
      wdRelease ok w.drew
    else w
  else if a = Addr.irisSnap then (if bit v 40 then irisSnapGo w else w)
  else if a = Addr.irisCfgCommit then (if bit v 0 then w.commit .iris else w)
  else if a = Addr.decLogArm then (if bit v 0 then decLogRearm w else w)
  else if a = Addr.spxFloor then (if bit v 31 then spxFloorRearm w else w)
  else if a = Addr.tjPeak then (if bit v 31 then tjPeakRearm w else w)
  else if a = Addr.pwrCfgCommit then (if bit v 0 then w.commit .power else w)
  else if 0x4280000 ≤ a ∧ a < 0x4300000 then
    let p := (a - 0x4280000) / 0x10000
    if a % 0x10000 = 0x10 then
      let now := w.flag a F.lnkCtrl_DISABLE
      let w := if now == bit old 2 then w else lnkDisableWrite p now (w.setFlag a F.lnkCtrl_DISABLE (bit old 2))
      let w := if bit v 1 then lnkReleaseWrite p w else w
      if bit v 0 then lnkRetrainWrite p w else w
    else if a % 0x10000 = 0xFFF0 ∧ bit v 0 then w.commit (.link p)
    else w
  else if a = Addr.podCfgCommit then (if bit v 0 then w.commit .pod else w)
  else if a = Addr.gpioOut then
    (w.setReg a (if sub = 1 then Nat.lor old (v % 2 ^ 16) else if sub = 2 then Nat.land old (2 ^ 16 - 1 - v % 2 ^ 16)
      else old)).gpioDrive
  else if a = Addr.gpioOe then w.gpioDrive
  else if a = Addr.htInv then
    if bit v 8 then
      match w.fld a F.htInv_MODE with
      | 1 => w.htInvalidate fun _ => true
      | 2 => w.htInvalidate fun p => p == w.fld Addr.htInvAddr F.htInvAddr_PAGE
      | _ => w
    else w
  else if a = Addr.hostCfgCommit then (if bit v 0 then w.commit .host else w)
  else w

/-- A software write of the bits of `v` that mask `m` selects to the register at `a` (R14, R51 to R56, R209). A write of 1 to
SEQ_OP.GO while BUSY is 1 is ignored whole (R211), and a write to a local counter tests the core's waits again (R270). -/
def writeReg (w : Chip) (r : RegRow) (a sub m v origin : Nat) : Chip :=
  let locked := match ctxRegOf a with
    | some (n, c) => if w.slotState n c = slActive ∨ w.slotState n c = slWaiting ∨ w.slotState n c = slSaving then some (n, c) else none
    | none => none
  match locked with
  | some (n, c) => w.setFlag (Addr.ctxStatus n c) F.ctxStatus_WR_IGNORED true
  | none =>
    let v := maskReg a (Nat.land v m)
    let q := (a - 0x4100000) / 64
    let o := a % 0x40000
    if 0x4100000 ≤ a ∧ a < 0x4200000 ∧ a % 64 = 0 then doorbellWrite .dbProd q v (if origin = 2 then .pod else .steward) w
    else if 0x4100000 ≤ a ∧ a < 0x4200000 ∧ a % 64 = 8 then doorbellWrite .dbCons q v (if origin = 2 then .pod else .steward) w
    else if 0x4100000 ≤ a ∧ a < 0x4200000 ∧ a % 64 = 0x20 then
      if bit v 0 == w.qHeld q then w else if bit v 0 then queueHoldSet q w else queueHoldRelease q w
    else if 0x5000000 ≤ a ∧ 0xB000 ≤ o ∧ o < 0xB200 ∧ o % 0x20 = 0 then
      let n := (a - 0x5000000) / 0x40000
      let k := (o - 0xB000) / 0x20
      let h := Addr.ctxLc n (k / 4) (k % 4)
      (w.setReg h (writtenFields r (w.rd h) m v)).retestCore n
    else if 0x5000000 ≤ a ∧ o = 0 ∧ bit v 8 ∧ w.flag a F.seqOp_BUSY then w.setFlag a F.seqOp_OP_LOST true
    else
      let old := w.rd a
      let new := if r.triple then old else writtenFields r old m v
      if 0x4200000 ≤ a ∧ a < 0x4210000 ∧ a % 0x80 = 0 then counterValueWrite ((a - 0x4200000) / 0x80) false new w
      else if 0x4200000 ≤ a ∧ a < 0x4210000 ∧ a % 0x80 = 0x10 then counterValueWrite ((a - 0x4200000) / 0x80) true new w
      else if 0x4210000 ≤ a ∧ a < 0x4212000 ∧ a % 0x40 = 0 then
        w.maskWrite (decide (0x4211000 ≤ a)) (a % 0x1000 / 0x40) new
      else
        let w := w.setReg a new
        let w := if r.fields.any (fun f => f.staged && bits m f.pos.hi f.pos.lo != 0) then
          w.setFlag (cfgStateAddr (blockOf a)) F.bgCfgState_DIRTY true else w
        let w := match ctxRegOf a with
          | some (n, _) => if 0xC0 ≤ o % 0x400 then w.retestCore n else w
          | none => w
        if a = Addr.evtRaise ∧ m % 2 = 0 then w else w.effect a sub v old origin

/-! ## Decode -/

/-- Address `a` lies in a block that has no power (R48, Table ADR-1, Table SYS-2). -/
def unpowered (w : Chip) (a : Nat) : Bool :=
  if 0x4211000 ≤ a ∧ a < 0x4212000 then !w.switchedOn
  else if 0x4280000 ≤ a ∧ a < 0x4310000 then !w.switchedOn
  else if 0x5000000 ≤ a ∧ a < 0x6000000 then !w.coreUp ((a - 0x5000000) / 0x40000)
  else false

/-- What an access of `len` bytes at `a` reaches: 0 nothing, its size or alignment being refused (R42); 1 steward-private space
(R47); 2 an unpowered block (R48); 3 a reserved address (R45); 4 registers (R41, R43). -/
def devClass (w : Chip) (a len : Nat) : Nat :=
  if !((len == 4 || len == 8) && a % len == 0) then 0
  else if 0x6000000 ≤ a ∧ a < 0x6040000 then 1
  else if w.unpowered a then 2
  else if (regAt? a).isNone && (len == 4 || (regAt? (a + 4)).isNone) then 3
  else 4

/-- The requester code and chip number of DEC_LOG (Table ADR-9). -/
def srcCode (w : Chip) (src : DevSrc) : Nat × Nat :=
  match src with
  | .steward => (64, 255)
  | .pcie => (65, 255)
  | .qspi => (66, 255)
  | .remote id => (67, match w.msgRec? id with | some r => r.msg.srcChip | none => 255)

/-- An access that sets a flag of DEC_STATUS (R42, R45, R47 to R49): `kind` as in DEC_LOG. The first one while LOG_VALID is 0
is captured, and the steward journals it. -/
def decHit (w : Chip) (kind : Nat) (src : DevSrc) (write : Bool) (a : Nat) : Chip :=
  let w := match kind with
    | 1 => (w.setFlag Addr.decStatus F.decStatus_PRIV_WRITE true).bump Addr.decPrivCount
    | 2 => (w.setFlag Addr.decStatus F.decStatus_RSVD_ACCESS true).bump Addr.decRsvdCount
    | 3 => w.setFlag Addr.decStatus F.decStatus_SIZE_ERR true
    | _ => (w.setFlag Addr.decStatus F.decStatus_SLEEP_ACCESS true).bump Addr.decRsvdCount
  if w.flag Addr.decStatus F.decStatus_LOG_VALID then w
  else
    let (code, chip) := w.srcCode src
    let log := a % 2 ^ 32 + chip * 2 ^ 32 + kind * 2 ^ 40 + b2n write * 2 ^ 44 + code * 2 ^ 48
    ((w.setReg Addr.decLog log).setFlag Addr.decStatus F.decStatus_LOG_VALID true).notice
      { kind := 3, time := w.time, data := toLE 8 log }

/-- ORIGIN of a doorbell write (Table STW-5). -/
def originOf : DevSrc → Nat
  | .qspi => 1
  | .remote _ => 2
  | _ => 0

/-- The 4-byte word at `a`, or with `len` 8 the whole wide register there, read by `src`: its value and the machine after. -/
def readWord (w : Chip) (src : DevSrc) (a len : Nat) : Nat × Chip :=
  match regAt? a with
  | none => (0, w.decHit 2 src false a)
  | some (r, b, _) =>
    let sh := if wideReg r then 8 * (a % 8) else 0
    let m := (2 ^ (8 * len) - 1) * 2 ^ sh
    let (v, w) := w.readReg r b m
    (v / 2 ^ sh, w)

/-- The same for a write of `v`. -/
def writeWord (w : Chip) (src : DevSrc) (a len v : Nat) : Chip :=
  match regAt? a with
  | none => w.decHit 2 src true a
  | some (r, b, sub) =>
    let sh := if wideReg r then 8 * (a % 8) else 0
    w.writeReg r b sub ((2 ^ (8 * len) - 1) * 2 ^ sh) (v % 2 ^ (8 * len) * 2 ^ sh) (originOf src)

/-- An access that reaches registers takes 8 bytes at once. -/
def asOne (a len : Nat) : Bool := len == 8 && match regAt? a with | some (r, _, _) => wideReg r | none => false

/-- One device-region access (R39 to R49): its value, for a read, and the machine after. -/
def devAccess (w : Chip) (src : DevSrc) (a len : Nat) (write : Bool) (v : Nat) : Nat × Chip :=
  match w.devClass a len with
  | 0 => (0, w.decHit 3 src write a)
  | 1 => (0, if write then w.decHit 1 src true a else w)
  | 2 => (0, w.decHit 4 src write a)
  | 3 => (0, w.decHit 2 src write a)
  | _ =>
    if len = 4 || asOne a len then
      if write then (0, w.writeWord src a len v) else w.readWord src a len
    else if write then (0, (w.writeWord src a 4 (v % 2 ^ 32)).writeWord src (a + 4) 4 (v / 2 ^ 32))
    else
      let (lo, w) := w.readWord src a 4
      let (hi, w) := w.readWord src (a + 4) 4
      (lo + hi * 2 ^ 32, w)

/-! ## Requesters -/

/-- A memory request at the PCIe endpoint (R511, R515): none arrives while the link is down, and while Memory Space Enable is
0 each is answered Unsupported Request. -/
def pcieGate (w : Chip) (win off : Nat) (go : Chip → Chip) : Chip :=
  if !w.live || !w.pcie.linkUp || !w.pins.perstN then w
  else if !w.pcie.mse then w.transmit (.unsupported win off)
  else go w

/-- The access of an `acc` operand, if it is at hand: that of another chip's request is in the request, which must have
reached the hub in its turn. -/
def devAcc? (w : Chip) (acc : DevAcc) : Option DevAcc :=
  match acc.src with
  | .remote id =>
    match w.msgRec? id with
    | some r =>
      if w.hubTurn r && (r.msg.op == Op.read || r.msg.op == Op.write) && decide (0x4000000 ≤ r.msg.addr) &&
          decide (r.msg.addr < 0x8000000) then
        some { acc with addr := r.msg.addr, len := r.msg.len, write := r.msg.op == Op.write, value := leNat r.msg.data }
      else none
    | none => none
  | .pcie => if w.portClear false then some acc else none
  | .qspi => if w.portClear true then some acc else none
  | .steward => if w.stewardRuns then some acc else none

/-- Perform an access and give its answer to its requester: a completion, the bytes driven, the response. -/
def devServe (w : Chip) (x : DevAcc) : Chip :=
  let (v, w') := w.devAccess x.src x.addr x.len x.write x.value
  let d := toLE x.len v
  match x.src with
  | .remote id =>
    match w.msgRec? id with
    | some r => (w'.dropMsg id).answer .hub r.msg (if x.write then .writeAck else .readData) 0 0 (if x.write then [] else d)
    | none => w'
  | .pcie =>
    w.pcieGate 2 (x.addr - 0x4000000) fun _ =>
      if x.write then w' else w'.transmit (.completion 2 (x.addr - 0x4000000) d)
  | .qspi =>
    let w' := if w.devClass x.addr x.len = 0 then w'.setFlag Addr.qtStatus F.qtStatus_ERR true else w'
    if x.write then w' else { w' with io := { w'.io with qtOut := d } }
  | .steward => w'

/-- A row of the command table that performs device-region accesses: those of a class, and of a direction. -/
def devRow (w : Chip) (acc : DevAcc) (ok : Nat → Bool → Bool) : Chip :=
  match w.devAcc? acc with
  | some x =>
    if w.live && decide (0x4000000 ≤ x.addr) && decide (x.addr < 0x8000000) && ok (w.devClass x.addr x.len) x.write then
      w.devServe x
    else w
  | none => w

end Chip

/-- REGISTER_WRITE (R14, R53, R209): a write that reaches registers. -/
def execRegisterWrite (acc : DevAcc) (s : State) : Out := s.onChip fun w => w.devRow acc fun k wr => k == 4 && wr

/-- READ_TO_CLEAR_READ (R14): a read that reaches registers; RC fields it touches are cleared. A read of steward-private
space, which reads zero (R47), is made by this row too. -/
def execReadToClearRead (acc : DevAcc) (s : State) : Out :=
  s.onChip fun w => w.devRow acc fun k wr => (k == 4 || k == 1) && !wr

/-- SIZE_ERR_ACCESS (R42). -/
def execSizeErrAccess (acc : DevAcc) (s : State) : Out := s.onChip fun w => w.devRow acc fun k _ => k == 0

/-- RSVD_ACCESS (R45). -/
def execRsvdAccess (acc : DevAcc) (s : State) : Out := s.onChip fun w => w.devRow acc fun k _ => k == 3

/-- PRIV_WRITE (R47). -/
def execPrivWrite (acc : DevAcc) (s : State) : Out := s.onChip fun w => w.devRow acc fun k wr => k == 1 && wr

/-- SLEEP_ACCESS (R48). -/
def execSleepAccess (acc : DevAcc) (s : State) : Out := s.onChip fun w => w.devRow acc fun k _ => k == 2

end Sys2Proof.Machine
end

