-- ==== Sys2Proof/Machine/Host.lean ====
section
/-! DEFINITION. The PCIe endpoint as a completer (R506 to R515) and the QSPI target (R516 to R522): windows and apertures,
MSI-X vectors, the link, and frames. -/

namespace Sys2Proof.Machine

namespace Chip

/-- The state of the endpoint's INT inputs lets vector `v` send its pending message (R513). -/
def flushVec (w : Chip) (v : Nat) : Chip :=
  if spGet (fun _ => false) w.pcie.pba v && w.tgtInt (v + 65) && w.vecOpen v then
    ({ w with pcie := { w.pcie with pba := spPut (fun _ => false) w.pcie.pba v false } } : Chip).transmit (.msix v)
  else w
def flushVecs (w : Chip) : Chip := (List.range 64).foldl (fun (w : Chip) v => w.flushVec v) w

/-- The pending bits of vectors whose INT is 1 (R515). -/
def pendingInts (w : Chip) : Table Bool :=
  (List.range 64).foldl (fun t v =>
    if w.tgtInt (v + 65) && w.cfg (Addr.tgtCfg (v + 65)) F.tgtCfg_IRQ == 0 then spPut (fun _ => false) t v true else t) []

/-- The endpoint alone is reset (R515): its configuration and MSI-X table, every vector masked; host reads in progress fail
with DETAIL LINK_DOWN, and what the host has asked is answered no more. -/
def endpointReset (w : Chip) : Chip :=
  let ids := w.pcie.reads.map fun p => p.2.acc
  let w := { w with
    pcie := { tx := w.pcie.tx, pba := w.pendingInts }
    io := { w.io with hostReqs := w.io.hostReqs.filter fun (p : Nat × HostReq) => p.2.qspi || p.2.write } }
  ids.eraseDups.foldl (fun (w : Chip) id => w.failAcc id 0x0E 0x425) w

/-- IRQ_N is low: some host target with IRQ = 1 has INT = 1 (R368). -/
def irqLow (w : Chip) : Bool :=
  (List.range 64).any fun v => w.tgtInt (v + 65) && w.cfg (Addr.tgtCfg (v + 65)) F.tgtCfg_IRQ == 1

/-- Open the record of a host access of `parts` accesses. -/
def openReq (w : Chip) (r : HostReq) : Chip :=
  ({ w with io := { w.io with hostReqs := spInsert w.io.hostReqs w.nextId r } } : Chip).bumpId

/-- The runs of enabled bytes of a write: position and length. -/
def enRuns : List Bool → Nat → List (Nat × Nat)
  | [], _ => []
  | false :: r, i => enRuns r (i + 1)
  | true :: r, i =>
    match enRuns r (i + 1) with
    | (p, n) :: t => if p = i + 1 then (i, n + 1) :: t else (i, 1) :: (p, n) :: t
    | [] => [(i, 1)]

/-- A host access to the LM of this chip, as DMR or DMW of the core that owns it (R508): refused while the core has no
power (R111). -/
def hostLm (w : Chip) (r : HostReq) (data : List Byte) (en : List Bool) : Chip :=
  let n := r.addr / 0x100000
  let off := r.addr % 0x100000
  let tag := w.nextId
  if !w.coreUp n then w.hostDone { r with fault := 0x0A }
  else if r.write then
    let runs := enRuns (en.take data.length) 0
    if runs.isEmpty then w
    else runs.foldl (fun (w : Chip) p => w.localAcc (.host tag) n n 8 .wr (off + p.1) p.2 (slice data p.1 p.2))
      (w.openReq { r with left := runs.length })
  else (w.openReq { r with left := 1, data := List.replicate data.length 0 }).localAcc (.host tag) n n 7 .rd off data.length []

/-- A request of `len` bytes that one PCIe request may make (1 to 4,096 bytes, in one 4 KiB block). -/
def tlpOk (off len : Nat) : Bool := decide (1 ≤ len) && decide (off % 4096 + len ≤ 4096)

end Chip

open Chip

/-! ## Windows -/

/-- WINDOW_0_ACCESS (Table HIO-2, R507, R509, R513): the mailbox block, the MSI-X table and the pending bit array. -/
def window0Access (write : Bool) (off len v : Nat) (w : Chip) : Chip :=
  let a := 0x4240000 + off
  let fits := (len == 4 || len == 8) && off % len == 0
  if 0x10000 < off + len || !w.portClear false then w
  else w.pcieGate 0 off fun w =>
    if 0x8000 ≤ off ∧ off < 0xA000 then
      if !fits then
        let w := w.decHit 3 .pcie write a
        if write then w else w.transmit (.completion 0 off (toLE len 0))
      else if off < 0x8400 then
        let k := (off - 0x8000) / 4
        let rd (i : Nat) : Nat := spGet (fun k => if k % 4 = 3 then 1 else 0) w.pcie.vectors i
        let put (w : Chip) (i x : Nat) : Chip := { w with pcie := { w.pcie with
          vectors := spPut (fun k => if k % 4 = 3 then 1 else 0) w.pcie.vectors i
            (match i % 4 with | 0 => x / 4 * 4 | 3 => x % 2 | _ => x) } }
        if write then
          let w := put w k (v % 2 ^ 32)
          let w := if len = 8 then put w (k + 1) (v / 2 ^ 32 % 2 ^ 32) else w
          w.flushVec (k / 4)
        else w.transmit (.completion 0 off (toLE len (rd k + rd (k + 1) * 2 ^ 32)))
      else if 0x9000 ≤ off ∧ off < 0x9008 then
        let p := ((List.range 64).map fun i => b2n (spGet (fun _ => false) w.pcie.pba i) * 2 ^ i).sum
        if write then w else w.transmit (.completion 0 off (toLE len (p / 2 ^ (8 * (off % 8)))))
      else if write then w else w.transmit (.completion 0 off (toLE len 0))
    else
      let (x, w) := w.devAccess .pcie a len write v
      if write then w else w.transmit (.completion 0 off (toLE len x))
def execWindow0Access (write : Bool) (off len value : Nat) (s : State) : Out := s.onChip (window0Access write off len value)

/-- LM_APERTURE_ACCESS (R508, R510): `data` gives the length of a read, and with its byte enables what is written. -/
def lmApertureAccess (write : Bool) (off : Nat) (data : List Byte) (en : List Bool) (w : Chip) : Chip :=
  if !tlpOk off data.length || decide (0x4000000 ≤ off) || !w.portClear false then w
  else w.pcieGate 4 off fun w =>
    w.hostLm { qspi := false, window := 4, off := off, addr := off, write := write, left := 0 } data en
def execLmApertureAccess (write : Bool) (off : Nat) (data : List Byte) (en : List Bool) (s : State) : Out :=
  s.onChip (lmApertureAccess write off data en)

/-- POD_APERTURE_ACCESS (R34 to R37, R46, R509, R510): `off` is the chip address, Window 4 offset 0x1_0000_0000 + `off`. LM is
reached as a remote access, that of this chip one 64-byte line a request, the device region of this chip directly and that of
another chip by a request to it. -/
def podApertureAccess (write : Bool) (off : Nat) (data : List Byte) (w : Chip) : Chip :=
  let len := data.length
  let win := off + 2 ^ 32
  if !tlpOk off len || decide (2 ^ 32 ≤ off) || !w.portClear false then w
  else w.pcieGate 4 win fun w =>
    let chip := w.fld Addr.apt F.apt_CHIP
    let r : HostReq := { qspi := false, window := 4, off := win, addr := off, write := write, left := 1,
                         data := if write then [] else List.replicate len 0 }
    if 0x8000000 ≤ off then
      let w := w.decHit 2 .pcie write off
      if write then w else w.transmit (.completion 4 win (toLE len 0))
    else if off < 0x4000000 then
      let tag := w.nextId
      let ps := if w.isSelf chip then pieces 64 (len / 64 + 2) off len 0 else [(off, len, 0)]
      ps.foldl (fun (w : Chip) p => w.hubAccess (.host tag) 12 0 chip p.1 (if write then .wr else .rd) p.2.1 (slice data p.2.2 p.2.1))
        (w.openReq { r with left := ps.length })
    else if w.isSelf chip then
      let (x, w) := w.devAccess .pcie off len write (leNat data)
      if write then w else w.transmit (.completion 4 win (toLE len x))
    else if !w.reachable chip then w.hostDone { r with fault := 0x0B }
    else
      let w := w.openReq r
      let id := w.nextId
      let w := (w.setAcc id { owner := .host (id - 1), remote := true, kind := if write then .wr else .rd, chip := chip,
                              addr := off, len := len, data := if write then data else List.replicate len 0, parts := 1,
                              born := w.time }).bumpId
      w.send .hub .hub 1 { op := if write then .write else .read, dstChip := chip, srcUnit := 12, addr := off, len := len,
                           data := if write then data else [], acc := id, uncached := true }
def execPodApertureAccess (write : Bool) (off : Nat) (data : List Byte) (s : State) : Out :=
  s.onChip (podApertureAccess write off data)

/-! ## Vectors, power state, link -/

/-- MSI_X_UNMASK (R513): the host clears the mask bit of a vector through Window 0. -/
def msiXUnmask (v : Nat) (w : Chip) : Chip :=
  if 64 ≤ v || !w.portClear false then w
  else w.pcieGate 0 (0x8000 + 16 * v + 12) fun w =>
    ({ w with pcie := { w.pcie with
        vectors := spPut (fun k => if k % 4 = 3 then 1 else 0) w.pcie.vectors (4 * v + 3) 0 } } : Chip).flushVec v
def execMsiXUnmask (vec : Nat) (s : State) : Out := s.onChip (msiXUnmask vec)

/-- PCIE_D3HOT_ENTRY (R512). -/
def execPcieD3hotEntry (s : State) : Out :=
  s.onChip fun w => if w.live && w.pcie.linkUp then { w with pcie := { w.pcie with d3 := true } } else w

/-- PERST_N_ASSERT (R515). -/
def perstNAssert (w : Chip) : Chip :=
  if !w.pins.perstN then w
  else
    let w := { w with pins := { w.pins with perstN := false } }
    if w.live then (w.setFlag Addr.hostStatus F.hostStatus_PERST true).endpointReset else w
def execPerstNAssert (s : State) : Out := s.onChip perstNAssert

/-- PCIE_LINK_DOWN (R515): the link is lost. -/
def pcieLinkDown (w : Chip) : Chip :=
  if w.live && w.pcie.linkUp then (w.setFlag Addr.hostStatus F.hostStatus_LINK_DOWN true).endpointReset else w
def execPcieLinkDown (s : State) : Out := s.onChip pcieLinkDown

/-- PCIE_LINK_UP (R506, R542): the link is trained at a speed (1 to 5: 2.5 to 32 GT/s) and width; PERST_N is high. -/
def pcieLinkUp (speed width : Nat) (w : Chip) : Chip :=
  if w.live && !w.pcie.linkUp && decide (1 ≤ speed) && decide (speed ≤ 5) && [1, 2, 4, 8].contains width then
    { w with pins := { w.pins with perstN := true }, pcie := { w.pcie with linkUp := true, speed := speed, width := width } }
  else w
def execPcieLinkUp (speed width : Nat) (s : State) : Out := s.onChip (pcieLinkUp speed width)

/-- PCIE_CONFIG_WRITE (R327, R511 to R513): the configuration item written: 0 Bus Master Enable, 1 Memory Space Enable, 2 the
Function Mask, 3 the return from D3hot to D0, 4 MSI-X Enable, 5 to 7 the bases of Windows 0, 2 and 4, 8 the maximum payload
size and 9 the maximum read request size, as the power of two times 128 bytes that they are (Table HIO-1; log entry 33). -/
def pcieConfigWrite (item v : Nat) (w : Chip) : Chip :=
  if !w.live || !w.pcie.linkUp || !w.pins.perstN then w
  else
    let b := v % 2 == 1
    let p := w.pcie
    let p : Pcie := match item with
      | 0 => { p with bme := b }
      | 1 => { p with mse := b }
      | 2 => { p with funcMask := b }
      | 3 => { p with d3 := false }
      | 4 => { p with msixEn := b }
      | 5 => { p with bar0 := some (v % 2 ^ 64 / 0x10000 * 0x10000) }
      | 6 => { p with bar2 := some (v % 2 ^ 64 / 0x4000000 * 0x4000000) }
      | 7 => { p with bar4 := some (v % 2 ^ 64 / 0x200000000 * 0x200000000) }
      | 8 => if v ≤ 2 then { p with maxPayload := 128 * 2 ^ v } else p
      | 9 => if v ≤ 5 then { p with maxRead := 128 * 2 ^ v } else p
      | _ => p
    ({ w with pcie := p } : Chip).flushVecs
def execPcieConfigWrite (item value : Nat) (s : State) : Out := s.onChip (pcieConfigWrite item value)

/-! ## QSPI target -/

/-- The LM part of READ frame `tag`: a DMR access to each quarter (R508, R520), refused at once while the core that owns it has
no power (R111). -/
def qtLm (w : Chip) (tag : Nat) (r : HostReq) (ps : List (Nat × Nat × Nat)) : Chip :=
  ps.foldl (fun (w : Chip) p =>
    let n := p.1 / 0x100000
    if w.coreUp n then w.localAcc (.host tag) n n 7 .rd (p.1 % 0x100000) p.2.1 []
    else w.hostErr { r with addr := p.1 } 0x0A) w

/-- One piece of a READ frame in the device region (R520): 4 or 8 bytes at once, the first of them at `a`; bytes that are not
at a word boundary read as zero and are refused. -/
def qtDev (w : Chip) (a n : Nat) : List Byte × Chip :=
  let wide := w.flag Addr.qtCfg F.qtCfg_WIDE && a % 8 == 0
  if a % 4 != 0 then
    let k := min n (4 - a % 4)
    (List.replicate k 0, (w.decHit 3 .qspi false a).setFlag Addr.qtStatus F.qtStatus_ERR true)
  else
    let l := if wide then 8 else 4
    let (v, w) := w.devAccess .qspi a l false 0
    ((toLE l v).take n, w)

/-- The bytes of a READ frame from `a` on, outside the LMs. -/
def qtFetch : Nat → Chip → Nat → Nat → List Byte × Chip
  | 0, w, _, _ => ([], w)
  | k + 1, w, a, n =>
    if n = 0 then ([], w)
    else
      let (d, w) :=
        if a < 0x8000000 then qtDev w a n
        else (List.replicate n 0xFF, w.hostErr { qspi := true, window := 0, off := 0, addr := a, write := false, left := 0 } 2)
      let (r, w) := qtFetch k w (a + d.length) (n - d.length)
      (d ++ r, w)

/-- No frame of the QSPI target is in progress (R521; log entry 51). -/
def Chip.qtClear (w : Chip) : Bool := w.io.hostReqs.all fun p => !p.2.qspi

/-- QSPI_READ (R516, R519 to R521): a frame of `bytes` data bytes; those whose positions are in `late` were not there in
time. The frame ends once its LM accesses are done. -/
def qspiRead (addr bytes : Nat) (late : List Nat) (w : Chip) : Chip :=
  if !w.live || !w.qtClear then w
  else
    let a := addr % 2 ^ 32
    let n := min bytes (0x4000000 - a)
    let ps := pieces 8 (n / 8 + 2) a n 0
    let r : HostReq := { qspi := true, window := 0, off := 0, addr := a, write := false, late := late,
                         left := (ps.filter fun p => w.coreUp (p.1 / 0x100000)).length }
    let tag := w.nextId
    let w := qtLm w.bumpId tag r ps
    let (d, w) := qtFetch (bytes - n) w (a + n) (bytes - n)
    let r := { r with data := List.replicate n 0xFF ++ d }
    if r.left = 0 then w.qtDone r else { w with io := { w.io with hostReqs := spInsert w.io.hostReqs tag r } }
def execQspiRead (addr bytes : Nat) (late : List Nat) (s : State) : Out := s.onChip (qspiRead addr bytes late)

/-- The device-region part of a WRITE frame (R520, R522). -/
def qtStore : Nat → Chip → Nat → List Byte → Chip
  | 0, w, _, _ => w
  | k + 1, w, a, d =>
    if d.isEmpty then w
    else
      let bad (w : Chip) : Chip := (w.decHit 3 .qspi true a).setFlag Addr.qtStatus F.qtStatus_ERR true
      if a % 4 != 0 then
        let l := min d.length (4 - a % 4)
        qtStore k (bad w) (a + l) (d.drop l)
      else if d.length < 4 then bad w
      else if w.flag Addr.qtCfg F.qtCfg_WIDE && a % 8 == 0 && decide (8 ≤ d.length) then
        qtStore k (w.devAccess .qspi a 8 true (leNat (d.take 8))).2 (a + 8) (d.drop 8)
      else qtStore k (w.devAccess .qspi a 4 true (leNat (d.take 4))).2 (a + 4) (d.drop 4)

/-- The LM part of a WRITE frame: one access per core (R508, R520). -/
def qtLmWrites : Nat → Chip → Nat → List Byte → Chip
  | 0, w, _, _ => w
  | k + 1, w, a, d =>
    if d.isEmpty then w
    else
      let l := min d.length (0x100000 - a % 0x100000)
      let x := d.take l
      qtLmWrites k (w.hostLm { qspi := true, window := 0, off := 0, addr := a, write := true, left := 0 } x
        (List.replicate l true)) (a + l) (d.drop l)

/-- QSPI_WRITE (R516, R520 to R522). -/
def qspiWrite (addr : Nat) (data : List Byte) (w : Chip) : Chip :=
  let a := addr % 2 ^ 32
  if !w.live || !w.qtClear then w
  else
    let lm := data.take (0x4000000 - a)
    let w := qtLmWrites 64 w a lm
    let b := a + lm.length
    let dev := (data.drop lm.length).take (0x8000000 - b)
    let w := qtStore (dev.length + 1) w b dev
    if dev.length + lm.length < data.length then
      w.hostErr { qspi := true, window := 0, off := 0, addr := b + dev.length, write := true, left := 0 } 2
    else w
def execQspiWrite (addr : Nat) (data : List Byte) (s : State) : Out := s.onChip (qspiWrite addr data)

/-- QSPI_READ_STATUS (Table HIO-3): the status byte. -/
def qspiReadStatus (w : Chip) : Chip :=
  if !w.live then w
  else
    let b := b2n (w.io.hostReqs.any fun p => p.2.qspi && p.2.write) + b2n (w.flag Addr.qtStatus F.qtStatus_UNDERRUN) * 2 +
      b2n (w.flag Addr.qtStatus F.qtStatus_ERR) * 4 + b2n w.irqLow * 8 + b2n (w.flag Addr.stwStatus F.stwStatus_READY) * 16
    { w with io := { w.io with qtOut := [BitVec.ofNat 8 b] } }
def execQspiReadStatus (s : State) : Out := s.onChip qspiReadStatus

/-- QSPI_SET_LINES (R517, R518). -/
def qspiSetLines (v : Nat) (w : Chip) : Chip :=
  if !w.live then w
  else if v = 1 ∨ v = 2 ∨ v = 4 then w.setFld Addr.qtCfg F.qtCfg_LINES v
  else w.setFlag Addr.qtStatus F.qtStatus_CMD_ERR true
def execQspiSetLines (value : Nat) (s : State) : Out := s.onChip (qspiSetLines value)

/-- QSPI_INVALID_COMMAND (R517): a frame whose command byte is none of Table HIO-3. -/
def qspiInvalidCommand (cmd : Nat) (w : Chip) : Chip :=
  if w.live && !(([0x0B, 0x02, 0x05, 0x31] : List Nat).contains (cmd % 256)) then w.setFlag Addr.qtStatus F.qtStatus_CMD_ERR true else w
def execQspiInvalidCommand (cmd : Nat) (s : State) : Out := s.onChip (qspiInvalidCommand cmd)

end Sys2Proof.Machine
end

