-- ==== Sys2Proof/Machine/FwChip.lean ====
section
/-! DEFINITION. The mailbox commands on the chip as a whole (17_firmware_commands.md): information and reset, power and Sleep,
monitors, the journal, the watchdog, the audio ports, and the update of the boot flash. Each is one step of the command in
progress on a channel. -/

namespace Sys2Proof.Machine

open Chip

/-! ## Information and reset (Table FWC-2) -/

/-- GET_INFO. -/
def getInfo (c : Nat) (w : Chip) : Chip :=
  w.fw c 0x01 fun _ =>
    let src := w.fld Addr.stwStatus F.stwStatus_BOOT_SRC + w.fld Addr.stwStatus F.stwStatus_SLOT * 2 ^ 8
    let count := match w.stw.image with | some i => i.count | none => 0
    w.fwEnd c 0 [ownSerial, w.rd Addr.stwVersion % 2 ^ 40 + 0xB0 * 2 ^ 40 + b2n Config.industrial * 2 ^ 48,
      64 + 4 * 2 ^ 8 + 16384 * 2 ^ 16 + 512 * 2 ^ 32, src + count % 2 ^ 32 * 2 ^ 32, w.time]
def execGetInfo (chan : Nat) (s : State) : Out := s.onChip (getInfo chan)

/-- GET_STATUS. -/
def getStatus (c : Nat) (w : Chip) : Chip :=
  w.fw c 0x02 fun _ =>
    w.fwEnd c 0 [w.phase + w.fld Addr.podState F.podState_STATE * 2 ^ 8 + b2n (w.pstate == 2) * 2 ^ 10 +
        w.fld Addr.podState F.podState_TB_LOCKED * 2 ^ 11 + w.chipNum?.getD 0xFF * 2 ^ 16 + w.epoch * 2 ^ 24,
      w.rd Addr.corePwr,
      w.railMv 0 % 2 ^ 16 + w.railMv 1 % 2 ^ 16 * 2 ^ 16 + w.fld Addr.tj F.tj_MAX * 2 ^ 32 + w.fld Addr.spx F.spx_CORE * 2 ^ 48,
      w.jrnl.next % 2 ^ 32 + w.wdLeft * 2 ^ 32,
      ((List.range 8).map fun p => w.lState p * 2 ^ (4 * p)).sum, w.time]
def execGetStatus (chan : Nat) (s : State) : Out := s.onChip (getStatus chan)

/-- RESET_CHIP (R482, R58): its record is kept as completed with OK, POSTED commands are discarded, and the chip resets. In
Sleep the chip is woken first, unless a trip still bars that (log entry 19). -/
def resetChip (c : Nat) (w : Chip) : Chip :=
  w.fw c 0x03 fun m =>
    if w.pstate = 2 then (if w.wakeBarred then w else w.beginWake)
    else if w.pstate = 3 then w
    else (w.keepRsp c (rspOf m 0 [])).chipReset 3
def execResetChip (chan : Nat) (s : State) : Out := s.onChip (resetChip chan)

/-! ## Power (Table FWC-9) -/

/-- POWER_SET (R497, R557): the setpoints are written, and the command ends once each new fixed setpoint is measured and
adaptive control, if asked for, has taken its first step. -/
def powerSet (c : Nat) (w : Chip) : Chip :=
  w.fw c 0x90 fun m =>
    let v := Addr.vcoreStatus
    let mv := rf m 1 15 0
    let ms := rf m 1 31 16
    let ad := rb m 1 32
    if m.phase = 0 then
      let w := if mv = 0 then w else w.setFld v F.vcoreStatus_REQ_MV mv
      let w := w.setFlag v F.vcoreStatus_ADAPT ad
      let w := if ad then
          { w.setFld v F.vcoreStatus_SPX_TARGET (rf m 1 47 40) with pwr := { w.pwr with spxMin := none, stepAt := w.time } }
        else w
      let w := if ms = 0 then w else w.setFld v F.vcoreStatus_VSEPAL_MV ms
      w.setCmd c { m with phase := 1, mark := w.time }
    else if (if ad then decide (m.mark < w.pwr.stepAt) else mv == 0 || w.railNear 0 mv) && (ms == 0 || w.railNear 1 ms) then
      w.fwEnd c 0 [w.railMv 0 % 2 ^ 16 + w.railMv 1 % 2 ^ 16 * 2 ^ 16 + w.fld Addr.spx F.spx_CORE * 2 ^ 32]
    else w
def execPowerSet (chan : Nat) (s : State) : Out := s.onChip (powerSet chan)

/-- The ports of a mask. -/
def portsOf (mask : Nat) : List Nat := (List.range 8).filter fun p => bit mask p

/-- The chip tells the root that it leaves (R439). -/
def Chip.sendLeave (w : Chip) : Chip :=
  match w.parentPort? with
  | some p => w.sendLocal p .podMgmt 6 0 (.leave ownSerial)
  | none => w

/-- The LEAVE of this chip has crossed its link, or the link is gone. -/
def Chip.leaveGone (w : Chip) : Bool :=
  (w.net.msgs.all fun p => p.2.msg.mgmt != some (.leave ownSerial)) &&
    match w.parentPort? with
    | some p => !isUp (w.lState p) || ((w.lp p).txq.isNone && (w.lp p).unacked.isEmpty)
    | none => true

/-- Work in progress on cores `ns` is complete: no engine, channel or access of theirs is busy (R564). -/
def Chip.coresQuiet (w : Chip) (ns : List Nat) : Bool :=
  (w.accs.all fun p => p.2.done || !accOfCores ns p.2) &&
  ns.all fun n => (w.mxOf n).queue.isEmpty && (w.mxOf n).runs.isEmpty && (w.vxOf n).isNone &&
    (List.range 4).all fun h => (w.chan n h).txns.isEmpty && (w.slot n h).outs.isEmpty

/-- The RLCs of cores `fl` are flushed and the groups of cores `ns` swept (R132). -/
def Chip.flushAndSweep (w : Chip) (fl ns : List Nat) : Chip :=
  let w := fl.foldl (fun (w : Chip) n => rlcFlush n w) w
  ns.foldl (fun (w : Chip) n => [0, 1, 2, 3].foldl (fun (w : Chip) g => w.sweepGroup n g) w) w

/-- No access that the remote ports of cores `ns` have admitted is still to be performed and answered (R112). -/
def Chip.allServed (w : Chip) (ns : List Nat) : Bool :=
  w.net.msgs.all fun p => !((p.2.stage == .admitted || p.2.stage == .serving) &&
    (match p.2.dst with | .core h => ns.contains h | _ => false))

/-- That flush and sweep are over, and no coherence message of theirs is on its way. -/
def Chip.flushedAndSwept (w : Chip) (fl ns : List Nat) : Bool :=
  fl.all (fun n => !w.flag (Addr.rlcStatus n) F.rlcStatus_FLUSHING) &&
  ns.all (fun n => !w.flag (Addr.sfStatus n) F.sfStatus_SWEEP) &&
  let of (x : Place) : Bool := match x with | .core n => fl.contains n | _ => false
  w.net.msgs.all fun p => !(isCoherence p.2.msg && (of p.2.src || of p.2.dst))

/-- SLEEP_ENTER (R498, R564, R569): leave the pod, drain cores 1 to 63, flush and sweep, enter Sleep. An entry that a TIMEOUT
left under way is taken up again (log entry 47). -/
def sleepEnter (c : Nat) (w : Chip) : Chip :=
  w.fw c 0x91 fun m =>
    match m.phase with
    | 0 =>
      if w.pstate = 2 then w.fwEnd c 0 [w.rd Addr.lastSleepTime]
      else if w.pstate ≤ 1 then ((w.setPstate 1).sendLeave).fwPhase c m 1
      else w
    | 1 =>
      if !w.leaveGone then w
      else
        let w := (List.range 8).foldl (fun (w : Chip) p => lnkDisableWrite p true w) w
        let w := w.becomeAlone
        { { w with goingDown := [] }.beginDown cores1 with pwr := { w.pwr with drainAt := some w.time, drained := false } }.fwPhase c m 2
    | 2 =>
      if w.pwr.drained || w.coresQuiet cores1 then
        (((w.abandon cores1).flushAndSweep (0 :: cores1) cores1)).fwPhase c m 3
      else w
    | _ =>
      if w.flushedAndSwept (0 :: cores1) cores1 && (w.pwr.drained || w.allServed cores1) then w.enterSleep false (rf m 1 15 0)
      else w
def execSleepEnter (chan : Nat) (s : State) : Out := s.onChip (sleepEnter chan)

/-- The cores of a mask. -/
def coresOf (mask : Nat) : List Nat := (List.range 64).filter fun n => bit mask n

/-- CORE_POWER (R499): down under R112 and R132, up with LM zero and the recorded configuration (R87, R480), and the Bloom
lines tested again (R278). -/
def corePower (c : Nat) (b : Both) : Both :=
  let w := b.2
  let up (m : MbxCmd) : Bool := rb m 2 0
  match w.cmd? c with
  | none => b
  | some m =>
    if up m then
      let ns := (coresOf (reqw m 1)).filter fun n => !w.coreUp n
      let go : Chip := w.fw c 0x92 fun _ =>
        let w := w.setReg Addr.corePwr (Nat.lor (w.rd Addr.corePwr) (reqw m 1))
        let w := w.restoreRecord fun a => decide (0x5000000 ≤ a) && ns.contains ((a - 0x5000000) / 0x40000)
        let w := w.bloomRetest
        w.fwEnd c 0 [w.rd Addr.corePwr]
      if w.ready && cmdCode m == 0x92 && m.result.isNone then (zeroLm b.1 ns, go.cleanEcc ns) else b
    else (b.1, w.fw c 0x92 fun m =>
      let ns := (coresOf (reqw m 1)).filter fun n => w.coreUp n
      w.fwCheck c m (fun w => if ns.any (fun n => (List.range 4).any fun i =>
          w.slotState n i != slEmpty || w.chState n i != 0) then some 3 else none) fun w m =>
        if m.phase = 1 then
          ((w.flushAndSweep ns ns).beginDown ns).fwPhase c m 2
        else if w.flushedAndSwept ns ns && w.allServed ns then
          let w := (w.gateOff ns).setReg Addr.corePwr (maskOf 64 fun n => w.coreUp n && !ns.contains n)
          w.fwEnd c 0 [w.rd Addr.corePwr]
        else w)
def execCorePower (chan : Nat) (s : State) : Out :=
  let r := corePower chan (s.mem, s.w)
  .next { s with mem := r.1, w := r.2 }

/-! ## Monitors (Table FWC-10) -/

/-- MONITOR_CONFIG (R500): the unit's configuration is committed; ALARM_EN stays as it is. -/
def monitorConfig (c : Nat) (w : Chip) : Chip :=
  w.fw c 0xA0 fun m => w.fwCommit c m .iris 0
    (fun w =>
      let u := rf m 1 4 0
      let a := Addr.irisCfg u
      let v := rf m 1 8 8 + rf m 1 23 16 * 2 ^ 8 + rf m 1 24 24 * 2 ^ 16 + rf m 1 29 25 * 2 ^ 17 +
        w.fld a F.irisCfg_ALARM_EN * 2 ^ 24
      (w.stageReg .iris a v).stageReg .iris (Addr.irisSelect u) (reqw m 2))
    fun w _ => w.fwEnd c 0 [w.fld Addr.irisCfgState F.irisCfgState_GEN]
def execMonitorConfig (chan : Nat) (s : State) : Out := s.onChip (monitorConfig chan)

/-- The record of an Iris unit's snapshot (R500). -/
def Chip.irisRecord (w : Chip) (u : Nat) : List Byte :=
  toLE 8 (u + w.cfg (Addr.irisCfg u) F.irisCfg_PROBE * 2 ^ 8) ++ toLE 8 (w.rd (Addr.irisMin u)) ++ toLE 8 (w.rd (Addr.irisMax u)) ++
    toLE 8 (w.rd (Addr.irisCount u)) ++ toLE 8 (w.rd (Addr.irisSum u)) ++
    (List.range 32).flatMap fun i => toLE 4 (w.rd (Addr.irisBin u i))

/-- MONITOR_READ (R500, R583): one snapshot of the units named, returned in words or as bulk records. -/
def monitorRead (c : Nat) (w : Chip) : Chip :=
  w.fw c 0xA1 fun m =>
    let us := (List.range 32).filter fun u => rb m 1 u
    let bout := rb m 0 41
    w.fwCheck c m (fun w =>
        if bout && decide (rf m 2 23 0 < 168 * us.length) then some 4 else w.bulkStatus c m 0 (rf m 2 23 0)) fun w m =>
      let a := Addr.irisSnap
      if m.phase = 1 then
        if w.flag a F.irisSnap_BUSY then w
        else (irisSnapGo (w.setReg a (rf m 1 32 0))).fwPhase c m 2
      else if w.flag a F.irisSnap_BUSY && m.phase == 2 then w
      else if !bout then
        let u := us.headD 0
        w.fwEnd c 0 [w.rd (Addr.irisMin u), w.rd (Addr.irisMax u), w.rd (Addr.irisCount u), w.rd (Addr.irisSum u),
          w.rd Addr.irisSnapTime]
      else
        let m := if m.phase = 2 then { m with phase := 3, obj := w.rd Addr.irisSnapTime, data := us.flatMap w.irisRecord } else m
        w.fwOutput c m 3 fun w m => w.fwEnd c 0 [m.mark, 0, 0, 0, m.obj]
def execMonitorRead (chan : Nat) (s : State) : Out := s.onChip (monitorRead chan)

/-! ## The journal and the watchdog (Table FWC-11) -/

/-- FAULT_LOG_READ (R501): whole entries in number order into the bulk output queue. -/
def faultLogRead (c : Nat) (w : Chip) : Chip :=
  w.fw c 0xC0 fun m =>
    let max := rf m 1 55 32
    w.fwCheck c m (fun w => w.bulkStatus c m 0 max) fun w m =>
      let m := if m.phase = 1 then
          let es := (w.jrnl.entries.filter fun e => decide (w.jrnl.oldest ≤ e.1) && decide (rf m 1 31 0 ≤ e.1 % 2 ^ 32)).take (max / 64)
          { m with phase := 2, data := es.flatMap fun e => journalBytes e.1 e.2
                   aux := [w.jrnl.oldest % 2 ^ 32 + w.jrnl.next % 2 ^ 32 * 2 ^ 32,
                           es.length + w.stw.overwritten % 2 ^ 32 * 2 ^ 32, 64 * es.length] }
        else m
      w.fwOutput c m 2 fun w m => w.fwEnd c 0 m.aux
def execFaultLogRead (chan : Nat) (s : State) : Out := s.onChip (faultLogRead chan)

/-- FAULT_LOG_CLEAR (R502): the erase of the journal sector starts, and the entries go while the count stays; it ends, and what
arose meanwhile is written. -/
def faultLogClear (c : Nat) (w : Chip) : Chip :=
  w.fw c 0xC1 fun m =>
    if m.phase = 0 then
      ({ w with jrnl := { w.jrnl with entries := [], oldest := w.jrnl.next, erasing := some [] }
                stw := { w.stw with overwritten := 0 } } : Chip).fwPhase c m 1
    else
      let w := w.journalErased
      w.fwEnd c 0 [w.jrnl.next % 2 ^ 32]
def execFaultLogClear (chan : Nat) (s : State) : Out := s.onChip (faultLogClear chan)

/-- WATCHDOG_SET (R503, R587): the period, who feeds, and a feed. -/
def watchdogSet (c : Nat) (w : Chip) : Chip :=
  w.fw c 0xF0 fun m =>
    let a := Addr.wdCfg
    let p := rf m 1 31 0
    let w := if p = 0 then w else w.setFld a F.wdCfg_PERIOD_MS p
    let w := w.setFlag a F.wdCfg_HOST_FEED (rb m 1 32)
    let w := if rb m 1 33 then { w with wd := { w.wd with fedAt := w.time } } else w
    w.fwEnd c 0 [w.wdLeft]
def execWatchdogSet (chan : Nat) (s : State) : Out := s.onChip (watchdogSet chan)

/-! ## Audio (R504) -/

/-- The rules of R524 and R535 on the state of the chip: the buffers lie in Shared groups of core 0, and SIG_CTR is in SAT
mode. -/
def Chip.audioState (w : Chip) (m : MbxCmd) : Option Nat :=
  let c1 := reqw m 3
  let c2 := reqw m 4
  let pdm : Bool := rf m 1 1 0 == 2
  let base := bits (reqw m 2) 19 0
  let sh (a : Nat) : Bool := w.cfg (Addr.bgMode 0 (lmGroup a)) F.bgMode_SHARED == 1
  if w.fld (Addr.ccCfg (bits (reqw m 2) 56 48)) F.ccCfg_MODE != 0 || ((pdm || bits c1 47 32 != 0) && !sh base) ||
      (!pdm && bits c1 63 48 != 0 && !sh (c2 % 2 ^ 20)) then some 3 else none

/-- AUDIO_CONFIG (R504, R528, R535): the port's registers are committed at its next frame boundary. -/
def audioConfig (c : Nat) (w : Chip) : Chip :=
  w.fw c 0xD0 fun m => w.fwCheck c m (fun w => w.audioState m) fun w m => w.fwCommit c m .host 1
    (fun w =>
      let p := rf m 1 1 0
      (((w.stageReg .host (Addr.audCfg0 p) (reqw m 2)).stageReg .host (Addr.audCfg0 p + 8) (reqw m 3)).stageReg .host
        (Addr.audCfg0 p + 16) (reqw m 4)).stageReg .host (Addr.audCtrl p) (rf m 1 8 8))
    fun w _ => w.fwEnd c 0 [w.fld Addr.hostCfgState F.hostCfgState_GEN]
def execAudioConfig (chan : Nat) (s : State) : Out := s.onChip (audioConfig chan)

/-! ## Firmware update (R505) -/

/-- The header of an update that is complete, with its new update count; none if the check fails (R447, R505). -/
def updateHeader (d : List Byte) (count : Nat) : Option (List Byte) :=
  match imageOf d d.length with
  | some _ => if leNat (slice d 8 4) = d.length then some (patch (d.take 32) 12 (toLE 4 (count % 2 ^ 32))) else none
  | none => none

/-- FIRMWARE_UPDATE (R505): a chunk of an image through the bulk input queue into the slot that is not running; with FINAL the
whole image is checked first, and its header is written last. -/
def firmwareUpdate (c : Nat) (w : Chip) : Chip :=
  w.fw c 0xE0 fun m =>
    let off := rf m 1 17 0
    let n := rf m 1 49 32
    let slot := 1 - w.stw.bootSlot % 2
    let q := w.bulkIn c
    w.fwCheck c m (fun w =>
        if off != 0 && (match w.stw.update with | some d => d.length != off | none => true) then some 3
        else w.bulkStatus c m n 0) fun w m =>
      if m.phase = 1 then
        let w := if off = 0 then { w with stw := { w.stw with update := some [], flashOut := (slot, []) :: w.stw.flashOut } } else w
        (w.fwRing c q (w.qCons q) .rd []).setCmd c { m with phase := 2, mark := 1 }
      else
        w.fwOn c fun w d =>
          let m := { m with data := m.data ++ d }
          if m.data.length < n then (w.fwRing c q (w.qCons q + m.mark) .rd []).setCmd c { m with mark := m.mark + 1 }
          else
            let w := doorbellWrite .dbCons q ((w.qCons q + m.mark) % 2 ^ 32) .steward w
            let d := w.stw.update.getD [] ++ m.data.take n
            let out (h : List Byte) : Chip := { w with stw := { w.stw with
              update := some d, flashOut := (slot, h ++ d.drop 32) :: w.stw.flashOut } }
            let words := [d.length + slot * 2 ^ 32]
            if !rb m 1 63 then (out (List.replicate 32 0xFF)).fwEnd c 0 words
            else match updateHeader d ((match w.stw.image with | some i => i.count | none => 0) + 1) with
              | none => w.fwEnd c 3 []
              | some h => ({ (out h) with stw := { (out h).stw with update := none } }).fwEnd c 0 words
def execFirmwareUpdate (chan : Nat) (s : State) : Out := s.onChip (firmwareUpdate chan)

end Sys2Proof.Machine
end

