-- ==== Sys2Proof/Machine/FwCtx.lean ====
section
/-! DEFINITION. The mailbox commands on images and contexts (17_firmware_commands.md, R483 to R486). Each is one step of the
command in progress on a channel. -/

namespace Sys2Proof.Machine

open Chip

/-! ## Images (Table FWC-3) -/

/-- A CRC-32C register after bytes `d` (R384). -/
def crcOn (r : Nat) (d : List Byte) : Nat := d.foldl (fun c b => crcBits 8 (Nat.xor c b.toNat)) r

/-- WRITTEN and CRC of an image command (Table FWC-3). -/
def imageWord (m : MbxCmd) (n : Nat) : Nat := n + Nat.xor m.obj 0xFFFFFFFF * 2 ^ 32

/-- The next chunk of LOAD_IMAGE is read (R483): a ring entry, or up to a 64-byte boundary of the source. `m.aux` holds the
number of entries read. -/
def Chip.loadNext (w : Chip) (c : Nat) (m : MbxCmd) : Chip :=
  let sp := rf m 1 33 32
  let w := if sp = 0 then w.fwRing c (w.bulkIn c) (w.qCons (w.bulkIn c) + m.aux.headD 0) .rd []
    else
      let a := reqw m 3 + m.mark
      w.fwFar c (sp == 1) .rd a (piece a (reqw m 2 - m.mark)) []
  w.setCmd c { m with phase := 2, aux := [m.aux.headD 0 + 1] }

/-- LOAD_IMAGE (R483): chunk by chunk, read and then written as DMW of the core. With FAULTED it reports what is complete. -/
def loadImage (c : Nat) (w : Chip) : Chip :=
  w.fw c 0x10 fun m =>
    let n := rCore m
    let bytes := reqw m 2
    let bad (w : Chip) (_ : Nat × Nat) : Chip := w.fwEnd c 9 [imageWord m m.mark]
    w.fwCheck c m (fun w => w.bulkStatus c m bytes 0) fun w m =>
      match m.phase with
      | 1 => w.loadNext c m
      | 2 => w.fwOnOr c bad fun w d =>
          let d := d.take (bytes - m.mark)
          if !w.coreUp n then w.fwEnd c 9 [imageWord m m.mark]
          else (w.fwLm c n .wr (rf m 1 27 8 + m.mark) d.length d).setCmd c { m with phase := 3, data := d }
      | _ => w.fwOnOr c bad fun w _ =>
          let m := { m with mark := m.mark + m.data.length, obj := crcOn m.obj m.data, data := [] }
          if m.mark < bytes then w.loadNext c m
          else
            let q := w.bulkIn c
            let w := if rf m 1 33 32 = 0 then doorbellWrite .dbCons q ((w.qCons q + m.aux.headD 0) % 2 ^ 32) .steward w else w
            w.fwEnd c 0 [imageWord m m.mark]
def execLoadImage (chan : Nat) (s : State) : Out := s.onChip (loadImage chan)

/-- VERIFY_IMAGE (R483): read as DMR of the core in pieces of 64 bytes; OK whether or not the CRC matches. -/
def verifyImage (c : Nat) (w : Chip) : Chip :=
  w.fw c 0x11 fun m =>
    let n := rCore m
    let bytes := reqw m 2
    let next (w : Chip) (m : MbxCmd) : Chip :=
      let a := rf m 1 27 8 + m.mark
      if !w.coreUp n then w.fwEnd c 9 [0x0A]
      else (w.fwLm c n .rd a (piece a (bytes - m.mark)) []).setCmd c { m with phase := 1 }
    if m.phase = 0 then next w m
    else w.fwOn c fun w d =>
      let m := { m with mark := m.mark + d.length, obj := crcOn m.obj d }
      if m.mark < bytes then next w m
      else w.fwEnd c 0 [imageWord m (b2n (Nat.xor m.obj 0xFFFFFFFF == reqw m 3))]
def execVerifyImage (chan : Nat) (s : State) : Out := s.onChip (verifyImage chan)

/-! ## Contexts (Table FWC-4) -/

/-- The image that CONTEXT_CREATE writes (R484, Table SEQ-3). -/
def newImage (m : MbxCmd) : List Byte :=
  let b := rf m 1 34 34
  let top := rf m 5 19 0
  toLE 8 (1 + slStopped * 2 ^ 8 + rf m 1 31 16 * 2 ^ 16) ++ toLE 8 (rf m 2 19 0) ++
  toLE 8 (rf m 1 61 48 + b * 2 ^ 14 + b * 2 ^ 15) ++ toLE 8 (top + rf m 5 39 20 * 2 ^ 20 + top * 2 ^ 40) ++
  toLE 8 (rf m 3 39 0) ++ toLE 8 (rf m 4 39 0) ++ toLE 8 (rf m 2 39 20) ++
  toLE 8 (rf m 1 32 32 + rf m 1 33 33 * 2) ++ List.replicate 24 0 ++ toLE 8 (rf m 6 31 0) ++ List.replicate 416 0

/-- The end of a context command with a RESULT (R485). -/
def Chip.ctxEnd (w : Chip) (c n slot result : Nat) : Chip :=
  w.fwEnd c (if result = 0 then 0 else 3) [w.ctxWord n slot result]

/-- CONTEXT_CREATE (R484). -/
def contextCreate (c : Nat) (w : Chip) : Chip :=
  w.fw c 0x20 fun m =>
    let n := rCore m
    let slot := rSlot m
    let csa := rf m 2 39 20
    let q := rf m 1 61 48
    let bad (w : Chip) : Bool :=
      (!rb m 1 10 && w.slotState n slot != slEmpty) ||
      ([0, 1, 2, 3].any fun i => i != slot && w.slotState n i != slEmpty && w.ctxId n i == rf m 1 31 16) ||
      (rb m 1 34 && decide (slot < 4) && !(w.qType q == 1 && w.qBind q == n + slot * 64))
    w.fwCheck c m (fun w => if bad w then some 3 else if 4 ≤ slot then some 4
        else if w.bulkWrong c m then some 3 else none) fun w m =>
      match m.phase with
      | 1 => (w.fwLm c n .wr csa 512 (newImage m)).fwPhase c m 2
      | 2 => w.fwOn c fun w _ => (w.setReg (Addr.seqOpAddr n) csa).fwPhase c m 3
      | _ => w.fwSeq c m n 4 slot 3 fun w r => w.ctxEnd c n slot r
def execContextCreate (chan : Nat) (s : State) : Out := s.onChip (contextCreate chan)

/-- CONTEXT_START (R485). -/
def contextStart (c : Nat) (w : Chip) : Chip :=
  w.fw c 0x21 fun m => w.fwSeq c m (rCore m) 1 (rSlot m) 0 fun w r => w.ctxEnd c (rCore m) (rSlot m) r
def execContextStart (chan : Nat) (s : State) : Out := s.onChip (contextStart chan)

/-- CONTEXT_STOP (R485). -/
def contextStop (c : Nat) (w : Chip) : Chip :=
  w.fw c 0x22 fun m => w.fwSeq c m (rCore m) 2 (rSlot m) 0 fun w r => w.ctxEnd c (rCore m) (rSlot m) r
def execContextStop (chan : Nat) (s : State) : Out := s.onChip (contextStop chan)

/-- CONTEXT_SAVE (R485): with COPY, the image then goes from CSA to DEST. -/
def contextSave (c : Nat) (w : Chip) : Chip :=
  w.fw c 0x23 fun m =>
    let n := rCore m
    let slot := rSlot m
    match m.phase with
    | 2 => w.fwOn c fun w d => (w.fwFarAll c (rb m 1 17) .wr d 16 (reqw m 2) 512 0).fwPhase c m 3
    | 3 => w.fwOn c fun w _ => w.ctxEnd c n slot 0
    | _ => w.fwSeq c m n 3 slot 0 fun w r =>
        if r = 0 && rb m 1 16 then
          (w.fwLm c n .rd (w.fld (Addr.ctxCsa n slot) F.ctxCsa_CSA) 512 []).fwPhase c m 2
        else w.ctxEnd c n slot r
def execContextSave (chan : Nat) (s : State) : Out := s.onChip (contextSave chan)

/-- CONTEXT_RESTORE (R484, R485): from the core's LM, or by way of STAGE. -/
def contextRestore (c : Nat) (w : Chip) : Chip :=
  w.fw c 0x24 fun m =>
    let n := rCore m
    let slot := rSlot m
    let sp := rf m 1 17 16
    let stage := rf m 3 19 0
    w.fwCheck c m (fun w => if 4 ≤ slot then some 4 else if w.bulkWrong c m then some 3 else none) fun w m =>
      match m.phase with
      | 1 =>
        if sp = 0 then (w.setReg (Addr.seqOpAddr n) (reqw m 2 % 2 ^ 20)).fwPhase c m 4
        else (w.fwFarAll c (sp == 2) .rd [] 16 (reqw m 2) 512 0).fwPhase c m 2
      | 2 => w.fwOn c fun w d =>
          if !w.coreUp n then w.fwEnd c 9 [0x0A] else (w.fwLm c n .wr stage 512 d).fwPhase c m 3
      | 3 => w.fwOn c fun w _ => (w.setReg (Addr.seqOpAddr n) stage).fwPhase c m 4
      | _ => w.fwSeq c m n 4 slot 4 fun w r => w.ctxEnd c n slot r
def execContextRestore (chan : Nat) (s : State) : Out := s.onChip (contextRestore chan)

/-- CONTEXT_QUERY (R486). -/
def contextQuery (c : Nat) (w : Chip) : Chip :=
  w.fw c 0x25 fun m =>
    let n := rCore m
    let i := rSlot m
    let s := Addr.ctxSched n i
    w.fwEnd c 0 [
      w.ctxWord n i 0 + w.fld (Addr.ctxHdr n i) F.ctxHdr_STOP_CAUSE * 2 ^ 12 + w.blockCode n i * 2 ^ 48 + w.waitKind n i * 2 ^ 52 +
        w.fld s F.ctxSched_DL_ARMED * 2 ^ 56 + w.fld s F.ctxSched_DL_MISSED * 2 ^ 57 + w.fld s F.ctxSched_POLICY * 2 ^ 58 +
        w.fld s F.ctxSched_PRIORITY * 2 ^ 59,
      w.cp n i + w.fld (Addr.ctxFsp n i) F.ctxFsp_FSP * 2 ^ 20,
      w.rd (Addr.ctxWaitArg n i), w.rd (Addr.ctxWaitTarget n i),
      w.fld (Addr.ctxStatus n i) F.ctxStatus_DMA_OUT + w.rd (Addr.ctxLastOverrun n i) % 2 ^ 48 * 2 ^ 16]
def execContextQuery (chan : Nat) (s : State) : Out := s.onChip (contextQuery chan)

/-- DEADLINE_POLICY (R486, R209, Table FWC-11). -/
def deadlinePolicy (c : Nat) (w : Chip) : Chip :=
  w.fw c 0xB0 fun m =>
    let n := rCore m
    let i := rSlot m
    let st := w.slotState n i
    if st == slActive || st == slWaiting || st == slSaving then w.fwEnd c 3 [w.ctxWord n i 0]
    else
      let f := F.ctxSched_POLICY
      let w := (w.setFld (Addr.ctxSched n i) f (rf m 1 16 16)).setRecord (Addr.ctxSched n i) (putBits 0 f.hi f.lo (rf m 1 16 16))
      let w := if rb m 1 17 then
          (w.setFld (Addr.ctxWdLimit n i) F.ctxWdLimit_WD_LIMIT (rf m 1 63 32)).setRecord (Addr.ctxWdLimit n i) (rf m 1 63 32)
        else w
      w.fwEnd c 0 [w.ctxWord n i 0]
def execDeadlinePolicy (chan : Nat) (s : State) : Out := s.onChip (deadlinePolicy chan)

end Sys2Proof.Machine
end

