-- ==== Sys2Proof/Machine/FwObj.lean ====
section
/-! DEFINITION. The mailbox commands on queues, bank groups, synchronisation objects and the event controller
(17_firmware_commands.md, R487 to R492). Each is one step of the command in progress on a channel. -/

namespace Sys2Proof.Machine

open Chip

/-! ## Queues (Table FWC-5) -/

/-- A ring of `n` bytes at `ring` lies in Shared groups of a powered core (R487), as far as this chip can tell: a ring in host
memory or on another chip is not judged. -/
def Chip.ringPlaced (w : Chip) (host : Bool) (ring n : Nat) : Bool :=
  let a := ring % 2 ^ 32
  let h := a / 0x100000
  host || !w.isSelf (ring % 2 ^ 40 / 2 ^ 32) || (w.coreUp h &&
    [0, 1, 2, 3].all fun g => !(decide (lmGroup (a % 0x100000) ≤ g) && decide (g ≤ lmGroup ((a + n - 1) % 0x100000))) ||
      w.cfg (Addr.bgMode h g) F.bgMode_SHARED == 1)

/-- QUEUE_CREATE (R487, R309). -/
def queueCreate (c : Nat) (w : Chip) : Chip :=
  w.fw c 0x30 fun m =>
    let q := rQueue m
    let cf := reqw m 3
    let t := bits cf 2 0
    let clash (w : Chip) : Bool := decide (1 ≤ t) && decide (t ≤ 3) &&
      w.qListed.any fun p => p != q && w.cfg (Addr.qQcfg p) F.qQcfg_TYPE == t && w.qBind p == bits cf 47 32 && !w.descBad p
    w.fwCheck c m (fun w =>
        if clash w || (t != 0 && !w.ringPlaced (bit cf 16) (reqw m 2) (2 ^ bits cf 12 8 * (16 * 2 ^ bits cf 5 4))) then some 3
        else if 16384 ≤ q ∨ w.cfg (Addr.qQcfg q) F.qQcfg_TYPE ≠ 0 then some 4
        else if w.bulkWrong c m then some 3 else none) fun w m =>
      w.fwCommit c m (.queue q) 1
        (fun w => (((w.stageReg (.queue q) (Addr.qRingAddr q) (reqw m 2)).stageReg (.queue q) (Addr.qQcfg q) cf).setReg (Addr.qThr q)
          (maskReg (Addr.qThr q) (reqw m 4))))
        fun w _ => w.fwEnd c 0 [q]
def execQueueCreate (chan : Nat) (s : State) : Out := s.onChip (queueCreate chan)

/-- The object of queue `q` is in use (R488): the bound slot of a COMMAND queue, the channel of a DMA queue. -/
def Chip.queueBusy (w : Chip) (q : Nat) : Bool :=
  let b := w.qBind q
  match w.cfg (Addr.qQcfg q) F.qQcfg_TYPE with
  | 1 => let st := w.slotState (b % 64) (b / 64 % 4); st == slActive || st == slWaiting || st == slSaving
  | 2 => w.chState (b % 64) (b / 64 % 4) != 0
  | _ => false

/-- The queue is quiet: held with no operation in progress (R310). -/
def Chip.qQuiet (w : Chip) (q : Nat) : Bool := w.qHeld q && (w.qOp? q).isNone

/-- QUEUE_DESTROY (R488): hold, commit TYPE NONE with the BIND that Table QUE-1 gives it, release. -/
def queueDestroy (c : Nat) (w : Chip) : Chip :=
  w.fw c 0x31 fun m =>
    let q := rQueue m
    w.fwCheck c m (fun w => if w.queueBusy q then some 3 else none) fun w m =>
      if m.phase = 1 then (queueHoldSet q w).fwPhase c m 2
      else if m.phase = 2 && !w.qQuiet q then w
      else
        let m := if m.phase = 2 then { m with mark := w.qDepth q } else m
        w.fwCommit c m (.queue q) 2
          (fun w => w.stageReg (.queue q) (Addr.qQcfg q) (putBits (putBits (w.cfgRd (Addr.qQcfg q)) 2 0 0) 47 32 0))
          fun w m => (queueHoldRelease q w).fwEnd c 0 [q + m.mark * 2 ^ 32]
def execQueueDestroy (chan : Nat) (s : State) : Out := s.onChip (queueDestroy chan)

/-- The base of a ring to compare with another: in pod memory, both numbers of this chip give one address (R34). -/
def Chip.ringBase (w : Chip) (host : Bool) (a : Nat) : Nat :=
  if host then a else w.resolve (a % 2 ^ 40 / 2 ^ 32) * 2 ^ 32 + a % 2 ^ 32

/-- QUEUE_RESIZE (R488): hold, copy each live entry to its position in the new ring, commit, release. `m.aux` holds CONS and
PROD at the quiet point, `m.mark` the entries copied. -/
def queueResize (c : Nat) (w : Chip) : Chip :=
  w.fw c 0x32 fun m =>
    let q := rQueue m
    let ring := reqw m 2
    let log := reqw m 3
    let e := w.qE q
    let host : Bool := w.cfg (Addr.qQcfg q) F.qQcfg_SPACE == 1
    let old := w.ringBase host (w.cfg (Addr.qRingAddr q) F.qRingAddr_ADDR)
    let new := w.ringBase host ring
    let meets (w : Chip) : Bool := decide (new < old + w.qN q * e) && decide (old < new + 2 ^ log * e)
    let cf := putBits (w.cfgRd (Addr.qQcfg q)) 12 8 log
    w.fwCheck c m (fun w => if w.cfg (Addr.qQcfg q) F.qQcfg_TYPE = 0 || meets w || descWrong ring cf ||
        !w.ringPlaced host ring (2 ^ log * e) then some 3 else none) fun w m =>
      let cons := m.aux.headD 0
      let live := m.aux.getD 1 0
      match m.phase with
      | 1 => (queueHoldSet q w).fwPhase c m 2
      | 2 =>
        if !w.qQuiet q then w
        else if 2 ^ log < w.qDepth q then (queueHoldRelease q w).fwEnd c 4 []
        else w.setCmd c { m with phase := 3, aux := [w.qCons q, w.qDepth q] }
      | 3 =>
        if m.mark < live then (w.fwRing c q ((cons + m.mark) % 2 ^ 32) .rd []).fwPhase c m 4 else w.fwPhase c m 6
      | 4 => w.fwOn c fun w d =>
          (w.fwFar c host .wr (ring + (cons + m.mark) % 2 ^ 32 % 2 ^ log * e) e d).fwPhase c m 5
      | 5 => w.fwOn c fun w _ => w.setCmd c { m with phase := 3, mark := m.mark + 1 }
      | _ => w.fwCommit c m (.queue q) 6
          (fun w => (w.stageReg (.queue q) (Addr.qRingAddr q) ring).stageReg (.queue q) (Addr.qQcfg q) cf)
          fun w m => (queueHoldRelease q w).fwEnd c 0 [q + m.mark * 2 ^ 32]
def execQueueResize (chan : Nat) (s : State) : Out := s.onChip (queueResize chan)

/-! ## Bank groups and the RLC -/

/-- The groups that MASK names. -/
def maskGroups (m : MbxCmd) : List Nat := [0, 1, 2, 3].filter fun g => rb m 1 (8 + g)

/-- The recorded modes of core `n` (R480): SHARED in [3:0], SLOTTED in [11:8]. -/
def Chip.recordedModes (w : Chip) (n : Nat) : Nat :=
  (([0, 1, 2, 3].map fun g =>
    let v := w.recordOf (Addr.bgMode n g)
    v % 2 * 2 ^ g + v / 2 % 2 * 2 ^ (8 + g))).sum

/-- MEM_CONFIG (R489): the modes are committed, then the RLC is enabled, disabled or flushed; the sweeps and the flush end. A
query changes nothing. -/
def memConfig (c : Nat) (w : Chip) : Chip :=
  w.fw c 0x40 fun m =>
    let n := rCore m
    let gs := maskGroups m
    let rlc := rf m 1 33 32
    let mode (g : Nat) : Nat := b2n (rb m 1 (16 + g)) + b2n (rb m 1 (24 + g)) * 2
    let fin (w : Chip) : Chip := w.fwEnd c 0 [w.recordedModes n + w.fld (Addr.bgCfgState n) F.bgCfgState_GEN * 2 ^ 16]
    let ctrl (w : Chip) (m : MbxCmd) : Chip :=
      let a := Addr.rlcCtrl n
      let w := match rlc with
        | 1 => (w.setFlag a F.rlcCtrl_ENABLE true).setRecord a 1
        | 2 => (rlcDisable n w).setRecord a 0
        | 3 => rlcFlush n w
        | _ => w
      w.fwPhase c m 3
    if m.phase = 0 ∧ gs.isEmpty then (if rlc = 0 then fin w else ctrl w m)
    else if m.phase = 3 then
      if w.flag (Addr.sfStatus n) F.sfStatus_SWEEP || (decide (2 ≤ rlc) && w.flag (Addr.rlcStatus n) F.rlcStatus_FLUSHING) then w
      else fin w
    else w.fwCommit c m (.bank n) 0
      (fun w => gs.foldl (fun (w : Chip) g => (w.stageReg (.bank n) (Addr.bgMode n g) (mode g)).setRecord (Addr.bgMode n g) (mode g)) w)
      ctrl
def execMemConfig (chan : Nat) (s : State) : Out := s.onChip (memConfig chan)

/-- SLOT_TABLE_SET (R489): the wheels are committed. A query changes nothing. -/
def slotTableSet (c : Nat) (w : Chip) : Chip :=
  w.fw c 0x41 fun m =>
    let n := rCore m
    let gs := maskGroups m
    let wheel (g : Nat) : Nat := bits (reqw m (2 + g / 2)) (32 * (g % 2) + 31) (32 * (g % 2))
    let fin (w : Chip) : Chip :=
      let r (g : Nat) : Nat := w.recordOf (Addr.bgWheel n g)
      w.fwEnd c 0 [w.fld (Addr.bgCfgState n) F.bgCfgState_GEN, r 0 + r 1 * 2 ^ 32, r 2 + r 3 * 2 ^ 32]
    if gs.isEmpty then fin w
    else w.fwCommit c m (.bank n) 0
      (fun w => gs.foldl (fun (w : Chip) g => (w.stageReg (.bank n) (Addr.bgWheel n g) (wheel g)).setRecord (Addr.bgWheel n g) (wheel g)) w)
      fun w _ => fin w
def execSlotTableSet (chan : Nat) (s : State) : Out := s.onChip (slotTableSet chan)

/-! ## Counters and barriers (Table FWC-6) -/

/-- SYNC_CONFIG (R490, R263, R270): VALUE, CFG, the pair, and STATUS, in this order. -/
def syncConfig (c : Nat) (w : Chip) : Chip :=
  w.fw c 0x50 fun m =>
    let k := rf m 1 24 16
    let v := rf m 2 47 0
    let cfg := reqw m 3
    if rb m 1 0 then
      let w := if rb m 1 32 then counterValueWrite k false v w else w
      let w := if rb m 1 33 && !rb m 1 34 then counterValueWrite k true cfg w else w
      let w := if rb m 1 34 then
          let p := bits cfg 24 16
          let w := w.setReg (Addr.ccCfg p) (maskReg (Addr.ccCfg p) (putBits (putBit cfg 2 (!bit cfg 2)) 24 16 k))
          (counterValueWrite k true cfg w).testRegs p
        else w
      let w := if rb m 1 35 then w.setReg (Addr.ccStatus k) 0 else w
      w.fwEnd c 0 [w.fld (Addr.ccValue k) F.ccValue_VALUE, w.view (Addr.ccStatus k)]
    else
      let n := rf m 1 13 8
      let a := Addr.ctxLc n (k / 4) (k % 4)
      let w := if rb m 1 32 then w.setFld a F.ctxLc_VALUE v else w
      let w := if rb m 1 33 then
          (w.setFld a F.ctxLc_MODE (cfg % 2)).setRecord a (putBits 0 F.ctxLc_MODE.hi F.ctxLc_MODE.lo (cfg % 2)) else w
      let w := (if rb m 1 35 then w.setFld a F.ctxLc_SAT 0 else w).retestCore n
      w.fwEnd c 0 [w.fld a F.ctxLc_VALUE, w.fld a F.ctxLc_SAT]
def execSyncConfig (chan : Nat) (s : State) : Out := s.onChip (syncConfig chan)

/-- BARRIER_CONFIG (R491, R277, R282): MASK is written, ABORTED cleared on request. `kids` are the children of the chip that
take part in an Aster barrier (log entry 15). -/
def barrierConfig (c : Nat) (kids : List Nat) (w : Chip) : Chip :=
  w.fw c 0x51 fun m =>
    let i := rf m 1 13 8
    let v := reqw m 2
    if rb m 1 0 then
      let a := Addr.asterState i
      let w := ((w.setKids i kids).maskWrite true i v).setRecord (Addr.asterMask i) v
      let w := if rb m 1 16 then w.setFlag a F.asterState_ABORTED false else w
      w.fwEnd c 0 [w.rd (Addr.asterMask i), w.view a]
    else
      let w := w.maskWrite false i v
      w.fwEnd c 0 [w.rd (Addr.bloomMask i), w.view (Addr.bloomState i)]
def execBarrierConfig (chan : Nat) (kids : List Nat) (s : State) : Out := s.onChip (barrierConfig chan kids)

/-! ## Events -/

/-- EVENT_ROUTE (R492, R372): masked before the commit, unmasked after it. -/
def eventRoute (c : Nat) (w : Chip) : Chip :=
  w.fw c 0x60 fun m =>
    let s := rf m 1 11 0
    let op := rf m 1 21 20
    let setC := rb m 1 24
    let setR := rb m 1 25
    let bit_ := 2 ^ (s % 64)
    let comp (w : Chip) : Bool := if setC then rb m 1 19 else w.flag (Addr.srcCfg s) F.srcCfg_COMP
    let route (w : Chip) : Nat := if setR then reqw m 2 else w.rd (Addr.srcRoute s)
    let fin (w : Chip) : Chip :=
      let w := if op = 2 then evtMaskWrite (s / 64) false bit_ w else w
      w.fwEnd c 0 [w.view (Addr.srcState s) + w.fld Addr.evtCfgState F.evtCfgState_GEN * 2 ^ 32]
    w.fwCheck c m (fun w => if (setC || setR) && routeBad (!comp w) (route w) then some 3 else none) fun w m =>
      let masked (w : Chip) : Chip := if op = 1 then evtMaskWrite (s / 64) true bit_ w else w
      if !setC && !setR then fin (masked w)
      else w.fwCommit c m .events 1
        (fun w =>
          let w := masked w
          let w := if setC then w.stageReg .events (Addr.srcCfg s) (rf m 1 18 16 + rf m 1 19 19 * 8) else w
          if setR then w.stageReg .events (Addr.srcRoute s) (reqw m 2) else w)
        fun w _ => fin w
def execEventRoute (chan : Nat) (s : State) : Out := s.onChip (eventRoute chan)

/-- EVENT_MODERATE (R492, R363, R372). -/
def eventModerate (c : Nat) (w : Chip) : Chip :=
  w.fw c 0x61 fun m =>
    let setT := rb m 1 12
    let setG := rb m 1 24
    let fin (w : Chip) : Chip := w.fwEnd c 0 [w.fld Addr.evtCfgState F.evtCfgState_GEN]
    if !setT && !setG then fin w
    else w.fwCommit c m .events 0
      (fun w =>
        let w := if setT then w.stageReg .events (Addr.tgtCfg (rf m 1 8 0)) (reqw m 2) else w
        if setG then w.stageReg .events (Addr.evtHoldoff (rf m 1 21 16)) (rf m 3 23 0) else w)
      fun w _ => fin w
def execEventModerate (chan : Nat) (s : State) : Out := s.onChip (eventModerate chan)

end Sys2Proof.Machine
end

