-- ==== Sys2Proof/Machine/FwPod.lean ====
section
/-! DEFINITION. The mailbox commands on host translation, the pod and the links (17_firmware_commands.md, R493 to R496). Each is
one step of the command in progress on a channel. -/

namespace Sys2Proof.Machine

open Chip

/-! ## Host translation (Table FWC-7) -/

/-- The number of the page of a table in the area, by its level and the part of the page number it serves. -/
def HtArea.table? (a : HtArea) (lvl part : Nat) : Option Nat :=
  (a.tables.find? fun t => t.2.1 == lvl && t.2.2 == part).map fun t => t.1

/-- Address of the entry for `page` in its table of level `lvl` (R328, R330). -/
def HtArea.entry (a : HtArea) (lvl page : Nat) : Nat :=
  let part := match lvl with | 1 => 0 | 2 => page / 512 / 512 | _ => page / 512
  a.base + (a.table? lvl part).getD 0 * 4096 + levelIndex page lvl * 8

/-- Each element once, in order. -/
def once (l : List Nat) : List Nat := l.foldl (fun (acc : List Nat) x => if acc.contains x then acc else acc ++ [x]) []

/-- The tables that pages `ps` need and the area has not: their levels and parts, level 2 first. -/
def HtArea.missing (a : HtArea) (ps : List Nat) : List (Nat × Nat) :=
  ((once (ps.map fun p => p / 512 / 512)).filter fun x => (a.table? 2 x).isNone).map (fun x => (2, x)) ++
  ((once (ps.map fun p => p / 512)).filter fun x => (a.table? 3 x).isNone).map fun x => (3, x)

/-- The area with further tables in its lowest free pages. -/
def HtArea.grow (a : HtArea) (new : List (Nat × Nat)) : HtArea :=
  let free := (List.range a.pages).filter fun i => !a.tables.any fun t => t.1 == i
  { a with tables := a.tables ++ (free.zip new).map fun x => (x.1, x.2.1, x.2.2) }

/-- Tables of level 2 and 3 that serve no page of `left`. -/
def HtArea.emptied (a : HtArea) (left : List Nat) : List (Nat × Nat × Nat) :=
  a.tables.filter fun t => match t.2.1 with
    | 2 => !left.any fun p => p / 512 / 512 == t.2.2
    | 3 => !left.any fun p => p / 512 == t.2.2
    | _ => false

/-- A page that table `t` serves. -/
def pageOfTable (t : Nat × Nat) : Nat := if t.1 = 2 then t.2 * 512 * 512 else t.2 * 512

/-- A write of the steward into the area of tables: an LM area as a requester with SRC_UNIT 12 line by line, a host area at its
physical address, as walks read it. -/
def Chip.htWrite (w : Chip) (c : Nat) (lm : Bool) (a : Nat) (d : List Byte) : Chip :=
  if lm then w.fwFarAll c false .wr d (d.length / 64 + 2) a d.length 0
  else
    let id := w.nextId
    ((w.setAcc id { owner := .fw c, remote := true, kind := .wr, chip := 256, addr := a, len := d.length, data := d, parts := 1,
                    born := w.time }).bumpId).hostGo id a

/-- The entries in `m.aux`, as address and value in turn, are written one after another in phases `p` and `p + 1`; `fin`
follows. -/
def Chip.htEntries (w : Chip) (c : Nat) (m : MbxCmd) (lm : Bool) (p : Nat) (fin : Chip → MbxCmd → Chip) : Chip :=
  let issue (w : Chip) (m : MbxCmd) : Chip :=
    match m.aux with
    | a :: v :: r => (w.htWrite c lm a (toLE 8 v)).setCmd c { m with phase := p + 1, aux := r }
    | _ => fin w m
  if m.phase = p then issue w m else w.fwOn c fun w _ => issue w { m with phase := p }

/-- An LM area of tables lies in Shared groups of powered cores of this chip (R493). -/
def Chip.htAreaOk (w : Chip) (base pages : Nat) : Bool :=
  w.isSelf (base % 2 ^ 40 / 2 ^ 32) && decide (base < 2 ^ 40) && decide (base % 2 ^ 32 + pages * 4096 ≤ 0x4000000) &&
    (List.range ((base % 0x40000 + pages * 4096 + 0x3FFFF) / 0x40000)).all fun i =>
      let a := base % 2 ^ 32 / 0x40000 * 0x40000 + i * 0x40000
      w.coreUp (a / 0x100000) && w.cfg (Addr.bgMode (a / 0x100000) (lmGroup (a % 0x100000))) F.bgMode_SHARED == 1

/-- HOST_MAP (R493): SETUP zeroes the area and writes HT_ROOT and HT_CTRL; MAP writes the leaves, and then the entries that make
new tables valid. -/
def hostMap (c : Nat) (w : Chip) : Chip :=
  w.fw c 0x70 fun m =>
    let base := reqw m 2
    let n := reqw m 4
    if rf m 1 1 0 = 1 then
      let lm := rb m 1 16
      w.fwCheck c m (fun w => if !w.stw.maps.isEmpty || (lm && !w.htAreaOk base n) || w.bulkWrong c m then some 3 else none) fun w m =>
        let next (w : Chip) (m : MbxCmd) : Chip :=
          (w.htWrite c lm (base + m.mark * 4096) (List.replicate 4096 0)).setCmd c { m with phase := 2 }
        if m.phase = 1 then next w m
        else w.fwOn c fun w _ =>
          let m := { m with mark := m.mark + 1 }
          if m.mark < n then next w m
          else
            let w := (w.setReg Addr.htRoot (1 + b2n lm * 2 + base % 2 ^ 52)).setFlag Addr.htCtrl F.htCtrl_BYPASS (rb m 1 10)
            { w with stw := { w.stw with area := some ⟨lm, base, n, [(0, 1, 0)]⟩ } }.fwEnd c 0 [1]
    else
      let ps := (List.range n).map fun i => base / 4096 + i
      w.fwCheck c m (fun w =>
        if w.stw.maps.any fun x => decide (base / 4096 ≤ x.page) && decide (x.page < base / 4096 + n) then some 3
        else if (match w.stw.area with
          | some a => decide (a.pages < a.tables.length + (a.missing ps).length)
          | none => n != 0) then some 4
        else if w.bulkWrong c m then some 3 else none) fun w m =>
        match w.stw.area with
        | none => w.fwEnd c 0 [0]
        | some a =>
          let fin (w : Chip) (_ : MbxCmd) : Chip := w.fwEnd c 0 [a.tables.length]
          if m.phase = 1 then
            let new := a.missing ps
            let g := a.grow new
            let frame (p : Nat) : Nat := reqw m 3 / 4096 + (p - base / 4096)
            let leaf (p : Nat) : List Nat :=
              [g.entry 3 p, 1 + rf m 1 8 8 * 2 + rf m 1 9 9 * 4 + frame p % 2 ^ 40 * 4096]
            let link (t : Nat × Nat) : List Nat :=
              [g.entry (t.1 - 1) (pageOfTable t), 1 + (g.base + (g.table? t.1 t.2).getD 0 * 4096)]
            let aux := ps.flatMap leaf ++ (new.filter fun t => t.1 == 3).flatMap link ++ (new.filter fun t => t.1 == 2).flatMap link
            let w := { w with stw := { w.stw with
              area := some g
              maps := w.stw.maps ++ ps.map fun (p : Nat) => ({ page := p, frame := frame p % 2 ^ 40, rd := rb m 1 8, wr := rb m 1 9 } : HtMap) } }
            w.htEntries c { m with phase := 2, aux := aux } g.lm 2 fun w _ => w.fwEnd c 0 [g.tables.length]
          else w.htEntries c m a.lm 2 fin
def execHostMap (chan : Nat) (s : State) : Out := s.onChip (hostMap chan)

/-- HOST_UNMAP (R494, R334): the leaves are cleared, and the entries of tables that become empty; then the invalidation. -/
def hostUnmap (c : Nat) (w : Chip) : Chip :=
  w.fw c 0x71 fun m =>
    let lo := reqw m 1 / 4096
    let hit (x : HtMap) : Bool := decide (lo ≤ x.page) && decide (x.page < lo + reqw m 2)
    let ps := (w.stw.maps.filter hit).map fun x => x.page
    let left := (w.stw.maps.filter fun x => !hit x).map fun x => x.page
    let few : Bool := decide (ps.length ≤ 16)
    match w.stw.area with
    | none => w.fwEnd c 0 [0]
    | some a =>
      let gone := (a.emptied left).filter fun t => ps.any fun p => (if t.2.1 = 2 then p / 512 / 512 else p / 512) == t.2.2
      let fin (w : Chip) : Chip :=
        { w with stw := { w.stw with
            maps := w.stw.maps.filter fun x => !hit x
            area := some { a with tables := a.tables.filter fun t => !gone.contains t } } }.fwEnd c 0 [ps.length]
      let go (w : Chip) (m : MbxCmd) : Chip :=
        if w.flag Addr.htInv F.htInv_BUSY then w.fwPhase c m 3
        else if few then
          match ps[m.mark]? with
          | none => fin w
          | some p =>
            let w := (w.setFld Addr.htInvAddr F.htInvAddr_PAGE p).setFld Addr.htInv F.htInv_MODE 2
            (w.htInvalidate fun x => x == p).setCmd c { m with phase := 3, mark := m.mark + 1 }
        else if m.mark = 0 then
          ((w.setFld Addr.htInv F.htInv_MODE 1).htInvalidate fun _ => true).setCmd c { m with phase := 3, mark := 1 }
        else fin w
      if m.phase = 0 then
        let clear (lvl : Nat) : List Nat :=
          (gone.filter fun t => t.2.1 == lvl).flatMap fun t => [a.entry (lvl - 1) (pageOfTable t.2), 0]
        let aux := (ps.flatMap fun p => [a.entry 3 p, 0]) ++ clear 3 ++ clear 2
        w.htEntries c { m with phase := 1, aux := aux } a.lm 1 go
      else if m.phase ≤ 2 then w.htEntries c m a.lm 1 go
      else go w m
def execHostUnmap (chan : Nat) (s : State) : Out := s.onChip (hostUnmap chan)

/-! ## The pod (Table FWC-8) -/

/-- Lanes of a map as POD_STATUS codes them: 0 eight, 1 four, 2 two. -/
def lanesCode (map : Nat) : Nat := match popCount 8 map with | 4 => 1 | 2 => 2 | _ => 0

/-- The records of the members in ascending chip number (POD_STATUS). -/
def Chip.memberRecords (w : Chip) : List Byte :=
  let ms := w.pod.members.foldr (insertPair fun m => m.2) []
  ms.flatMap fun x => toLE 1 x.2 ++ toLE 1 (b2n (x.1 == w.rd Addr.rootSerial)) ++ List.replicate 6 0 ++ toLE 8 x.1

/-- POD_STATUS. -/
def podStatus (c : Nat) (w : Chip) : Chip :=
  w.fw c 0x80 fun m =>
    let k := rf m 1 23 0
    let words (w : Chip) : List Nat :=
      [w.rd Addr.podState % 2 ^ 32, w.rd Addr.rootSerial, w.rd (Addr.member 0), w.rd (Addr.member 1), w.rd (Addr.member 2),
       w.rd (Addr.member 3),
       ((List.range 8).map fun p => w.lState p * 2 ^ (4 * p) + lanesCode (w.rxMap p) * 2 ^ (32 + 2 * p) +
         w.lRate p % 4 * 2 ^ (48 + 2 * p)).sum]
    w.fwCheck c m (fun w =>
        if rb m 0 41 && decide (k < w.memberRecords.length) then some 4 else w.bulkStatus c m 0 k) fun w m =>
      if !rb m 0 41 then w.fwEnd c 0 (words w)
      else
        let m := if m.phase = 1 then { m with phase := 2, data := w.memberRecords } else m
        w.fwOutput c m 2 fun w _ => w.fwEnd c 0 (words w)
def execPodStatus (chan : Nat) (s : State) : Out := s.onChip (podStatus chan)

/-- DISABLE of the ports of a list is written, and recorded (R480). -/
def Chip.setDisable (w : Chip) (ps : List Nat) (on : Bool) : Chip :=
  ps.foldl (fun (w : Chip) p => (lnkDisableWrite p on w).setRecord (Addr.lnkCtrl p) (b2n on * 4)) w

/-- POD_JOIN (R495): the ports listen; with WAIT the command ends once the chip is a member. -/
def podJoin (c : Nat) (w : Chip) : Chip :=
  w.fw c 0x81 fun m =>
    let w := if m.phase = 0 then (w.setDisable (portsOf (rf m 1 7 0)) false).fwPhase c m 1 else w
    if rb m 1 8 && w.fld Addr.podState F.podState_STATE != 2 then w else w.fwEnd c 0 [w.rd Addr.podState % 2 ^ 32]
def execPodJoin (chan : Nat) (s : State) : Out := s.onChip (podJoin chan)

/-- POD_LEAVE (R495, R439): LEAVE, then DISABLE on the ports; the command ends once the chip is ALONE. A chip with no port left
in an UP state is alone. -/
def podLeave (c : Nat) (w : Chip) : Chip :=
  w.fw c 0x82 fun m =>
    let mask := if rf m 1 7 0 = 0 then 0xFF else rf m 1 7 0
    let fin (w : Chip) : Chip :=
      let alone : Bool := w.fld Addr.podState F.podState_STATE == 0
      if !alone && !w.upPorts.isEmpty then w
      else
        let w := if alone then w else w.becomeAlone
        w.fwEnd c 0 [w.rd Addr.podState % 2 ^ 32]
    if m.phase = 0 then w.sendLeave.fwPhase c m 1
    else if m.phase = 1 then
      if !w.leaveGone then w else fin ((w.setDisable (portsOf mask) true).fwPhase c m 2)
    else fin w
def execPodLeave (chan : Nat) (s : State) : Out := s.onChip (podLeave chan)

/-- LINK_CONFIG (R496): LNK_CFG is committed, then DISABLE, RELEASE and RETRAIN. -/
def linkConfig (c : Nat) (w : Chip) : Chip :=
  w.fw c 0x83 fun m =>
    let p := rf m 1 2 0
    let fin (w : Chip) : Chip :=
      let w := match rf m 1 12 11 with
        | 1 => w.setDisable [p] true
        | 2 => w.setDisable [p] false
        | _ => w
      let w := if rb m 1 10 then lnkReleaseWrite p w else w
      let w := if rb m 1 9 then lnkRetrainWrite p w else w
      w.fwEnd c 0 [w.rd (Addr.lnkState p) % 2 ^ 32]
    if !rb m 1 8 then fin w
    else w.fwCommit c m (.link p) 0
      (fun w => (w.stageReg (.link p) (Addr.lnkCfg p) (reqw m 2)).setRecord (Addr.lnkCfg p) (maskReg (Addr.lnkCfg p) (reqw m 2)))
      fun w _ => fin w
def execLinkConfig (chan : Nat) (s : State) : Out := s.onChip (linkConfig chan)

end Sys2Proof.Machine
end

