-- ==== Sys2Proof/Machine/Matrix.lean ====
section
/-! DEFINITION. The matrix engine (06_matrix_engine.md): issue of its commands, the scoreboard, loads, the compute
array, stores, faults and MX_WAIT. -/

namespace Sys2Proof.Machine

/-! ## Buffers and accumulators -/

/-- An empty block. -/
def zeroBlock : List Byte := List.replicate 512 0

/-- An accumulator set of zeros. -/
def zeroSet : List Nat := List.replicate 256 0

def mxBlock (t : Table (List Byte)) (b : Nat) : List Byte := spGet (fun _ => zeroBlock) t b

/-- The zero flag of a block (R151). -/
def zeroFlag (t : Table Bool) (b : Nat) : Bool := !spGet (fun _ => false) t b

/-- Write a block and its zero flag (R151). -/
def putBlock (buf : Table (List Byte)) (set : Table Bool) (b : Nat) (d : List Byte) (flag : Bool) :
    Table (List Byte) × Table Bool :=
  (spPut (fun _ => zeroBlock) buf b d, spPut (fun _ => false) set b (!flag))

/-- Row `r` (or column) of a block: 256 bits (R144, R145). -/
def blockRow (d : List Byte) (r : Nat) : Nat := leNat (slice d (r * 32) 32)

/-- What one chunk of a binary tile adds to accumulator (r, n): 2P − V over its `v` valid positions (R147, R148). -/
def binTerm (a b : List Byte) (v r n : Nat) : Int :=
  let x := Nat.xor (blockRow a r) (blockRow b n) % 2 ^ v
  2 * ((v : Int) - (popCount v x : Nat)) - v

/-- What a plane pair adds to accumulator (r, n) (R149). -/
def serTerm (a b : List Byte) (neg : Bool) (sh r n : Nat) : Int :=
  let p : Int := ((popCount 256 (Nat.land (blockRow a r) (blockRow b n)) * 2 ^ sh : Nat) : Int)
  if neg then -p else p

/-- Add a term to every accumulator of a set, modulo 2^32 (R150). -/
def addTerms (acc : List Nat) (t : Nat → Nat → Int) : List Nat :=
  acc.mapIdx fun i (v : Nat) => wrapInt 32 ((v : Int) + t (i / 16) (i % 16))

/-- The plane pairs of a bit-serial tile: chunk, activation plane, weight plane. -/
def serPairs (q : MxCmd) : List (Nat × Nat × Nat) :=
  (List.range q.chunks).flatMap fun c => (List.range q.ba).flatMap fun i => (List.range q.bw).map fun j => (c, i, j)

/-- The pairs that are not skipped (R152). -/
def serActive (x : Mx) (q : MxCmd) : List (Nat × Nat × Nat) :=
  (serPairs q).filter fun p =>
    !zeroFlag x.aset (q.ablk + p.1 * q.ba + p.2.1) && !zeroFlag x.wset (q.wblk + p.1 * q.bw + p.2.2)

/-- The accumulator set after a compute command (R147 to R150, R246, R248). -/
def mxCompute (x : Mx) (q : MxCmd) : List Nat :=
  let held := spGet (fun _ => zeroSet) x.accs q.set
  let start := if q.init || q.op == 0x25 then zeroSet else (List.range 256).map fun i => held.getD i 0
  if q.op = 0x25 then start
  else if q.op = 0x22 then
    (List.range q.chunks).foldl (fun acc c =>
      addTerms acc (binTerm (mxBlock x.abuf (q.ablk + c)) (mxBlock x.wbuf (q.wblk + c))
        (if c + 1 = q.chunks then q.klast else 256))) start
  else
    (serActive x q).foldl (fun acc p =>
      let (c, i, j) := p
      let neg := (i + 1 == q.ba && q.signA) != (j + 1 == q.bw && q.signW)
      addTerms acc (serTerm (mxBlock x.abuf (q.ablk + c * q.ba + i)) (mxBlock x.wbuf (q.wblk + c * q.bw + j)) neg (i + j)))
      start

/-- Steps of a compute command (Table MTX-1). -/
def mxSteps (x : Mx) (q : MxCmd) : Nat :=
  if q.op = 0x25 then 1 else if q.op = 0x22 then 4 + q.chunks else 4 + (serActive x q).length

/-! ## Stores -/

/-- An accumulator value converted to a format of `n` bits (R158), and whether it saturated. -/
def mxConvert (q : MxCmd) (sgn : Bool) (n v : Nat) : Nat × Bool := saturate sgn n (roundShift (signed 32 v) q.shift)

/-- The runs of bytes that a store writes: LM offset and data, and the number of saturated values (Table MTX-3). -/
def mxStoreRuns (q : MxCmd) (acc : List Nat) : List (Nat × List Byte) × Nat :=
  let d := q.addr % 0x100000
  let whole (n : Nat) : List (Nat × List Byte) × Nat :=
    let v := acc.map fun a => mxConvert q true (8 * n) a
    ([(d, v.flatMap fun p => toLE n p.1)], (v.filter fun p => p.2).length)
  match q.fmt with
  | 0 => ([(d, acc.flatMap fun a => toLE 4 a)], 0)
  | 1 => whole 2
  | 2 => whole 1
  | 3 =>
    let v := acc.map fun a => mxConvert q q.sgn q.planes a
    let rows := (List.range q.planes).flatMap fun p => (List.range 16).map fun r =>
      (d + p * 512 + r * 32 + 2 * q.field,
        toLE 2 (((List.range 16).map fun n => b2n (bit ((v.getD (r * 16 + n) (0, false)).1) p) * 2 ^ n).sum))
    (rows, (v.filter fun p => p.2).length)
  | _ =>
    ((List.range 16).map fun r => (d + r * 32 + 2 * q.field,
      toLE 2 (((List.range 16).map fun n => b2n (decide (0 ≤ signed 32 (acc.getD (r * 16 + n) 0))) * 2 ^ n).sum)), 0)

/-- Bytes from D that a store reaches (Table MTX-3). -/
def mxExtent (fmt planes : Nat) : Nat :=
  match fmt with | 0 => 1024 | 1 => 512 | 2 => 256 | 3 => 512 * planes | _ => 512

namespace Chip

/-- Present the writes of a list of runs as one access of requester `reqr` (R62). -/
def localRuns (w : Chip) (owner : AccOwner) (n reqr : Nat) (runs : List (Nat × List Byte)) : Chip :=
  let id := w.nextId
  let data := runs.flatMap fun r => r.2
  let words := (runs.foldl (fun (p : List WordReq × Nat) r =>
    (p.1 ++ splitWords id reqr true (r.2.length / 32 + 2) r.1 r.2.length p.2, p.2 + r.2.length)) ([], 0)).1
  (w.setAcc id { owner := owner, core := n, home := n, reqr := reqr, kind := .wr,
                 addr := lmAddr n ((runs.head?.map fun r => r.1).getD 0), len := data.length, data := data, todo := words,
                 born := w.time }).bumpId

/-! ## Issue -/

/-- Queue a matrix command of slot `c` (R143). -/
def mxEnqueue (w : Chip) (n c : Nat) (x : Cmd) (q : MxCmd) : Chip :=
  let m := w.mxOf n
  let q := { q with id := w.nextId, op := opcodeOf x.w0, slot := c, ctxId := w.ctxId n c, cp := x.cp, w0 := x.w0, w1 := x.w1 }
  (w.setMx n { m with queue := m.queue ++ [q] }).bumpId

end Chip

/-- A command with no operands filled in. -/
def mxBlank : MxCmd := { id := 0, op := 0, slot := 0, ctxId := 0, cp := 0, w0 := 0, w1 := 0 }

open Chip

/-- MX_LOADW and MX_LOADA at issue (R155, R165, R245); `size` is the buffer's size in blocks. -/
def mxLoad (n c op size : Nat) (w : Chip) : Chip :=
  w.issue n c op
    (fun w x =>
      let a := w.indexed n c x (bits x.w0 39 0) 40
      let blk := bits x.w1 6 0
      let len := bits x.w1 23 16
      [resvChk x [(39, 0)] [(6, 0), (23, 16)] true, rangeChk (decide (size ≤ blk) || len == 0 || decide (size < len)),
       combChk (decide (size < blk + len)), alignChk (a % 32 != 0) a, podLmChk a,
       lmChk (decide (0x100000 < a % 0x100000 + len * 512)) a, w.reachChk a])
    fun w x =>
      let a := w.indexed n c x (bits x.w0 39 0) 40
      (w.mxEnqueue n c x { mxBlank with addr := w.resolve (a / 2 ^ 32) * 2 ^ 32 + a % 2 ^ 32, blk := bits x.w1 6 0,
                                        len := bits x.w1 23 16 }, .next)

/-- MX_LOADA (R155, R245). -/
def execMxLoada (core slot : Nat) (s : State) : Out := s.onChip (mxLoad core slot 0x21 64)
/-- MX_LOADW (R155, R245). -/
def execMxLoadw (core slot : Nat) (s : State) : Out := s.onChip (mxLoad core slot 0x20 128)

/-- MX_BIN at issue (R147, R165, R246). -/
def mxBin (n c : Nat) (w : Chip) : Chip :=
  let f (x : Cmd) : MxCmd := { mxBlank with
    ablk := bits x.w0 5 0, wblk := bits x.w0 14 8, chunks := bits x.w0 22 16, klast := bits x.w0 32 24,
    set := bits x.w0 41 40, init := bit x.w0 54 }
  w.issue n c 0x22
    (fun _ x =>
      let q := f x
      [resvChk x [(5, 0), (14, 8), (22, 16), (32, 24), (41, 40), (54, 54)] [] false,
       rangeChk (q.chunks == 0 || decide (64 < q.chunks) || q.klast == 0 || decide (256 < q.klast)),
       combChk (decide (64 < q.ablk + q.chunks) || decide (128 < q.wblk + q.chunks))])
    fun w x => (w.mxEnqueue n c x (f x), .next)
def execMxBin (core slot : Nat) (s : State) : Out := s.onChip (mxBin core slot)

/-- MX_SER at issue (R149, R165, R246). -/
def mxSer (n c : Nat) (w : Chip) : Chip :=
  let f (x : Cmd) : MxCmd := { mxBlank with
    ablk := bits x.w0 5 0, wblk := bits x.w0 14 8, chunks := bits x.w0 22 16, ba := bits x.w0 27 24, bw := bits x.w0 31 28,
    set := bits x.w0 41 40, init := bit x.w0 54, signA := bit x.w0 53, signW := bit x.w0 52 }
  w.issue n c 0x23
    (fun _ x =>
      let q := f x
      [resvChk x [(5, 0), (14, 8), (22, 16), (27, 24), (31, 28), (41, 40), (54, 52)] [] false,
       rangeChk (q.chunks == 0 || decide (64 < q.chunks) || q.ba == 0 || decide (8 < q.ba) || q.bw == 0 || decide (8 < q.bw)),
       combChk (decide (64 < q.ablk + q.chunks * q.ba) || decide (128 < q.wblk + q.chunks * q.bw))])
    fun w x => (w.mxEnqueue n c x (f x), .next)
def execMxSer (core slot : Nat) (s : State) : Out := s.onChip (mxSer core slot)

/-- MX_STORE at issue (R158 to R160, R165, R247). -/
def mxStore (n c : Nat) (w : Chip) : Chip :=
  let f (w : Chip) (x : Cmd) : MxCmd := { mxBlank with
    addr := w.indexed n c x (bits x.w0 39 0) 40, set := bits x.w1 1 0, fmt := bits x.w1 6 4, shift := bits x.w1 12 8,
    planes := bits x.w1 19 16, sgn := bit x.w1 20, field := bits x.w1 27 24 }
  w.issue n c 0x24
    (fun w x =>
      let q := f w x
      [resvChk x [(39, 0)] [(1, 0), (6, 4), (12, 8), (19, 16), (20, 20), (27, 24)] true,
       rangeChk (decide (5 ≤ q.fmt) || (q.fmt == 3 && (q.planes == 0 || decide (8 < q.planes)))),
       combChk ((q.shift != 0 && (q.fmt == 0 || q.fmt == 4)) || (q.fmt != 3 && (q.planes != 0 || q.sgn)) ||
         (decide (q.fmt < 3) && q.field != 0)),
       alignChk (q.addr % (if q.fmt ≤ 2 then 128 else 512) != 0) q.addr,
       lmChk (!w.ownLm n q.addr || decide (0x100000 < q.addr % 0x100000 + mxExtent q.fmt q.planes)) q.addr])
    fun w x => (w.mxEnqueue n c x (f w x), .next)
def execMxStore (core slot : Nat) (s : State) : Out := s.onChip (mxStore core slot)

/-- MX_CLEAR at issue (R248). -/
def mxClear (n c : Nat) (w : Chip) : Chip :=
  w.issue n c 0x25 (fun _ x => [resvChk x [(41, 40)] [] false])
    fun w x => (w.mxEnqueue n c x { mxBlank with set := bits x.w0 41 40 }, .next)
def execMxClear (core slot : Nat) (s : State) : Out := s.onChip (mxClear core slot)

/-- Identifiers of the unfinished matrix commands of a context. -/
def Chip.mxMine (w : Chip) (n c : Nat) : List Nat :=
  let x := w.mxOf n
  let mine (q : MxCmd) : Bool := q.slot == c && q.ctxId == w.ctxId n c
  ((x.queue.filter mine) ++ (x.runs.map fun r => r.cmd).filter mine).map fun q => q.id

/-- MX_WAIT (R164): WAITING until every earlier matrix command of the context has completed. -/
def mxWait (n c : Nat) (w : Chip) : Chip :=
  w.issue n c 0x26 (fun _ x => [resvChk x [] [] false]) fun w x =>
    let w := w.enterWait n c 3 0 x
    (w.setSlot n c { w.slot n c with mxWait := w.mxMine n c }, .next)
def execMxWait (core slot : Nat) (s : State) : Out := s.onChip (mxWait core slot)

/-- MX_WAIT_RESUME (R164, R205). -/
def mxWaitResume (n c : Nat) (w : Chip) : Chip :=
  if w.waitingIn n c 3 && ((w.slot n c).mxWait.all fun i => !(w.mxMine n c).contains i) then w.wake n c else w
def execMxWaitResume (core slot : Nat) (s : State) : Out := s.onChip (mxWaitResume core slot)

/-! ## Units -/

/-- The unit of a command: activation loader, weight loader, compute array, store unit. -/
def mxUnit (op : Nat) : Nat := if op = 0x21 then 0 else if op = 0x20 then 1 else if op = 0x24 then 3 else 2

/-- Two block ranges overlap. -/
def overlap (a n b m : Nat) : Bool := decide (a < b + m) && decide (b < a + n)

/-- Compute `k` reads a block that load `l` writes (R162). -/
def readsLoaded (l k : MxCmd) : Bool :=
  mxUnit k.op == 2 && k.op != 0x25 &&
  (if l.op = 0x21 then overlap l.blk l.len k.ablk (k.chunks * k.ba) else overlap l.blk l.len k.wblk (k.chunks * k.bw))

/-- Command `q` waits for the earlier unfinished command `e` (R162); `started` says that `e` has started. -/
def mxDepends (q e : MxCmd) (started : Bool) : Bool :=
  match mxUnit q.op with
  | 2 => (mxUnit e.op ≤ 1 && readsLoaded e q) || (mxUnit e.op == 3 && !started && e.set == q.set)
  | 3 => mxUnit e.op == 2 && e.set == q.set
  | _ => readsLoaded q e

/-- The first queued command of a unit. -/
def mxNext? (x : Mx) (unit : Nat) : Option MxCmd := x.queue.find? fun q => mxUnit q.op == unit

/-- The scoreboard lets a queued command start (R162). -/
def mxClearToStart (x : Mx) (q : MxCmd) : Bool :=
  !((x.queue.any fun e => decide (e.id < q.id) && mxDepends q e false) ||
    (x.runs.any fun r => decide (r.cmd.id < q.id) && mxDepends q r.cmd true))

/-- The parts of a remote load: up to the next 64-byte line each (R157). -/
def loadParts : Nat → Nat → Nat → Nat → List (Nat × Nat × Nat)
  | 0, _, _, _ => []
  | k + 1, pos, a, len =>
    if len = 0 then []
    else
      let m := min len (64 - a % 64)
      (pos, a, m) :: loadParts k (pos + m) (a + m) (len - m)

namespace Chip

/-- Issue the requests of remote loads that wait, while fewer than 32 are outstanding (R626); a load that has met a fault
asks for nothing more (R166). -/
def mxPump (w : Chip) (n : Nat) : Chip :=
  (w.mxOf n).runs.foldl (fun (w : Chip) r =>
    if r.parts.isEmpty then w
    else
      let stop := (w.accsOf (.mx n r.cmd.id)).any fun p => p.2.fault != 0
      let (w, left) := r.parts.foldl (fun (b : Chip × List (Nat × Nat × Nat)) p =>
        if stop then b
        else if b.2.isEmpty && decide (b.1.outstanding n < 32) then
          (b.1.remoteRead (.mx n r.cmd.id) n 1 r.cmd.slot (r.cmd.addr / 2 ^ 32) p.2.1 p.2.2, b.2)
        else (b.1, b.2 ++ [p])) (w, [])
      let x := w.mxOf n
      w.setMx n { x with runs := x.runs.map fun y => if y.cmd.id = r.cmd.id then { y with parts := left } else y }) w

end Chip

/-- MX_UNIT_START (R143, R162): a unit takes its next queued command. A load presents its reads; a store copies its set and
presents its writes. -/
def mxUnitStart (n unit : Nat) (perr : List Nat) (w : Chip) : Chip :=
  let w := if w.runs n then w.rlcStrike n perr else w
  let x := w.mxOf n
  match mxNext? x unit with
  | none => w
  | some q =>
    if !w.runs n || x.runs.any (fun r => r.unit == unit) || !mxClearToStart x q then w
    else
      let start (w : Chip) (parts : List (Nat × Nat × Nat)) : Chip :=
        w.setMx n { x with queue := x.queue.filter fun e => e.id != q.id, runs := x.runs ++ [⟨unit, q, parts⟩] }
      match unit with
      | 0 | 1 =>
        if w.ownLm n q.addr then (start w []).localAcc (.mx n q.id) n n (2 + unit) .rd (q.addr % 0x100000) (q.len * 512) []
        else
          let parts := loadParts (q.len * 8 + 2) 0 (q.addr % 2 ^ 32) (q.len * 512)
          match parts with
          | p :: rest =>
            if w.outstanding n < 32 then
              ((start w rest).remoteRead (.mx n q.id) n 1 q.slot (q.addr / 2 ^ 32) p.2.1 p.2.2).mxPump n
            else start w parts
          | [] => start w []
      | 2 => start w []
      | _ =>
        let (runs, sat) := mxStoreRuns q (spGet (fun _ => zeroSet) x.accs q.set)
        ((start w []).addSat (Addr.mxSatCount n) F.mxSatCount_COUNT sat).localRuns (.mx n q.id) n 4 runs

def execMxUnitStart (core unit : Nat) (perr : List Nat) (s : State) : Out := s.onChip (mxUnitStart core (unit % 4) perr)

namespace Chip

/-- A fault of a matrix command after issue (R166): ERR and MX_ERR_LOG; later commands of the same context are
discarded; the context faults if its slot still holds it. -/
def mxFault (w : Chip) (n unit : Nat) (q : MxCmd) (code addr : Nat) : Chip :=
  let w := (w.setFlag (Addr.mxStatus n) F.mxStatus_ERR true).mxDiscard n q.slot q.ctxId (some q.id)
  let l := Addr.mxErrLog n
  let w := if w.flag l F.mxErrLog_VALID then w
    else w.setReg l (code + q.slot * 2 ^ 8 + unit * 2 ^ 10 + 2 ^ 12 + addr % 2 ^ 40 * 2 ^ 24)
  if w.slotState n q.slot != slEmpty && w.ctxId n q.slot == q.ctxId then
    w.postFault n q.slot { code := code, unit := 1, srcCp := q.cp, word0 := q.w0, word1 := q.w1, addr := addr }
  else w

/-- The unit is free again. -/
def mxFinish (w : Chip) (n : Nat) (q : MxCmd) : Chip :=
  let x := w.mxOf n
  w.setMx n { x with runs := x.runs.filter fun r => r.cmd.id != q.id }

/-- The effect of a completed compute command (R147 to R153, R248). -/
def mxComputeDone (w : Chip) (n : Nat) (q : MxCmd) : Chip :=
  let x := w.mxOf n
  let st := mxSteps x q
  let w := w.setMx n { x with accs := spPut (fun _ => zeroSet) x.accs q.set (mxCompute x q) }
  let w := (w.addWrap (Addr.mxSteps n) F.mxSteps_COUNT st).addWrap (Addr.mxCtxSteps n q.slot) F.mxCtxSteps_COUNT st
  if q.op = 0x25 then w
  else
    let w := if q.op = 0x23 then
      w.addWrap (Addr.mxSkipped n) F.mxSkipped_COUNT ((serPairs q).length - (serActive x q).length) else w
    ((w.setFld (Addr.mxLast n) F.mxLast_STEPS st).setFld (Addr.mxLast n) F.mxLast_CTX q.slot).addSat (Addr.mxCmdCount n)
      F.mxCmdCount_COUNT 1

/-- Write the blocks of a load (R151, R155); a failed load leaves undefined contents with zero flags of 0 (R167). -/
def mxLoadDone (w : Chip) (n : Nat) (q : MxCmd) (data : List Byte) (failed : Bool) : Chip :=
  (List.range q.len).foldl (fun (w : Chip) i =>
    let x := w.mxOf n
    let (d, w) := if failed then (w.freeBytes 512 0, w.drewN 512) else (slice data (i * 512) 512, w)
    let z := !failed && d.all fun b => b == 0
    if q.op = 0x21 then
      let (b, f) := putBlock x.abuf x.aset (q.blk + i) d z
      w.setMx n { x with abuf := b, aset := f }
    else
      let (b, f) := putBlock x.wbuf x.wset (q.blk + i) d z
      w.setMx n { x with wbuf := b, wset := f }) w

end Chip

/-- MX_COMMAND_COMPLETE (R153, R156, R158, R166, R167): a unit finishes its command once its accesses are done. A failing
store leaves undefined contents in its destination range. -/
def mxCommandComplete (n unit : Nat) (b : Both) : Both :=
  let (mem, w) := b
  match (w.mxOf n).runs.find? fun r => r.unit == unit with
  | none => b
  | some r =>
    let q := r.cmd
    let o : AccOwner := .mx n q.id
    let accs := w.accsOf o
    let bad := accs.find? fun p => p.2.fault != 0
    if !w.runs n || !w.accsDone o || (!r.parts.isEmpty && bad.isNone) then b
    else
      let w := w.dropAccs o
      match bad with
      | some (_, a) =>
        let w := (w.mxFault n unit q a.fault (a.chip * 2 ^ 32 + a.addr)).mxFinish n q
        if unit ≤ 1 then (mem, w.mxLoadDone n q [] true)
        else
          (mxStoreRuns q zeroSet).1.foldl (fun (b : Both) x =>
            (memWrite b.1 (lmAddr n x.1) (b.2.freeBytes x.2.length 0), (b.2.drewN x.2.length).sfTouch n x.1 x.2.length)) (mem, w)
      | none =>
        match unit with
        | 2 => (mem, (w.mxComputeDone n q).mxFinish n q)
        | 3 => (mem, w.mxFinish n q)
        | _ =>
          let data := accs.foldl (fun d p => patch d (p.2.addr - q.addr % 2 ^ 32) p.2.data) (List.replicate (q.len * 512) 0)
          (mem, (w.mxLoadDone n q (if w.ownLm n q.addr then (accs.head?.map fun p => p.2.data).getD [] else data) false).mxFinish n q)

def execMxCommandComplete (core unit : Nat) (s : State) : Out :=
  let r := mxCommandComplete core (unit % 4) (s.mem, s.w)
  .next { s with mem := r.1, w := r.2 }

end Sys2Proof.Machine
end

