-- ==== Sys2Proof/Machine/LnsTable.lean ====
section
/-! DEFINITION. The correction table of LNS_ADD and LNS_SUB (R177): f(d) = log2(1 + 2^-d) and g(d) = log2(1 - 2^-d) at
the entries' values of d, correctly rounded. Magnitudes are listed; every g is negative. -/

namespace Sys2Proof.Machine

/-- Entries 0 to 511: -g at d = k/512 in units of 2^-9. Entry 0 is not used: at d = 0 the result is exactly zero (R176). -/
def lnsG0 : List Nat :=
  [0, 4879, 4368, 4069, 3857, 3692, 3558, 3445, 3347, 3260, 3183, 3113, 3049, 2991, 2936, 2886, 2839, 2794, 2753, 2713, 2676, 2640, 2606, 2574, 2543, 2514, 2485, 2458, 2431, 2406, 2381, 2358, 2335, 2312, 2291, 2270, 2250, 2230, 2211, 2192, 2174, 2156, 2139, 2122, 2105, 2089, 2074, 2058, 2043, 2028, 2014, 2000, 1986, 1972, 1959, 1946, 1933, 1921, 1908, 1896, 1884, 1872, 1861, 1850] ++
  [1838, 1828, 1817, 1806, 1796, 1785, 1775, 1765, 1755, 1746, 1736, 1727, 1717, 1708, 1699, 1690, 1682, 1673, 1664, 1656, 1647, 1639, 1631, 1623, 1615, 1607, 1599, 1592, 1584, 1577, 1569, 1562, 1555, 1548, 1540, 1533, 1527, 1520, 1513, 1506, 1499, 1493, 1486, 1480, 1474, 1467, 1461, 1455, 1449, 1443, 1437, 1431, 1425, 1419, 1413, 1407, 1402, 1396, 1390, 1385, 1379, 1374, 1368, 1363] ++
  [1358, 1353, 1347, 1342, 1337, 1332, 1327, 1322, 1317, 1312, 1307, 1302, 1297, 1293, 1288, 1283, 1279, 1274, 1269, 1265, 1260, 1256, 1251, 1247, 1242, 1238, 1234, 1229, 1225, 1221, 1217, 1213, 1208, 1204, 1200, 1196, 1192, 1188, 1184, 1180, 1176, 1172, 1168, 1165, 1161, 1157, 1153, 1149, 1146, 1142, 1138, 1135, 1131, 1127, 1124, 1120, 1117, 1113, 1110, 1106, 1103, 1099, 1096, 1093] ++
  [1089, 1086, 1082, 1079, 1076, 1073, 1069, 1066, 1063, 1060, 1056, 1053, 1050, 1047, 1044, 1041, 1038, 1035, 1032, 1029, 1025, 1022, 1020, 1017, 1014, 1011, 1008, 1005, 1002, 999, 996, 993, 991, 988, 985, 982, 979, 977, 974, 971, 968, 966, 963, 960, 958, 955, 952, 950, 947, 945, 942, 939, 937, 934, 932, 929, 927, 924, 922, 919, 917, 914, 912, 909] ++
  [907, 905, 902, 900, 897, 895, 893, 890, 888, 886, 883, 881, 879, 877, 874, 872, 870, 868, 865, 863, 861, 859, 856, 854, 852, 850, 848, 846, 844, 841, 839, 837, 835, 833, 831, 829, 827, 825, 823, 821, 819, 817, 815, 813, 811, 809, 807, 805, 803, 801, 799, 797, 795, 793, 791, 789, 787, 785, 783, 781, 780, 778, 776, 774] ++
  [772, 770, 768, 767, 765, 763, 761, 759, 758, 756, 754, 752, 751, 749, 747, 745, 744, 742, 740, 738, 737, 735, 733, 732, 730, 728, 726, 725, 723, 721, 720, 718, 717, 715, 713, 712, 710, 708, 707, 705, 704, 702, 700, 699, 697, 696, 694, 693, 691, 689, 688, 686, 685, 683, 682, 680, 679, 677, 676, 674, 673, 671, 670, 668] ++
  [667, 665, 664, 663, 661, 660, 658, 657, 655, 654, 653, 651, 650, 648, 647, 645, 644, 643, 641, 640, 639, 637, 636, 634, 633, 632, 630, 629, 628, 626, 625, 624, 622, 621, 620, 618, 617, 616, 615, 613, 612, 611, 609, 608, 607, 606, 604, 603, 602, 600, 599, 598, 597, 595, 594, 593, 592, 591, 589, 588, 587, 586, 584, 583] ++
  [582, 581, 580, 578, 577, 576, 575, 574, 573, 571, 570, 569, 568, 567, 566, 564, 563, 562, 561, 560, 559, 558, 557, 555, 554, 553, 552, 551, 550, 549, 548, 547, 545, 544, 543, 542, 541, 540, 539, 538, 537, 536, 535, 534, 533, 532, 530, 529, 528, 527, 526, 525, 524, 523, 522, 521, 520, 519, 518, 517, 516, 515, 514, 513]

/-- Entries 512 to 767: f at d = i/16 in units of 2^-17. -/
def lnsF : List Nat :=
  [131072, 127020, 123057, 119183, 115397, 111699, 108089, 104565, 101129, 97779, 94514, 91334, 88237, 85224, 82293, 79442, 76672, 73981, 71367, 68830, 66368, 63980, 61664, 59420, 57246, 55140, 53101, 51128, 49219, 47373, 45588, 43863, 42196, 40586, 39031, 37529, 36081, 34683, 33335, 32035, 30781, 29573, 28409, 27287, 26207, 25166, 24165, 23200, 22272, 21380, 20521, 19694, 18900, 18136, 17401, 16695, 16016, 15364, 14737, 14135, 13557, 13001, 12468, 11956] ++
  [11464, 10992, 10538, 10103, 9686, 9285, 8901, 8532, 8178, 7838, 7512, 7200, 6900, 6612, 6337, 6072, 5819, 5576, 5343, 5119, 4905, 4700, 4503, 4314, 4133, 3960, 3793, 3634, 3481, 3335, 3195, 3061, 2932, 2808, 2690, 2577, 2468, 2364, 2265, 2169, 2078, 1990, 1906, 1826, 1749, 1675, 1604, 1536, 1472, 1409, 1350, 1293, 1238, 1186, 1136, 1088, 1042, 998, 956, 915, 876, 839, 804, 770] ++
  [737, 706, 676, 648, 620, 594, 569, 545, 522, 500, 478, 458, 439, 420, 402, 385, 369, 353, 338, 324, 310, 297, 285, 273, 261, 250, 239, 229, 219, 210, 201, 193, 185, 177, 169, 162, 155, 149, 142, 136, 131, 125, 120, 115, 110, 105, 101, 96, 92, 88, 85, 81, 78, 74, 71, 68, 65, 63, 60, 57, 55, 53, 50, 48] ++
  [46, 44, 42, 41, 39, 37, 36, 34, 33, 31, 30, 29, 27, 26, 25, 24, 23, 22, 21, 20, 19, 19, 18, 17, 16, 16, 15, 14, 14, 13, 13, 12, 12, 11, 11, 10, 10, 9, 9, 9, 8, 8, 7, 7, 7, 7, 6, 6, 6, 6, 5, 5, 5, 5, 4, 4, 4, 4, 4, 4, 3, 3, 3, 3]

/-- Entries 768 to 1,023: -g at d = 1 + i/16 in units of 2^-17. -/
def lnsG1 : List Nat :=
  [131072, 123220, 115995, 109326, 103152, 97424, 92096, 87131, 82496, 78162, 74102, 70294, 66719, 63357, 60193, 57211, 54400, 51746, 49239, 46870, 44628, 42506, 40496, 38591, 36785, 35071, 33444, 31899, 30432, 29037, 27711, 26450, 25250, 24109, 23022, 21986, 21000, 20061, 19166, 18313, 17499, 16724, 15984, 15278, 14604, 13962, 13348, 12763, 12204, 11670, 11161, 10674, 10209, 9765, 9340, 8935, 8547, 8177, 7823, 7485, 7161, 6852, 6556, 6274] ++
  [6004, 5745, 5498, 5262, 5036, 4819, 4612, 4415, 4225, 4044, 3871, 3705, 3547, 3395, 3250, 3111, 2978, 2851, 2729, 2613, 2501, 2394, 2292, 2194, 2101, 2011, 1926, 1844, 1765, 1690, 1618, 1549, 1483, 1420, 1360, 1302, 1246, 1193, 1143, 1094, 1048, 1003, 960, 920, 880, 843, 807, 773, 740, 709, 679, 650, 622, 596, 570, 546, 523, 501, 480, 459, 440, 421, 403, 386] ++
  [370, 354, 339, 325, 311, 298, 285, 273, 261, 250, 240, 229, 220, 210, 201, 193, 185, 177, 169, 162, 155, 149, 142, 136, 131, 125, 120, 115, 110, 105, 101, 96, 92, 88, 85, 81, 78, 74, 71, 68, 65, 63, 60, 57, 55, 53, 50, 48, 46, 44, 42, 41, 39, 37, 36, 34, 33, 31, 30, 29, 27, 26, 25, 24] ++
  [23, 22, 21, 20, 19, 19, 18, 17, 16, 16, 15, 14, 14, 13, 13, 12, 12, 11, 11, 10, 10, 9, 9, 9, 8, 8, 7, 7, 7, 7, 6, 6, 6, 6, 5, 5, 5, 5, 4, 4, 4, 4, 4, 4, 3, 3, 3, 3, 3, 3, 3, 3, 2, 2, 2, 2, 2, 2, 2, 2, 2, 2, 2, 2]

end Sys2Proof.Machine
end

