-- ==== Sys2Proof/Machine/Lns.lean ====
section
/-! DEFINITION. LNS16 arithmetic (R174 to R178, R183, R187): codes, multiply, divide, add, subtract, square root,
reciprocal, comparison and conversion, each with its counts of overflow, underflow and saturation. -/

namespace Sys2Proof.Machine

/-- A result with the saturations, overflows and underflows it counts. -/
structure Res where
  v : Nat
  sat : Nat := 0
  ovf : Nat := 0
  unf : Nat := 0
deriving DecidableEq, Repr

/-- The log field of a code, in units of 2^-9. -/
def lnsLog (x : Nat) : Int := signed 15 x
/-- The sign of a code. -/
def lnsNeg (x : Nat) : Bool := bit x 15
/-- Both forms of the zero code (R174). -/
def lnsZero (x : Nat) : Bool := x % 0x8000 == 0x4000
/-- Every zero is written as 0x4000 (R174). -/
def lnsCanon (x : Nat) : Nat := if lnsZero x then 0x4000 else x % 0x10000

/-- The code of a sign and a log, with saturation to the range (R178). -/
def lnsMake (neg : Bool) (l : Int) : Res :=
  let s := b2n neg * 0x8000
  if 0x3FFF < l then { v := s + 0x3FFF, ovf := 1 }
  else if l < -0x3FFF then { v := 0x4000, unf := 1 }
  else { v := s + wrapInt 15 l }

/-- LNS_MUL (R175, R178). -/
def lnsMul (a b : Nat) : Res :=
  if lnsZero a || lnsZero b then { v := 0x4000 } else lnsMake (lnsNeg a != lnsNeg b) (lnsLog a + lnsLog b)

/-- LNS_DIV (R175, R178). -/
def lnsDiv (a b : Nat) : Res :=
  if lnsZero a then { v := 0x4000 }
  else if lnsZero b then { v := b2n (lnsNeg a != lnsNeg b) * 0x8000 + 0x3FFF, ovf := 1 }
  else lnsMake (lnsNeg a != lnsNeg b) (lnsLog a - lnsLog b)

/-- LNS_SQRT (R175, R178). -/
def lnsSqrt (a : Nat) : Res := if lnsZero a then { v := 0x4000 } else lnsMake false (divEven (lnsLog a) 2)

/-- LNS_RECIP (R175, R178). -/
def lnsRecip (a : Nat) : Res :=
  if lnsZero a then { v := b2n (lnsNeg a) * 0x8000 + 0x3FFF, ovf := 1 } else lnsMake (lnsNeg a) (-lnsLog a)

/-- Interpolation in a section of the table: `d` units of 2^-9 past its first entry, entries 32 units apart, in units of
2^-17, the whole correction rounded to nearest with ties to even; beyond the last entry the last entry (R177). -/
def lnsInterp (t : List Nat) (sgn : Int) (d : Nat) : Int :=
  let i := d / 32
  let e0 := sgn * (t.getD i 0 : Int)
  match t[i + 1]? with
  | some x => divEven (e0 * 32 + (sgn * (x : Int) - e0) * ((d % 32 : Nat) : Int)) 32
  | none => e0

/-- The correction f(d) or g(d) in units of 2^-17 (R176, R177), for d in units of 2^-9 below 16. -/
def lnsCorr (same : Bool) (d : Nat) : Int :=
  if same then lnsInterp lnsF 1 d
  else if d < 512 then -((lnsG0.getD d 0 : Nat) : Int) * 256
  else lnsInterp lnsG1 (-1) (d - 512)

/-- LNS_ADD (R176 to R178). -/
def lnsAdd (a b : Nat) : Res :=
  if lnsZero a then { v := lnsCanon b }
  else if lnsZero b then { v := lnsCanon a }
  else
    let aBig := decide (lnsLog b ≤ lnsLog a)
    let m := if aBig then lnsLog a else lnsLog b
    let d := (lnsLog a - lnsLog b).natAbs
    let neg := if aBig then lnsNeg a else lnsNeg b
    let same := lnsNeg a == lnsNeg b
    if d = 0 ∧ !same then { v := 0x4000 }
    else if 8192 ≤ d then { v := if aBig then a else b }
    else lnsMake neg (divEven (m * 256 + lnsCorr same d) 256)

/-- LNS_SUB: the sum with the second operand's sign changed. -/
def lnsSub (a b : Nat) : Res := lnsAdd a (Nat.xor b 0x8000)

/-- A key that orders codes by value (R180). -/
def lnsKey (x : Nat) : Int := if lnsZero x then 0 else if lnsNeg x then -(lnsLog x + 0x8000) else lnsLog x + 0x8000

/-- Composition of AFFINE pairs, x first (R187). -/
def lnsAffine (x y : Nat) : Res :=
  let ax := x % 0x10000
  let bx := x / 0x10000
  let ay := y % 0x10000
  let by' := y / 0x10000
  let a := lnsMul ax ay
  let p := lnsMul ay bx
  let s := lnsAdd p.v by'
  { v := lnsCanon a.v + lnsCanon s.v * 0x10000, ovf := a.ovf + p.ovf + s.ovf, unf := a.unf + p.unf + s.unf }

/-- 512 × log2 of a positive integer, to the nearest unit (R183): n with 2^(2n−1) ≤ m^1024 < 2^(2n+1). No tie exists. -/
def lnsLogOf (m : Nat) : Int := (((Nat.log2 (m ^ 1024) + 1) / 2 : Nat) : Int)

/-- An integer in LNS16 (R183). -/
def lnsFromInt (x : Int) (scale : Int) : Res :=
  if x = 0 then { v := 0x4000 } else lnsMake (decide (x < 0)) (lnsLogOf x.natAbs + scale)

/-- The largest t below 2^k with t^512 ≤ n. -/
def root512 (n : Nat) : Nat → Nat → Nat
  | 0, t => t
  | k + 1, t => if (t + 2 ^ k) ^ 512 ≤ n then root512 n k (t + 2 ^ k) else root512 n k t

/-- 2^(x/512) to the nearest integer, ties away from zero, held at 2^33 (R183). -/
def lnsExp (x : Int) : Nat :=
  if x < -512 then 0
  else if 33 * 512 ≤ x then 2 ^ 33
  else (root512 (2 ^ (512 + x).toNat) 35 0 + 1) / 2

/-- An LNS16 code as an integer of `n` bits (R183). -/
def lnsToInt (sgn : Bool) (n x : Nat) (scale : Int) : Res :=
  let m : Int := if lnsZero x then 0 else (lnsExp (lnsLog x + scale) : Int)
  let v := if lnsNeg x then -m else m
  let r := saturate sgn n v
  { v := r.1, sat := b2n r.2 }

end Sys2Proof.Machine
end

