-- ==== Sys2Proof/Machine/Vector.lean ====
section
/-! DEFINITION. The vector engine (07_vector_engine.md): element types, the operations, issue and its checks, vector
steps, faults and completion. -/

namespace Sys2Proof.Machine

/-! ## Elements -/

/-- Two's complement types. -/
def vxSigned (t : Nat) : Bool := t == 0 || t == 2 || t == 4
/-- The integer types. -/
def vxInt (t : Nat) : Bool := decide (t ≤ 2) || t == 4

/-- Elements of `b` bytes each. -/
def elems (b : Nat) (d : List Byte) : List Nat := (List.range (d.length / b)).map fun i => leNat (slice d (i * b) b)
/-- The value of an element as a number to compare (R180). -/
def vxKey (t x : Nat) : Int := if t = 3 then lnsKey x else if vxSigned t then signed (8 * vxWidth t) x else (x : Int)

/-- An output element of type `t`: every zero code becomes 0x4000 in LNS16 and in both halves of a PAIR (R174). -/
def vxCanon (t x : Nat) : Nat :=
  if t = 3 then lnsCanon x else if t = 5 then lnsCanon (x % 0x10000) + lnsCanon (x / 0x10000) * 0x10000 else x

/-- Integer ADD and SUB (R179, R180). -/
def vxAddSub (t : Nat) (sat : Bool) (v : Int) : Res :=
  let n := 8 * vxWidth t
  if sat then let r := saturate (vxSigned t) n v
              { v := r.1, sat := b2n r.2 }
  else { v := wrapInt n v }

/-- One element of VX_OP (Table VEC-3). -/
def vxOpElem (op t : Nat) (sat : Bool) (a b c : Nat) : Res :=
  let n := 8 * vxWidth t
  let k := b % n
  let ones := 2 ^ n - 1
  match op with
  | 0x00 => vxAddSub t sat (vxKey t a + vxKey t b)
  | 0x01 => vxAddSub t sat (vxKey t a - vxKey t b)
  | 0x02 => { v := a * 2 ^ k % 2 ^ n }
  | 0x03 => { v := wrapInt n (vxKey t a / ((2 ^ k : Nat) : Int)) }
  | 0x04 => { v := if vxKey t b < vxKey t a then b else a }
  | 0x05 => { v := if vxKey t a < vxKey t b then b else a }
  | 0x06 => { v := if vxKey t a < vxKey t b then ones else 0 }
  | 0x07 => { v := if vxKey t a = vxKey t b then ones else 0 }
  | 0x08 => { v := if c = 0 then b else a }
  | 0x09 => { v := Nat.land a b }
  | 0x0A => { v := Nat.lor a b }
  | 0x0B => { v := Nat.xor a b }
  | 0x10 => lnsMul a b
  | 0x11 => lnsDiv a b
  | 0x12 => lnsAdd a b
  | 0x13 => lnsSub a b
  | 0x14 => lnsSqrt a
  | 0x15 => lnsRecip a
  | _ => lnsAffine a b

/-- Whether VX_OP lists the operation for the type (Table VEC-3). -/
def vxOpTypes (op t : Nat) : Bool :=
  if op ≤ 0x03 || (0x09 ≤ op && op ≤ 0x0B) then vxInt t
  else if op ≤ 0x07 then t != 5
  else if op = 0x08 then true
  else if op ≤ 0x15 then t == 3
  else t == 5

/-- The operation codes of Table CMD-8. -/
def vxOpKnown (op : Nat) : Bool := decide (op ≤ 0x0B) || (decide (0x10 ≤ op) && decide (op ≤ 0x15)) || op == 0x18

/-- One element of VX_CONVERT (Table VEC-4). -/
def vxConvElem (fr tt : Nat) (shift : Nat) (scale : Int) (x : Nat) : Res :=
  if tt = 3 then
    if fr = 3 then (if lnsZero x then { v := 0x4000 } else lnsMake (lnsNeg x) (lnsLog x + scale))
    else lnsFromInt (vxKey fr x) scale
  else if fr = 3 then lnsToInt (vxSigned tt) (8 * vxWidth tt) x scale
  else if fr = 4 then
    let r := saturate true (8 * vxWidth tt) (roundShift (signed 32 x) shift)
    { v := r.1, sat := b2n r.2 }
  else { v := wrapInt (8 * vxWidth tt) (vxKey fr x) }

/-- The conversions of Table VEC-4, PLANES apart. -/
def vxConvTypes (fr tt : Nat) : Bool :=
  (tt == 3 && fr != 5) || (fr == 3 && (decide (tt ≤ 2) || tt == 4)) || (fr == 4 && (tt == 0 || tt == 2)) ||
  (decide (fr ≤ 1) && (tt == 2 || tt == 4)) || (fr == 2 && tt == 4)

/-- The combine of a reduction (R185): ADD, MIN, MAX, LNS_ADD. -/
def vxReduceOp (op t a b : Nat) : Res :=
  match op with
  | 0 => { v := (a + b) % 2 ^ 32 }
  | 1 => vxOpElem 0x04 t false a b 0
  | 2 => vxOpElem 0x05 t false a b 0
  | _ => lnsAdd a b

/-- The operator of a scan (R186): ADD, MAX, LNS_ADD, AFFINE. -/
def vxScanOp (op t a b : Nat) : Res :=
  match op with
  | 0 => { v := (a + b) % 2 ^ 32 }
  | 1 => vxOpElem 0x05 t false a b 0
  | 2 => lnsAdd a b
  | _ => lnsAffine a b

/-- The identity of a scan's operator (R188). -/
def vxIdentity (op t : Nat) : Nat :=
  match op with
  | 0 => 0
  | 1 => if t = 4 then 0x80000000 else 0xBFFF
  | 2 => 0x4000
  | _ => 0x40000000

/-- Five levels of the reduction tree over the lanes that hold a value (R185). -/
def vxTree (op t : Nat) : Nat → List Nat → List Res → Nat × List Res
  | 0, l, rs => (l.headD 0, rs)
  | k + 1, l, rs =>
    let rec pairUp : List Nat → List Nat × List Res
      | a :: b :: r => let x := vxReduceOp op t a b
                       let y := pairUp r
                       (x.v :: y.1, x :: y.2)
      | r => (r, [])
    let p := pairUp l
    vxTree op t k p.1 (rs ++ p.2)

/-- What a working step produces: runs of bytes from the destination base, the new running values, the counts. -/
structure VxOut where
  runs : List (Nat × List Byte) := []
  run : List Nat := []
  res : List Res := []

/-- A run of contiguous elements of step `s`. -/
def vxRun (v : VxCmd) (s : Nat) (xs : List Nat) : List (Nat × List Byte) :=
  let n := vxWidth v.outTy
  if xs.isEmpty then [] else [(s * v.perStep * n, xs.flatMap fun x => toLE n (vxCanon v.outTy x))]

/-- One lookup of VX_TABLE (R181). In DIRECT mode the index bits above an element's width are read as zero, also for a signed
type: the spec does not say (log entry 75). -/
def vxLookup (tab : Nat → Nat) (interp : Bool) (shift n x : Nat) : Nat :=
  if interp then
    let u := x % 65536
    let e := tab (u / 256)
    wrapInt 16 ((bits e 15 0 : Int) + (signed 16 (bits e 31 16) * ((u % 256 : Nat) : Int) + 128) / 256)
  else tab (bits x (shift + 7) shift) % 2 ^ n

/-- One working step of a vector command on its operands (R179 to R189). `tab` reads entry `i` of the command's table;
`ins` are the bytes each input stream delivered for the step. -/
def vxCompute (v : VxCmd) (tab : Nat → Nat) (ins : List (List Byte)) : VxOut :=
  let s := v.pos
  let t := v.ty
  let wd := vxWidth t
  let a := elems wd (ins.getD 0 [])
  match v.op with
  | 0x30 =>
    let op := bits v.w0 5 0
    let bs := bit v.w0 53
    let b := elems wd (ins.getD 1 [])
    let c := elems wd (ins.getD 2 (ins.getD 1 []))
    let sc := bits v.w1 63 32 % 2 ^ (8 * wd)
    let res := a.mapIdx fun i x => vxOpElem op t (bit v.w0 54) x (if bs then sc else b.getD i 0) (c.getD i 0)
    { runs := vxRun v s (res.map fun r => r.v), res := res }
  | 0x31 =>
    { runs := vxRun v s (a.map fun x =>
        vxLookup tab (bit v.w0 54) (bits v.w0 36 32) (8 * vxWidth v.outTy) x) }
  | 0x32 =>
    let op := bits v.w0 3 0
    let ch := v.channels
    let pos0 := bits v.w1 55 32
    let seg := bits v.w0 36 32
    let t0 := s * 32 / ch
    let c0 := s * 32 % ch
    let reset := seg != 0 && (pos0 + t0) % 2 ^ seg == 0
    let prev := (List.range 32).map fun i => if reset then vxIdentity op t else v.run.getD (c0 + i) 0
    let res := a.mapIdx fun i x => vxScanOp op t (prev.getD i 0) x
    let now := res.map fun r => vxCanon t r.v
    let outs := match v.out with
      | 0 => now
      | 1 => prev
      | 3 => now.map fun x => x / 0x10000
      | _ => []
    { runs := vxRun v s outs, run := v.run.take c0 ++ now ++ v.run.drop (c0 + 32), res := res }
  | 0x33 =>
    if v.planes then
      let sg := bit v.w0 53
      let vals := a.map fun x => saturate sg v.b (vxKey t x)
      let c := s / 32
      let r := s % 32 / 2
      { runs := (List.range v.b).map fun p =>
          ((c * v.b + p) * 512 + r * 32 + s % 2 * 16,
            toLE 16 ((vals.mapIdx fun k x => b2n (bit x.1 p) * 2 ^ k).sum))
        res := vals.map fun x => { v := x.1, sat := b2n x.2 } }
    else
      let res := a.map fun x => vxConvElem t v.outTy (bits v.w0 36 32) v.scale x
      { runs := vxRun v s (res.map fun r => r.v), res := res }
  | _ =>
    let op := bits v.w0 3 0
    let k := v.working - 5
    if s < k then
      let step := a.mapIdx fun i x => (i % 32, x)
      let (run, res) := step.foldl (fun (p : List Nat × List Res) e =>
        match p.1[e.1]? with
        | some y => let r := vxReduceOp op t y e.2
                    (p.1.set e.1 r.v, p.2 ++ [r])
        | none => (p.1 ++ [e.2], p.2)) (v.run, [])
      { run := run, res := res }
    else if s + 1 = v.working then
      let (x, res) := vxTree op t 5 v.run []
      { runs := [(0, toLE wd (vxCanon t x))], run := v.run, res := res }
    else { run := v.run }

namespace Chip

/-! ## Accesses -/

/-- A run of bytes in naturally aligned pieces of 64, 32, 16, 8 or 4 bytes (R109), at most `k` of them. -/
def vxCut : Nat → Nat → Nat → List (Nat × Nat)
  | 0, _, _ => []
  | k + 1, a, len =>
    if len = 0 then []
    else
      let m := ([64, 32, 16, 8, 4].find? fun m => decide (m ≤ len) && a % m == 0).getD len
      (a, m) :: vxCut k (a + m) (len - m)

/-- The accesses of a run of bytes at a pod address: one where it lies in the own LM, otherwise the pieces of R109, each local or
remote by its own address (R108). -/
def vxPieces (w : Chip) (n a len : Nat) : List (Nat × Nat) :=
  if w.wholeOwn n a len then [(a, len)] else vxCut (len / 64 + 8) a len

/-- The remote requests of a run fit beside those outstanding (R626). -/
def vxRoom (w : Chip) (n a len : Nat) : Bool :=
  let k := ((w.vxPieces n a len).filter fun p => !w.ownLm n p.1).length
  k == 0 || decide (w.outstanding n + k ≤ 32)

/-- The read of a run of bytes of a vector stream of slot `c`: `key` names its stream and step. -/
def vxRead (w : Chip) (n c key addr len : Nat) : Chip :=
  (w.vxPieces n addr len).foldl (fun (w : Chip) p =>
    if w.ownLm n p.1 then w.localAcc (.vx n key) n n 5 .rd (p.1 % 0x100000) p.2 [] (ctxStream n c)
    else w.remoteRead (.vx n key) n 2 c (p.1 / 2 ^ 32) (p.1 % 2 ^ 32) p.2) w

/-- The pieces of a write of a vector command, to be sent in order. -/
def vxWrites (w : Chip) (n key addr : Nat) (d : List Byte) : List (Nat × Nat × List Byte) :=
  if d.isEmpty then [] else (w.vxPieces n addr d.length).map fun p => (key, p.1, slice d (p.1 - addr) p.2)

/-- Send pieces of writes in order, the remote ones while fewer than 32 requests are outstanding (R626), and answer those left. -/
def vxSend (n c : Nat) : List (Nat × Nat × List Byte) → Chip → Chip × List (Nat × Nat × List Byte)
  | [], w => (w, [])
  | (k, a, d) :: r, w =>
    if w.ownLm n a then vxSend n c r (w.localAcc (.vx n k) n n 6 .wr (a % 0x100000) d.length d (ctxStream n c))
    else if w.outstanding n < 32 then vxSend n c r (w.remoteWrite (.vx n k) n 2 c (a / 2 ^ 32) (a % 2 ^ 32) d)
    else (w, (k, a, d) :: r)

/-- Key of step `s` of input stream `i`. -/
def rdKey (i s : Nat) : Nat := i * 2 ^ 20 + s
/-- Key of the carry-in read. -/
def carryKey : Nat := 7 * 2 ^ 20
/-- Key of the writes of step `s`. -/
def wrKey (s : Nat) : Nat := 8 * 2 ^ 20 + s
/-- Key of the carry-out write. -/
def carryOutKey : Nat := 15 * 2 ^ 20

/-- Whether an owner is an access of core `n`'s vector command. -/
def isVx (n : Nat) : AccOwner → Bool
  | .vx m _ => m == n
  | _ => false

/-- Send the writes that wait. -/
def vxFlush (w : Chip) (n : Nat) : Chip :=
  match w.vxOf n with
  | none => w
  | some v => let (w, left) := vxSend n v.slot v.wq w
              w.setVx n (some { v with wq := left })

/-- Issue the next read of a stream with its key, if its turn is before step `upto` and R626 leaves room. -/
def vxNext (w : Chip) (n c key upto : Nat) (st : VxStream) : Chip × VxStream :=
  let off := st.next * st.bytes
  let len := min st.bytes (st.total - off)
  if decide (off < st.total) && decide (st.next < upto) && w.vxRoom n (st.base + off) len then
    (w.vxRead n c key (st.base + off) len, { st with next := st.next + 1 })
  else (w, st)

/-- Issue the reads of the carry-in, as far as R626 leaves room. -/
def vxPumpCarry (w : Chip) (n : Nat) : Chip :=
  (List.range 32).foldl (fun (w : Chip) _ =>
    match w.vxOf n with
    | none => w
    | some v =>
      match v.carry with
      | none => w
      | some st => let (w, st) := w.vxNext n v.slot carryKey 32 st
                   w.setVx n (some { v with carry := some st })) w

/-- Issue the reads of input stream `i` up to four steps ahead (R192), as far as R626 leaves room. -/
def vxPumpIn (w : Chip) (n i : Nat) : Chip :=
  (List.range 4).foldl (fun (w : Chip) _ =>
    match w.vxOf n with
    | none => w
    | some v =>
      match v.ins[i]? with
      | none => w
      | some st => let (w, st) := w.vxNext n v.slot (rdKey i st.next) (v.pos + 4) st
                   w.setVx n (some { v with ins := v.ins.set i st })) w

/-- Issue what the command can issue: the writes that wait, the carry-in, then the reads of each stream. -/
def vxPump (w : Chip) (n : Nat) : Chip :=
  match w.vxOf n with
  | none => w
  | some v => (List.range v.ins.length).foldl (fun (w : Chip) i => w.vxPumpIn n i) ((w.vxFlush n).vxPumpCarry n)

/-- The bytes that the accesses of an owner delivered, in address order of their issue. -/
def vxData (w : Chip) (n key : Nat) : List Byte := (w.accsOf (.vx n key)).flatMap fun p => p.2.data

/-! ## Issue -/

/-- A vector command starts (R172, R191): three setup steps issue the first four reads and the carry-in read. -/
def vxStart (w : Chip) (n : Nat) (v : VxCmd) : Chip :=
  ((w.setVx n (some v)).addWrap (Addr.vxSteps n) F.vxSteps_COUNT 3).vxPump n

end Chip

open Chip

/-- An operand base (R193, R234): the address in its scratch value. -/
def vxBase (w : Chip) (n c sel : Nat) : Nat :=
  let a := w.scratch n c sel % 2 ^ 40
  w.resolve (a / 2 ^ 32) * 2 ^ 32 + a % 2 ^ 32

/-- ALIGN of a base in an LM (R193). -/
def vxAlign (w : Chip) (n a : Nat) : Chk :=
  alignChk (decide (a % 2 ^ 32 < 0x4000000) && a % (if w.ownLm n a then 128 else 64) != 0) a

/-- ALIGN of an operand that ends in a remote access of a size that R109 does not list (log entry 68). -/
def vxSize (w : Chip) (n a len : Nat) : Chk :=
  alignChk (decide (a % 2 ^ 32 < 0x4000000) && len % 4 != 0 && !w.ownLm n (a + len - 1)) a

/-- LM_RANGE of an operand (R234). One that runs past the end of its core's LM goes on in the next core's LM: the spec names no
fault for it (R249; log entry 74). -/
def vxRange (a len : Nat) : Chk := lmChk (decide (0x4000000 < a % 2 ^ 32 + max 1 len)) a

/-- The checks of the operand bases that a command uses: alignment of all, then range, then reach (R231). -/
def vxBaseChks (w : Chip) (n : Nat) (bs : List (Nat × Nat)) : List Chk :=
  bs.map (fun b => vxAlign w n b.1) ++ bs.map (fun b => vxSize w n b.1 b.2) ++ bs.map (fun b => vxRange b.1 b.2) ++
    bs.map (fun b => w.reachChk b.1)

/-- The operands that a command uses: their bases with their bytes. -/
def vxOperands (w : Chip) (n : Nat) (v : VxCmd) : List (Nat × Nat) := v.uses.map fun u => (vxBase w n v.slot u.1, u.2)

/-- The command that starts: its steps, its streams, its destination, and the carries of a scan. -/
def vxBuild (w : Chip) (n : Nat) (v : VxCmd) : VxCmd :=
  let base (s : Nat) : Nat := vxBase w n v.slot s
  let scan := v.op == 0x32
  { v with
    steps := v.working
    ins := v.sources.map fun s => ⟨base s, v.perStep * vxWidth v.ty, v.count * vxWidth v.ty, 0⟩
    dst := if scan && v.out == 2 then 0 else base v.selD
    carry := if scan then some ⟨base v.selB, 128, v.carryBytes, 0⟩ else none
    carryOut := if scan then base v.selC else 0 }

/-- Issue a vector command: `rng` and `comb` are its own checks of Table CMD-3; `fix` adds its indexed operand. RLC lines of its
core that take parity errors meanwhile are `perr` (R119). -/
def vxIssue (n c op : Nat) (perr : List Nat) (ops ops1 : List (Nat × Nat)) (ind : Bool) (rng comb : VxCmd → Bool)
    (fix : Chip → Cmd → Cmd) (w : Chip) : Chip :=
  let cmd (w : Chip) (x0 : Cmd) : VxCmd := let x := fix w x0; vxBlank c x.cp x.w0 x.w1
  w.issue n c op
    (fun w x0 =>
      let v := cmd w x0
      [resvChk x0 (ops ++ [(10, 8), (14, 12), (18, 16), (22, 20), (26, 24)]) ops1 ind,
       rangeChk (decide (6 ≤ v.ty) || rng v), combChk (comb v || v.unused.any fun s => s != 0)] ++
      vxBaseChks w n (vxOperands w n v))
    fun w x0 => ((w.rlcStrike n perr).vxStart n (vxBuild w n (cmd w x0)), .keep)

/-- LENGTH of the commands that count elements. -/
def lenBad (v : VxCmd) : Bool := v.length == 0 || decide (65536 < v.length)

/-- VX_OP (R179, R249, R250). -/
def vxOp (n c : Nat) (perr : List Nat) (w : Chip) : Chip :=
  let op (v : VxCmd) : Nat := bits v.w0 5 0
  vxIssue n c 0x30 perr [(5, 0), (54, 54), (53, 53)] [(16, 0), (63, 32)] false
    (fun v => !vxOpKnown (op v) || lenBad v)
    (fun v => !vxOpTypes (op v) v.ty || (bit v.w0 54 && !(decide (op v ≤ 1) && vxInt v.ty)) ||
      (!bit v.w0 53 && bits v.w1 63 32 != 0))
    (fun _ x => x) w
def execVxOp (core slot : Nat) (perr : List Nat) (s : State) : Out := s.onChip (vxOp core slot perr)

/-- VX_TABLE (R181, R249, R250). -/
def vxTable (n c : Nat) (perr : List Nat) (w : Chip) : Chip :=
  let interp (v : VxCmd) : Bool := bit v.w0 54
  let sh (v : VxCmd) : Nat := bits v.w0 36 32
  vxIssue n c 0x31 perr [(1, 0), (6, 4), (36, 32), (54, 54)] [(16, 0)] false
    (fun v => decide (6 ≤ v.outTy) || decide (24 < sh v) || lenBad v)
    (fun v => interp v && (!(v.ty == 2 || v.ty == 3) || !(v.outTy == 2 || v.outTy == 3) || sh v != 0))
    (fun _ x => x) w
def execVxTable (core slot : Nat) (perr : List Nat) (s : State) : Out := s.onChip (vxTable core slot perr)

/-- VX_SCAN (R186 to R189, R249, R250). POS is its indexed operand (R230). -/
def vxScan (n c : Nat) (perr : List Nat) (w : Chip) : Chip :=
  let opr (v : VxCmd) : Nat := bits v.w0 3 0
  let chw (v : VxCmd) : Nat := bits v.w0 45 40
  vxIssue n c 0x32 perr [(3, 0), (6, 4), (36, 32), (45, 40)] [(16, 0), (55, 32)] true
    (fun v => decide (3 < opr v) || decide (3 < v.out) || decide (23 < bits v.w0 36 32) || chw v == 0 || decide (32 < chw v) ||
      lenBad v || decide (16777216 < bits v.w1 55 32 + v.length))
    (fun v => !(if opr v = 0 then v.ty == 4 else if opr v = 1 then v.ty == 4 || v.ty == 3 else if opr v = 2 then v.ty == 3
        else v.ty == 5) || (v.out == 3 && opr v != 3))
    (fun w x => { x with w1 := putBits x.w1 55 32 (w.indexed n c x (bits x.w1 55 32) 24) }) w
def execVxScan (core slot : Nat) (perr : List Nat) (s : State) : Out := s.onChip (vxScan core slot perr)

/-- VX_CONVERT (R183, R184, R249, R250). -/
def vxConvert (n c : Nat) (perr : List Nat) (w : Chip) : Chip :=
  let sh (v : VxCmd) : Nat := bits v.w0 36 32
  let lns (v : VxCmd) : Bool := !v.planes && (v.ty == 3 || v.outTy == 3)
  let narrow (v : VxCmd) : Bool := !v.planes && v.ty == 4 && (v.outTy == 0 || v.outTy == 2)
  vxIssue n c 0x33 perr [(6, 4), (36, 32), (43, 40), (54, 53)] [(16, 0), (47, 32)] false
    (fun v => decide (6 ≤ v.outTy) || lenBad v || (v.planes && (decide (64 < v.length) || v.b == 0 || decide (8 < v.b))))
    (fun v => (if v.planes then decide (1 < v.ty) || v.outTy != 0 else !vxConvTypes v.ty v.outTy || v.b != 0 || bit v.w0 53) ||
      (sh v != 0 && !narrow v) || (bits v.w1 47 32 != 0 && !lns v))
    (fun _ x => x) w
def execVxConvert (core slot : Nat) (perr : List Nat) (s : State) : Out := s.onChip (vxConvert core slot perr)

/-- VX_REDUCE (R185, R249, R250). -/
def vxReduce (n c : Nat) (perr : List Nat) (w : Chip) : Chip :=
  let opr (v : VxCmd) : Nat := bits v.w0 3 0
  vxIssue n c 0x34 perr [(3, 0)] [(16, 0)] false
    (fun v => decide (3 < opr v) || lenBad v)
    (fun v => !(if opr v = 0 then v.ty == 4 else if opr v = 3 then v.ty == 3 else v.ty != 5))
    (fun _ x => x) w
def execVxReduce (core slot : Nat) (perr : List Nat) (s : State) : Out := s.onChip (vxReduce core slot perr)

/-! ## Steps -/

namespace Chip

/-- The accesses of core `n`'s vector command that have ended with a fault. -/
def vxBad (w : Chip) (n : Nat) : Option (Nat × Acc) := w.accs.find? fun p => isVx n p.2.owner && p.2.done && p.2.fault != 0

/-- The engine is free. What is left of the command's accesses goes on as operations of its context, which a later fence or quiesce
waits for (R137, R241), and reports nothing more (R194). -/
def vxRelease (w : Chip) (n : Nat) (v : VxCmd) : Chip :=
  let accs := w.accs.filter fun p => !(isVx n p.2.owner && p.2.done)
  let left := accs.filter fun p => isVx n p.2.owner
  let free (p : Nat × Acc) : Nat × Acc := if isVx n p.2.owner then (p.1, { p.2 with owner := .seqStore n v.slot }) else p
  let op (p : Nat × Acc) : OutOp := { id := p.1, chip := p.2.chip, own := !p.2.remote, srcCp := v.cp, word0 := v.w0,
                                      word1 := v.w1, mute := true }
  let w := { w with accs := accs.map free }.setVx n none
  if left.isEmpty then w
  else w.setSlot n v.slot { w.slot n v.slot with outs := (w.slot n v.slot).outs ++ left.map op }

/-- Data for step `s` of every input stream are present, and the carry-in for a scan's first step. -/
def vxPresent (w : Chip) (n : Nat) (v : VxCmd) : Bool :=
  ((List.range v.ins.length).all fun i =>
    match v.ins[i]? with
    | none => true
    | some st => decide (st.total ≤ v.pos * st.bytes) || (decide (v.pos < st.next) && w.accsDone (.vx n (rdKey i v.pos)))) &&
  (match v.carry with
   | none => true
   | some st => decide (st.total ≤ st.next * st.bytes) && w.accsDone (.vx n carryKey))

/-- The read for three steps ahead and the writes of two steps before have been granted, so that the step before has
ended (R192). A remote write counts as granted with its answer, a remote read with its request. -/
def vxGranted (w : Chip) (n : Nat) (v : VxCmd) : Bool :=
  ((List.range v.ins.length).all fun i =>
    match v.ins[i]? with
    | none => true
    | some st => decide (st.total ≤ (v.pos + 3) * st.bytes) || decide (v.pos + 3 < st.next)) &&
  !(w.accs.any fun p => match p.2.owner with
    | .vx m k => m == n && (if k < carryKey then !p.2.remote && w.ungranted p.1 p.2
        else decide (8 * 2 ^ 20 ≤ k) && decide (k < 15 * 2 ^ 20) && decide (k + 2 ≤ wrKey v.pos) &&
          (if p.2.remote then !p.2.done else w.ungranted p.1 p.2))
    | _ => false) && v.wq.all fun q => decide (wrKey v.pos < q.1 + 2)

/-- Add the counts of a step's results (R178, R180). -/
def vxCount (w : Chip) (n : Nat) (rs : List Res) : Chip :=
  ((w.addSat (Addr.vxSatCount n) F.vxSatCount_COUNT (rs.map fun r => r.sat).sum).addSat (Addr.vxLnsOvfCount n)
    F.vxLnsOvfCount_COUNT (rs.map fun r => r.ovf).sum).addSat (Addr.vxLnsUnfCount n) F.vxLnsUnfCount_COUNT
    (rs.map fun r => r.unf).sum

end Chip

/-- A fault after issue (R194): the command stops, ERR and VX_ERR_LOG, and its context faults at the command. -/
def vxFault (n : Nat) (v : VxCmd) (a : Acc) (w : Chip) : Chip :=
  let w := (w.vxRelease n v).setFlag (Addr.vxStatus n) F.vxStatus_ERR true
  let l := Addr.vxErrLog n
  let pod := a.chip * 2 ^ 32 + a.addr
  let w := if w.flag l F.vxErrLog_VALID then w
    else w.setReg l (a.fault + v.slot * 2 ^ 8 + 2 ^ 12 + pod % 2 ^ 40 * 2 ^ 24)
  w.raiseFault n v.slot { code := a.fault, unit := 2, srcCp := v.cp, word0 := v.w0, word1 := v.w1, addr := pod, time := w.time }
    0 false

/-- The bytes of LM of this chip in a range that the command may have changed, those of the core's own LM and of Shared
groups, become undefined (R194); for coherence that counts as a write of them (R125). -/
def undefineRange (n addr len : Nat) (b : Both) : Both :=
  let (mem, w) := b
  let a0 := addr % 2 ^ 32
  let mine (a : Nat) : Bool :=
    decide (a < 0x4000000) && (a / 0x100000 == n || w.shared (a / 0x100000) (lmGroup (a % 0x100000)))
  if w.isSelf (addr / 2 ^ 32) then
    let lines := (linesOf a0 len).filter fun l => mine (l * 64)
    ((((List.range len).zip (w.freeBytes len 0)).filter fun p => mine (a0 + p.1)).foldl
      (fun (m : List Host.Cell) p => memPut m (a0 + p.1) p.2) mem,
     lines.foldl (fun (w : Chip) l => w.sfTouch (l / 0x4000) (l * 64 % 0x100000) 64) (w.drewN len))
  else b

/-- VX_STEP (R173 to R192, R194): a working step of core `n`'s vector command, once its read data are present and the
step before has ended; or the end of a command that has met a fault. Reads and writes that waited for room (R626) are sent first. -/
def vxStep (n : Nat) (perr : List Nat) (b : Both) : Both :=
  let (mem, w) := b
  match w.vxOf n with
  | none => b
  | some v =>
    if !w.runs n then b
    else match w.vxBad n with
    | some (_, a) =>
      let b := undefineRange n v.dst v.outBytes (mem, vxFault n v a w)
      if v.op = 0x32 then undefineRange n v.carryOut v.carryBytes b else b
    | none =>
      let w := (w.rlcStrike n perr).vxPump n
      let v := (w.vxOf n).getD v
      if decide (v.steps ≤ v.pos) || !w.vxPresent n v || !w.vxGranted n v then (mem, w)
      else
        let v := match v.carry with
          | some _ => { v with run := elems (vxWidth v.ty) (w.vxData n carryKey), carry := none }
          | none => v
        let w := w.dropAccs (.vx n carryKey)
        let ins := (List.range v.ins.length).map fun i => w.vxData n (rdKey i v.pos)
        let o := vxCompute v (fun i => w.rd (Addr.vxTable n (bits v.w0 1 0) i)) ins
        let w := (List.range v.ins.length).foldl (fun (w : Chip) i => w.dropAccs (.vx n (rdKey i v.pos))) w
        let w := { w with accs := w.accs.filter fun p => match p.2.owner with
          | .vx m k => !(m == n && decide (8 * 2 ^ 20 ≤ k) && p.2.done)
          | _ => true }
        let w := (w.vxCount n o.res).addWrap (Addr.vxSteps n) F.vxSteps_COUNT 1
        let w := if v.op = 0x32 then
          w.setReg (Addr.vxPos n) ((bits v.w1 55 32 + v.pos * 32 / v.channels) % 2 ^ 24) else w
        let w := (w.setVx n (some { v with pos := v.pos + 1, run := o.run })).vxPump n
        let v' := (w.vxOf n).getD v
        let last := v.op == 0x32 && v.pos + 1 == v.steps
        let wq := o.runs.flatMap (fun r => w.vxWrites n (wrKey v.pos) (v.dst + r.1) r.2) ++
          (if last then w.vxWrites n carryOutKey v.carryOut
            (o.run.flatMap fun x => toLE (vxWidth v.ty) (vxCanon v.ty x)) else [])
        (mem, (w.setVx n (some { v' with wq := v'.wq ++ wq })).vxFlush n)

def execVxStep (core : Nat) (perr : List Nat) (s : State) : Out :=
  let r := vxStep core perr (s.mem, s.w)
  .next { s with mem := r.1, w := r.2 }

/-- VX_COMMAND_COMPLETE (R191, R195): the last write is complete, and the context is ready again. -/
def vxCommandComplete (n : Nat) (w : Chip) : Chip :=
  match w.vxOf n with
  | none => w
  | some v =>
    if w.runs n && decide (v.steps ≤ v.pos) && v.wq.isEmpty && (w.vxBad n).isNone && !(w.accs.any fun p => isVx n p.2.owner && !p.2.done) then
      let w := (w.vxRelease n v).addSat (Addr.vxCmdCount n) F.vxCmdCount_COUNT 1
      ((w.setCp n v.slot ((v.cp + 16) % 2 ^ 20)).trimFetch n v.slot).fetchDue n v.slot
    else w
def execVxCommandComplete (core : Nat) (s : State) : Out := s.onChip (vxCommandComplete core)

/-! ## Responses -/

/-- A response lets the core's matrix and vector engines issue requests that waited (R626). -/
def pumpAfter (w0 : Chip) (id : Nat) (w : Chip) : Chip :=
  match w0.msgRec? id with
  | some r => match r.dst with
    | .core n => (w.mxPump n).vxPump n
    | _ => w
  | none => w

/-- READ_DATA (R116, R118). -/
def execReadData (msg : Nat) (s : State) : Out :=
  s.onChip fun w => pumpAfter w msg (takeResponse msg (fun o => o == .readData) true w)

/-- WRITE_ACK (R124). -/
def execWriteAck (msg : Nat) (s : State) : Out :=
  s.onChip fun w => pumpAfter w msg (takeResponse msg (fun o => o == .writeAck) false w)

end Sys2Proof.Machine
end

