-- ==== Sys2Proof/Machine/Dispatch.lean ====
section
/-! DEFINITION. The dispatch of each command to its meaning. -/

namespace Sys2Proof.Machine

def exec (i : Instr) (s : State) : Host.Outcome State Fault Refusal :=
  match i with
  | .resetNAssert ns => Sys2Proof.Machine.execResetNAssert ns s
  | .resetNRelease => Sys2Proof.Machine.execResetNRelease s
  | .pwrOkFall ns => Sys2Proof.Machine.execPwrOkFall ns s
  | .registerWrite acc => Sys2Proof.Machine.execRegisterWrite acc s
  | .readToClearRead acc => Sys2Proof.Machine.execReadToClearRead acc s
  | .sizeErrAccess acc => Sys2Proof.Machine.execSizeErrAccess acc s
  | .rsvdAccess acc => Sys2Proof.Machine.execRsvdAccess acc s
  | .privWrite acc => Sys2Proof.Machine.execPrivWrite acc s
  | .sleepAccess acc => Sys2Proof.Machine.execSleepAccess acc s
  | .decLogRearm => Sys2Proof.Machine.execDecLogRearm s
  | .cfgCommit blk => Sys2Proof.Machine.execCfgCommit blk s
  | .cfgCommitApply blk unit => Sys2Proof.Machine.execCfgCommitApply blk unit s
  | .bankGrant core grp => Sys2Proof.Machine.execBankGrant core grp s
  | .wheelAdvance core => Sys2Proof.Machine.execWheelAdvance core s
  | .groupAccessComplete core grp flips => Sys2Proof.Machine.execGroupAccessComplete core grp flips s
  | .scrubWrite core grp => Sys2Proof.Machine.execScrubWrite core grp s
  | .starveDetect core grp => Sys2Proof.Machine.execStarveDetect core grp s
  | .arbiterGrant arb => Sys2Proof.Machine.execArbiterGrant arb s
  | .meshHop msg => Sys2Proof.Machine.execMeshHop msg s
  | .remoteReadAtHome msg => Sys2Proof.Machine.execRemoteReadAtHome msg s
  | .remoteWriteAtHome msg => Sys2Proof.Machine.execRemoteWriteAtHome msg s
  | .invalidationRecordOpen core => Sys2Proof.Machine.execInvalidationRecordOpen core s
  | .atomicAdd msg => Sys2Proof.Machine.execAtomicAdd msg s
  | .readData msg => Sys2Proof.Machine.execReadData msg s
  | .writeAck msg => Sys2Proof.Machine.execWriteAck msg s
  | .snoopInv msg => Sys2Proof.Machine.execSnoopInv msg s
  | .invAck msg => Sys2Proof.Machine.execInvAck msg s
  | .notHeld msg => Sys2Proof.Machine.execNotHeld msg s
  | .evictNote msg => Sys2Proof.Machine.execEvictNote msg s
  | .broadSnoopInv msg => Sys2Proof.Machine.execBroadSnoopInv msg s
  | .broadcastComplete bcast => Sys2Proof.Machine.execBroadcastComplete bcast s
  | .sweepComplete core => Sys2Proof.Machine.execSweepComplete core s
  | .rlcFlush core => Sys2Proof.Machine.execRlcFlush core s
  | .rlcDisable core => Sys2Proof.Machine.execRlcDisable core s
  | .rlcFlushComplete core => Sys2Proof.Machine.execRlcFlushComplete core s
  | .fenceComplete core slot => Sys2Proof.Machine.execFenceComplete core slot s
  | .mxLoada core slot => Sys2Proof.Machine.execMxLoada core slot s
  | .mxLoadw core slot => Sys2Proof.Machine.execMxLoadw core slot s
  | .mxBin core slot => Sys2Proof.Machine.execMxBin core slot s
  | .mxSer core slot => Sys2Proof.Machine.execMxSer core slot s
  | .mxStore core slot => Sys2Proof.Machine.execMxStore core slot s
  | .mxClear core slot => Sys2Proof.Machine.execMxClear core slot s
  | .mxWait core slot => Sys2Proof.Machine.execMxWait core slot s
  | .mxUnitStart core unit perr => Sys2Proof.Machine.execMxUnitStart core unit perr s
  | .mxCommandComplete core unit => Sys2Proof.Machine.execMxCommandComplete core unit s
  | .mxWaitResume core slot => Sys2Proof.Machine.execMxWaitResume core slot s
  | .vxOp core slot perr => Sys2Proof.Machine.execVxOp core slot perr s
  | .vxTable core slot perr => Sys2Proof.Machine.execVxTable core slot perr s
  | .vxScan core slot perr => Sys2Proof.Machine.execVxScan core slot perr s
  | .vxConvert core slot perr => Sys2Proof.Machine.execVxConvert core slot perr s
  | .vxReduce core slot perr => Sys2Proof.Machine.execVxReduce core slot perr s
  | .vxStep core perr => Sys2Proof.Machine.execVxStep core perr s
  | .vxCommandComplete core => Sys2Proof.Machine.execVxCommandComplete core s
  | .commandFetchComplete core slot => Sys2Proof.Machine.execCommandFetchComplete core slot s
  | .misalignedCp core slot => Sys2Proof.Machine.execMisalignedCp core slot s
  | .unknownOpcode core slot => Sys2Proof.Machine.execUnknownOpcode core slot s
  | .nop core slot => Sys2Proof.Machine.execNop core slot s
  | .endCommand core slot => Sys2Proof.Machine.execEndCommand core slot s
  | .jump core slot => Sys2Proof.Machine.execJump core slot s
  | .call core slot => Sys2Proof.Machine.execCall core slot s
  | .ret core slot => Sys2Proof.Machine.execRet core slot s
  | .retOffsetRead core slot => Sys2Proof.Machine.execRetOffsetRead core slot s
  | .loop core slot => Sys2Proof.Machine.execLoop core slot s
  | .endloop core slot => Sys2Proof.Machine.execEndloop core slot s
  | .yield core slot => Sys2Proof.Machine.execYield core slot s
  | .setreg core slot => Sys2Proof.Machine.execSetreg core slot s
  | .setregLoadData core slot => Sys2Proof.Machine.execSetregLoadData core slot s
  | .branchIf core slot => Sys2Proof.Machine.execBranchIf core slot s
  | .signal core slot => Sys2Proof.Machine.execSignal core slot s
  | .wait core slot => Sys2Proof.Machine.execWait core slot s
  | .fence core slot => Sys2Proof.Machine.execFence core slot s
  | .bloomArrive core slot => Sys2Proof.Machine.execBloomArrive core slot s
  | .asterArrive core slot => Sys2Proof.Machine.execAsterArrive core slot s
  | .waitBarrier core slot => Sys2Proof.Machine.execWaitBarrier core slot s
  | .dmaPost core slot => Sys2Proof.Machine.execDmaPost core slot s
  | .dmaWait core slot => Sys2Proof.Machine.execDmaWait core slot s
  | .queuePush core slot => Sys2Proof.Machine.execQueuePush core slot s
  | .queuePop core slot => Sys2Proof.Machine.execQueuePop core slot s
  | .eventRaise core slot => Sys2Proof.Machine.execEventRaise core slot s
  | .deadlineSet core slot => Sys2Proof.Machine.execDeadlineSet core slot s
  | .deadlineClear core slot => Sys2Proof.Machine.execDeadlineClear core slot s
  | .timestamp core slot => Sys2Proof.Machine.execTimestamp core slot s
  | .contextTake core slot => Sys2Proof.Machine.execContextTake core slot s
  | .waitSatisfied core slot => Sys2Proof.Machine.execWaitSatisfied core slot s
  | .seqOpStart core slot => Sys2Proof.Machine.execSeqOpStart core slot s
  | .seqOpStop core slot => Sys2Proof.Machine.execSeqOpStop core slot s
  | .seqOpSave core slot => Sys2Proof.Machine.execSeqOpSave core slot s
  | .seqOpRestore core slot => Sys2Proof.Machine.execSeqOpRestore core slot s
  | .seqOpClear core slot => Sys2Proof.Machine.execSeqOpClear core slot s
  | .quiesceComplete core slot => Sys2Proof.Machine.execQuiesceComplete core slot s
  | .saveImageWrite core slot => Sys2Proof.Machine.execSaveImageWrite core slot s
  | .restoreImageRead core slot => Sys2Proof.Machine.execRestoreImageRead core slot s
  | .deadlineMiss core slot => Sys2Proof.Machine.execDeadlineMiss core slot s
  | .asyncFaultRaise core slot => Sys2Proof.Machine.execAsyncFaultRaise core slot s
  | .localCounterAdd msg => Sys2Proof.Machine.execLocalCounterAdd msg s
  | .counterAdd msg ecc => Sys2Proof.Machine.execCounterAdd msg ecc s
  | .counterSignalWrite counter amount => Sys2Proof.Machine.execCounterSignalWrite counter amount s
  | .lcntSignalWrite core counter amount => Sys2Proof.Machine.execLcntSignalWrite core counter amount s
  | .counterValueWrite counter cfg value => Sys2Proof.Machine.execCounterValueWrite counter cfg value s
  | .waitRegister msg => Sys2Proof.Machine.execWaitRegister msg s
  | .registrationResend core slot => Sys2Proof.Machine.execRegistrationResend core slot s
  | .waitNotify msg => Sys2Proof.Machine.execWaitNotify msg s
  | .waitCancel core slot => Sys2Proof.Machine.execWaitCancel core slot s
  | .bloomArrivalApply msg => Sys2Proof.Machine.execBloomArrivalApply msg s
  | .barrierMaskWrite aster index mask kids => Sys2Proof.Machine.execBarrierMaskWrite aster index mask kids s
  | .asterArrivalApply msg kids => Sys2Proof.Machine.execAsterArrivalApply msg kids s
  | .barrierArrive msg kids => Sys2Proof.Machine.execBarrierArrive msg kids s
  | .barrierRelease msg => Sys2Proof.Machine.execBarrierRelease msg s
  | .waitTimeout core slot => Sys2Proof.Machine.execWaitTimeout core slot s
  | .queuePushPerform msg ecc => Sys2Proof.Machine.execQueuePushPerform msg ecc s
  | .queuePushCommit queue => Sys2Proof.Machine.execQueuePushCommit queue s
  | .queuePopPerform msg => Sys2Proof.Machine.execQueuePopPerform msg s
  | .queuePopDelivered queue => Sys2Proof.Machine.execQueuePopDelivered queue s
  | .dbProdWrite queue value => Sys2Proof.Machine.execDbProdWrite queue value s
  | .dbConsWrite queue value => Sys2Proof.Machine.execDbConsWrite queue value s
  | .queueHoldSet queue => Sys2Proof.Machine.execQueueHoldSet queue s
  | .queueHoldRelease queue => Sys2Proof.Machine.execQueueHoldRelease queue s
  | .dmaDescriptorFetch core chan => Sys2Proof.Machine.execDmaDescriptorFetch core chan s
  | .dmaDescriptorStart core chan => Sys2Proof.Machine.execDmaDescriptorStart core chan s
  | .dmaTransactionIssue core chan => Sys2Proof.Machine.execDmaTransactionIssue core chan s
  | .dmaTransactionComplete core chan txn => Sys2Proof.Machine.execDmaTransactionComplete core chan txn s
  | .dmaCompletionAction core chan => Sys2Proof.Machine.execDmaCompletionAction core chan s
  | .dmaHalt core chan => Sys2Proof.Machine.execDmaHalt core chan s
  | .dmaResume core chan => Sys2Proof.Machine.execDmaResume core chan s
  | .dmaSkip core chan => Sys2Proof.Machine.execDmaSkip core chan s
  | .translationWalk page => Sys2Proof.Machine.execTranslationWalk page s
  | .translationWalkComplete page => Sys2Proof.Machine.execTranslationWalkComplete page s
  | .htInvAll => Sys2Proof.Machine.execHtInvAll s
  | .htInvPage => Sys2Proof.Machine.execHtInvPage s
  | .htInvComplete => Sys2Proof.Machine.execHtInvComplete s
  | .hostReadCompletion tag status pos data => Sys2Proof.Machine.execHostReadCompletion tag status pos data s
  | .completionTimeout tag => Sys2Proof.Machine.execCompletionTimeout tag s
  | .sourceInputChange source => Sys2Proof.Machine.execSourceInputChange source s
  | .evtRaise source payload => Sys2Proof.Machine.execEvtRaise source payload s
  | .pendSet source => Sys2Proof.Machine.execPendSet source s
  | .pendClr source => Sys2Proof.Machine.execPendClr source s
  | .evtMaskWrite group set value => Sys2Proof.Machine.execEvtMaskWrite group set value s
  | .eventSelect => Sys2Proof.Machine.execEventSelect s
  | .recordClaim queue ecc => Sys2Proof.Machine.execRecordClaim queue ecc s
  | .evtComplete source => Sys2Proof.Machine.execEvtComplete source s
  | .holdoffExpiry group => Sys2Proof.Machine.execHoldoffExpiry group s
  | .coalesceTimerExpiry target => Sys2Proof.Machine.execCoalesceTimerExpiry target s
  | .eventMsg msg => Sys2Proof.Machine.execEventMsg msg s
  | .codewordReceive port units => Sys2Proof.Machine.execCodewordReceive port units s
  | .flitReceive port => Sys2Proof.Machine.execFlitReceive port s
  | .replayTimeout port => Sys2Proof.Machine.execReplayTimeout port s
  | .flitTransmit port => Sys2Proof.Machine.execFlitTransmit port s
  | .creditInit port => Sys2Proof.Machine.execCreditInit port s
  | .creditInitAck port => Sys2Proof.Machine.execCreditInitAck port s
  | .remap port => Sys2Proof.Machine.execRemap port s
  | .retrain port => Sys2Proof.Machine.execRetrain port s
  | .trainingSetReceived port sets => Sys2Proof.Machine.execTrainingSetReceived port sets s
  | .trainingStageTimeout port => Sys2Proof.Machine.execTrainingStageTimeout port s
  | .lockAchieved port => Sys2Proof.Machine.execLockAchieved port s
  | .listenBackoffExpiry port => Sys2Proof.Machine.execListenBackoffExpiry port s
  | .lossOfSignal port lane => Sys2Proof.Machine.execLossOfSignal port lane s
  | .laneFailWindow port => Sys2Proof.Machine.execLaneFailWindow port s
  | .remapTimeout port => Sys2Proof.Machine.execRemapTimeout port s
  | .quarHoldExpiry port => Sys2Proof.Machine.execQuarHoldExpiry port s
  | .lnkRetrainWrite port => Sys2Proof.Machine.execLnkRetrainWrite port s
  | .lnkReleaseWrite port => Sys2Proof.Machine.execLnkReleaseWrite port s
  | .lnkDisableWrite port on => Sys2Proof.Machine.execLnkDisableWrite port on s
  | .transactionArrival port vc core mark => Sys2Proof.Machine.execTransactionArrival port vc core mark s
  | .nakNotReady port => Sys2Proof.Machine.execNakNotReady port s
  | .notReadyRetry req => Sys2Proof.Machine.execNotReadyRetry req s
  | .epochStale port => Sys2Proof.Machine.execEpochStale port s
  | .responseArrival port vc uncached fillTag => Sys2Proof.Machine.execResponseArrival port vc uncached fillTag s
  | .flitForward port vc => Sys2Proof.Machine.execFlitForward port vc s
  | .candidate port cand serial parent => Sys2Proof.Machine.execCandidate port cand serial parent s
  | .candidatePeriodicSend => Sys2Proof.Machine.execCandidatePeriodicSend s
  | .rootDeclare => Sys2Proof.Machine.execRootDeclare s
  | .reportSend => Sys2Proof.Machine.execReportSend s
  | .report port chips => Sys2Proof.Machine.execReport port chips s
  | .newEpoch port e => Sys2Proof.Machine.execNewEpoch port e s
  | .epochAck port epoch => Sys2Proof.Machine.execEpochAck port epoch s
  | .linkEvent port evPort st partner => Sys2Proof.Machine.execLinkEvent port evPort st partner s
  | .leave port serial => Sys2Proof.Machine.execLeave port serial s
  | .timeSyncTimer => Sys2Proof.Machine.execTimeSyncTimer s
  | .timeSyncRequest port t1 => Sys2Proof.Machine.execTimeSyncRequest port t1 s
  | .timeSyncReply port t1 t2 t3 => Sys2Proof.Machine.execTimeSyncReply port t1 t2 t3 s
  | .bootSelRead sel => Sys2Proof.Machine.execBootSelRead sel s
  | .bootCtrlGo length => Sys2Proof.Machine.execBootCtrlGo length s
  | .imageCheckComplete slotA slotB => Sys2Proof.Machine.execImageCheckComplete slotA slotB s
  | .stewardReady => Sys2Proof.Machine.execStewardReady s
  | .mailboxDoorbell chan origin => Sys2Proof.Machine.execMailboxDoorbell chan origin s
  | .mailboxCommandStart => Sys2Proof.Machine.execMailboxCommandStart s
  | .mailboxCommandDone chan => Sys2Proof.Machine.execMailboxCommandDone chan s
  | .mailboxCommandTimeout chan => Sys2Proof.Machine.execMailboxCommandTimeout chan s
  | .stewardException cause spValid dump => Sys2Proof.Machine.execStewardException cause spValid dump s
  | .getInfo chan => Sys2Proof.Machine.execGetInfo chan s
  | .getStatus chan => Sys2Proof.Machine.execGetStatus chan s
  | .resetChip chan => Sys2Proof.Machine.execResetChip chan s
  | .loadImage chan => Sys2Proof.Machine.execLoadImage chan s
  | .verifyImage chan => Sys2Proof.Machine.execVerifyImage chan s
  | .contextCreate chan => Sys2Proof.Machine.execContextCreate chan s
  | .contextStart chan => Sys2Proof.Machine.execContextStart chan s
  | .contextStop chan => Sys2Proof.Machine.execContextStop chan s
  | .contextSave chan => Sys2Proof.Machine.execContextSave chan s
  | .contextRestore chan => Sys2Proof.Machine.execContextRestore chan s
  | .contextQuery chan => Sys2Proof.Machine.execContextQuery chan s
  | .queueCreate chan => Sys2Proof.Machine.execQueueCreate chan s
  | .queueDestroy chan => Sys2Proof.Machine.execQueueDestroy chan s
  | .queueResize chan => Sys2Proof.Machine.execQueueResize chan s
  | .memConfig chan => Sys2Proof.Machine.execMemConfig chan s
  | .slotTableSet chan => Sys2Proof.Machine.execSlotTableSet chan s
  | .syncConfig chan => Sys2Proof.Machine.execSyncConfig chan s
  | .barrierConfig chan kids => Sys2Proof.Machine.execBarrierConfig chan kids s
  | .eventRoute chan => Sys2Proof.Machine.execEventRoute chan s
  | .eventModerate chan => Sys2Proof.Machine.execEventModerate chan s
  | .hostMap chan => Sys2Proof.Machine.execHostMap chan s
  | .hostUnmap chan => Sys2Proof.Machine.execHostUnmap chan s
  | .podStatus chan => Sys2Proof.Machine.execPodStatus chan s
  | .podJoin chan => Sys2Proof.Machine.execPodJoin chan s
  | .podLeave chan => Sys2Proof.Machine.execPodLeave chan s
  | .linkConfig chan => Sys2Proof.Machine.execLinkConfig chan s
  | .powerSet chan => Sys2Proof.Machine.execPowerSet chan s
  | .sleepEnter chan => Sys2Proof.Machine.execSleepEnter chan s
  | .sleepDrainTimeout => Sys2Proof.Machine.execSleepDrainTimeout s
  | .corePower chan => Sys2Proof.Machine.execCorePower chan s
  | .monitorConfig chan => Sys2Proof.Machine.execMonitorConfig chan s
  | .monitorRead chan => Sys2Proof.Machine.execMonitorRead chan s
  | .deadlinePolicy chan => Sys2Proof.Machine.execDeadlinePolicy chan s
  | .faultLogRead chan => Sys2Proof.Machine.execFaultLogRead chan s
  | .faultLogClear chan => Sys2Proof.Machine.execFaultLogClear chan s
  | .audioConfig chan => Sys2Proof.Machine.execAudioConfig chan s
  | .firmwareUpdate chan => Sys2Proof.Machine.execFirmwareUpdate chan s
  | .watchdogSet chan => Sys2Proof.Machine.execWatchdogSet chan s
  | .window0Access write off len value => Sys2Proof.Machine.execWindow0Access write off len value s
  | .lmApertureAccess write off data en => Sys2Proof.Machine.execLmApertureAccess write off data en s
  | .podApertureAccess write off data => Sys2Proof.Machine.execPodApertureAccess write off data s
  | .msiXUnmask vec => Sys2Proof.Machine.execMsiXUnmask vec s
  | .pcieD3hotEntry => Sys2Proof.Machine.execPcieD3hotEntry s
  | .perstNAssert => Sys2Proof.Machine.execPerstNAssert s
  | .pcieLinkDown => Sys2Proof.Machine.execPcieLinkDown s
  | .qspiRead addr bytes late => Sys2Proof.Machine.execQspiRead addr bytes late s
  | .qspiWrite addr data => Sys2Proof.Machine.execQspiWrite addr data s
  | .qspiReadStatus => Sys2Proof.Machine.execQspiReadStatus s
  | .qspiSetLines value => Sys2Proof.Machine.execQspiSetLines value s
  | .qspiInvalidCommand cmd => Sys2Proof.Machine.execQspiInvalidCommand cmd s
  | .audioFrame port periods samples late => Sys2Proof.Machine.execAudioFrame port periods samples late s
  | .audioLineWriteComplete port => Sys2Proof.Machine.execAudioLineWriteComplete port s
  | .pmbusPoll => Sys2Proof.Machine.execPmbusPoll s
  | .pmbusTransactionEnd how => Sys2Proof.Machine.execPmbusTransactionEnd how s
  | .i2cTargetWrite data => Sys2Proof.Machine.execI2cTargetWrite data s
  | .i2cTargetRead bytes => Sys2Proof.Machine.execI2cTargetRead bytes s
  | .gpioPinChange pin level => Sys2Proof.Machine.execGpioPinChange pin level s
  | .gpioFilterExpiry pin => Sys2Proof.Machine.execGpioFilterExpiry pin s
  | .jtagExtest bsr => Sys2Proof.Machine.execJtagExtest bsr s
  | .jtagIdcode => Sys2Proof.Machine.execJtagIdcode s
  | .jtagSamplePreload levels bsr => Sys2Proof.Machine.execJtagSamplePreload levels bsr s
  | .jtagBypass code => Sys2Proof.Machine.execJtagBypass code s
  | .speedIndexUpdate core sepal low => Sys2Proof.Machine.execSpeedIndexUpdate core sepal low s
  | .adaptiveStep => Sys2Proof.Machine.execAdaptiveStep s
  | .thermalSample temps => Sys2Proof.Machine.execThermalSample temps s
  | .thermalCeilingStep => Sys2Proof.Machine.execThermalCeilingStep s
  | .thermalTrip => Sys2Proof.Machine.execThermalTrip s
  | .brownout => Sys2Proof.Machine.execBrownout s
  | .wakeAccept => Sys2Proof.Machine.execWakeAccept s
  | .vcoreOk => Sys2Proof.Machine.execVcoreOk s
  | .vcoreOkTimeout => Sys2Proof.Machine.execVcoreOkTimeout s
  | .powerGateStage => Sys2Proof.Machine.execPowerGateStage s
  | .wakeLmZeroComplete => Sys2Proof.Machine.execWakeLmZeroComplete s
  | .wakeRestoreComplete => Sys2Proof.Machine.execWakeRestoreComplete s
  | .regulatorUpdate => Sys2Proof.Machine.execRegulatorUpdate s
  | .spxFloorRearm => Sys2Proof.Machine.execSpxFloorRearm s
  | .tjPeakRearm => Sys2Proof.Machine.execTjPeakRearm s
  | .refclkLoss => Sys2Proof.Machine.execRefclkLoss s
  | .holdoverEnd => Sys2Proof.Machine.execHoldoverEnd s
  | .snapshotBoundary => Sys2Proof.Machine.execSnapshotBoundary s
  | .irisSnapGo => Sys2Proof.Machine.execIrisSnapGo s
  | .watchdogFeed => Sys2Proof.Machine.execWatchdogFeed s
  | .watchdogExpiry => Sys2Proof.Machine.execWatchdogExpiry s
  | .watchdogSnapshot => Sys2Proof.Machine.execWatchdogSnapshot s
  | .wdRelease ramOk => Sys2Proof.Machine.execWdRelease ramOk s
  | .journalEntryWrite => Sys2Proof.Machine.execJournalEntryWrite s
  | .pwrOkRise => Sys2Proof.Machine.execPwrOkRise s
  | .pcieLinkUp speed width => Sys2Proof.Machine.execPcieLinkUp speed width s
  | .pcieConfigWrite item value => Sys2Proof.Machine.execPcieConfigWrite item value s
  | .watchdogWarning => Sys2Proof.Machine.execWatchdogWarning s

end Sys2Proof.Machine
end

