-- ==== Sys2Proof/Machine/Idle.lean ====
section
/-! DEFINITION. What the T64 does when no command waits: its timebase counts (R2, R573). -/

namespace Sys2Proof.Machine

/-- One tick of the timebase: 1 ns while the logic is out of reset (log entry 1). -/
def Chip.tick (w : Chip) : Chip := if w.live then { w with time := (w.time + 1) % 2 ^ 64 } else w

/-- The step on an empty queue. -/
def idle (s : State) : Out := s.onChip Chip.tick

end Sys2Proof.Machine
end

