-- ==== Sys2Proof/Safety.lean ====
section
/-! DEFINITION. What counts as a safe state and a safe step of the model, in the terms the statements use. -/

namespace Sys2Proof.Machine

/-- The invariant of the model: the LM is held in canonical form. -/
def State.Inv (s : State) : Prop := memWf s.mem = true

/-- Command `c` is performed in `s`: the answer is a next state with the LM and the queue as they were and a block of which
`P` holds. -/
def Makes (c : Instr) (s : State) (P : Chip → Prop) : Prop := ∃ v : Chip, exec c s = .next { s with w := v } ∧ P v

/-- Command `c` is performed in `s` and changes nothing but the block, which becomes `v`. -/
def Gives (c : Instr) (s : State) (v : Chip) : Prop := exec c s = .next { s with w := v }

/-- Every register but those at the addresses `as` reads in `v` as it does in `w`. -/
def Chip.keeps (w v : Chip) (as : List Nat) : Prop := ∀ a, a ∉ as → v.rd a = w.rd a

/-- Slot `c` of core `n` is the one chosen to issue, and its next command has opcode `op` and the words of `x`; its successor
lies in LM, where the command has one. -/
def Chip.atIssue (w : Chip) (n c op : Nat) (x : Cmd) : Prop :=
  w.chosen n = some c ∧ w.cp n c = x.cp ∧ x.cp % 8 = 0 ∧ w.wordAt n c x.cp = some x.w0 ∧ opcodeOf x.w0 = op ∧
  x.w1 = (if twoWords op then (w.wordAt n c (x.cp + 8)).getD 0 else 0) ∧
  (op ≠ 1 → op ≠ 2 → op ≠ 4 → x.cp + (if twoWords op then 16 else 8) < 0x100000)

/-- The command that slot `c` of core `n` issued counts in ISSUED and names the slot in LAST (R200), and of the registers
nothing else changes but CP, SEQ_STEPS and those at `as`. -/
def Chip.counted (w v : Chip) (n c : Nat) (as : List Nat) : Prop :=
  v.rd (Addr.ctxIssued n c) = (w.rd (Addr.ctxIssued n c) + 1) % 2 ^ 64 ∧
  v.fld (Addr.seqStatus n) F.seqStatus_LAST = c ∧
  w.keeps v ([Addr.ctxCp n c, Addr.ctxIssued n c, Addr.seqStatus n, Addr.seqSteps n] ++ as)

/-- The command issued is done and the context goes on at `next`: beside registers only the slots, accesses (a fetch) and
identifiers change. -/
def Chip.goesOn (w v : Chip) (n c next : Nat) (as : List Nat) : Prop :=
  w.counted v n c as ∧ v.cp n c = next ∧ v.slotState n c = w.slotState n c ∧
  v = { w with regs := v.regs, slots := v.slots, accs := v.accs, nextId := v.nextId }

/-- Fault `f` is raised in slot `c` of core `n` at its command (R221, R222): FAULT_COUNT counts it and CP stays; with a valid
FSP the frame's 64 bytes are written below it, and the context waits for that write; with an invalid one the slot stops in
FAULTED_NOFRAME. -/
def Chip.faults (w v : Chip) (n c : Nat) (f : PFault) : Prop :=
  v.fld (Addr.ctxFaultCount n c) F.ctxFaultCount_COUNT = min (w.fld (Addr.ctxFaultCount n c) F.ctxFaultCount_COUNT + 1) (2 ^ 32 - 1) ∧
  v.cp n c = w.cp n c ∧ v.time = w.time ∧ v.committed = w.committed ∧
  (w.frameReason n c = 0 →
    let fsp := frameAddr (w.fld (Addr.ctxFsp n c) F.ctxFsp_FSP)
    v.fld (Addr.ctxFsp n c) F.ctxFsp_FSP = fsp ∧ (v.slot n c).frame = some ⟨w.nextId, f, w.cp n c, false⟩ ∧
    (v.acc w.nextId).owner = .frame n c ∧ (v.acc w.nextId).kind = .wr ∧ (v.acc w.nextId).addr = fsp % 2 ^ 32 ∧
    (v.acc w.nextId).data = frameBytes c (w.ctxId n c) (w.cp n c) 0 f) ∧
  (w.frameReason n c ≠ 0 → v.slotState n c = slNoFrame ∧
    v.fld (Addr.ctxFsp n c) F.ctxFsp_FSP = w.fld (Addr.ctxFsp n c) F.ctxFsp_FSP)

/-- Two blocks that agree in everything but messages, accesses, coherence and pod records, and identifiers: registers, time,
pins and every other working state are the same. -/
def Chip.sameButMessages (w v : Chip) : Prop :=
  v = { w with net := v.net, accs := v.accs, pod := v.pod, coh := v.coh, nextId := v.nextId }

/-- Command `m` with code `code` is in progress on mailbox channel `c` of a READY chip and has no result yet. -/
def Chip.inProgress (w : Chip) (c code : Nat) (m : MbxCmd) : Prop :=
  w.ready = true ∧ w.cmd? c = some m ∧ cmdCode m = code ∧ m.result = none

/-- The command in progress on channel `c` has its result: a status and result words. -/
def Chip.ends (v : Chip) (c status : Nat) (words : List Nat) : Prop :=
  ∃ m, v.cmd? c = some m ∧ m.result = some (status, words)

/-- The command in progress on channel `c` stands in phase `p`. -/
def Chip.inPhase (v : Chip) (c p : Nat) : Prop := ∃ m, v.cmd? c = some m ∧ m.phase = p ∧ m.result = none

/-- Every access of channel `c`'s command is done, none with a fault. -/
def Chip.fwDone (w : Chip) (c : Nat) : Prop := w.fwWaits c = false ∧ w.fwFault c = none

/-- A register whose writes and reads have no effect but on its own fields and, for staged ones, on DIRTY (R14, R53): none
that a row of its own, or a lock (R209), names. -/
def plainReg (a : Nat) : Bool :=
  if a < 0x4100000 then true
  else if a < 0x4221000 then false
  else if a < 0x4240000 then !([Addr.evtComplete, Addr.evtRaise, Addr.evtCfgCommit].contains a)
  else if a < 0x4250000 then false
  else if a < 0x4280000 then
    !([Addr.wdCtrl, Addr.irisSnap, Addr.irisCfgCommit, Addr.decLogArm, Addr.spxFloor, Addr.tjPeak, Addr.pwrCfgCommit].contains a)
  else if a < 0x4300000 then a % 0x10000 != 0x10 && a % 0x10000 != 0xFFF0
  else if a < 0x5000000 then
    !([Addr.podCfgCommit, Addr.gpioOut, Addr.gpioOe, Addr.htInv, Addr.hostCfgCommit].contains a)
  else
    let o := a % 0x40000
    o != 0 && (decide (o < 0x1000) || decide (0x2000 ≤ o)) &&
      !(decide (0x6000 ≤ o) && decide (o < 0x6400) && o % 0x100 == 8) &&
      o != 0x7FF0 && o != 0x8000 && (decide (o < 0xB000) || decide (0xB200 ≤ o))

/-- `ports` lead from chip `s` to chip `d` over links in use of the topology `t`, one port a hop. -/
inductive LinkPath (t : List RepChip) : Nat → Nat → List Nat → Prop
  | done (d : Nat) : LinkPath t d d []
  | hop (s d : Nat) (l : RepLink) (ports : List Nat) : l ∈ linksOf t s → LinkPath t l.partner d ports →
      LinkPath t s d (l.port :: ports)

end Sys2Proof.Machine
end

