-- ==== Sys2Proof/Certificates/Slice0/Obligations.lean ====
section
/-! DEFINITION. The statements about the T64 for the provers. -/

open Sys2Proof Sys2Proof.Machine

/-- A step performs the command at the front of the queue on the state whose queue is the rest. -/
def Obligations.StepRunsFrontCommand : Prop :=
  ∀ (c : Instr) (rest : List Instr) (s : State),
    step { s with pending := c :: rest } = exec c { s with pending := rest }

/-- The step on an empty queue is one tick of the timebase (log entry 1). -/
def Obligations.EmptyQueueIsOneTick : Prop :=
  ∀ s : State, s.pending = [] →
    (s.w.live = true → step s = .next { s with w := { s.w with time := (s.w.time + 1) % 2 ^ 64 } }) ∧
    (s.w.live = false → step s = .next s)

/-- What the machine holds right after reset. -/
def Obligations.ResetLeavesEveryRegisterAtItsResetValue : Prop :=
  let r := State.reset
  (∀ a, r.w.rd a = (resetWord a).toNat ∧ r.w.cfgRd a = (resetWord a).toNat) ∧
  (∀ a, memByte r.mem a = 0) ∧ r.pending = [] ∧ r.w.time = 0 ∧ r.w.accs = [] ∧ r.w.net.msgs = [] ∧ r.w.dma = [] ∧
  r.w.stw.cmds = [] ∧ r.w.phase = 0 ∧ r.w.pstate = 0 ∧ (∀ n, n < 64 → r.w.coreUp n = true) ∧
  (∀ n c, n < 64 → c < 4 → r.w.slotState n c = 0)

/-- The invariant holds after reset. -/
def Obligations.ResetMeetsTheInvariant : Prop := State.reset.Inv

/-- From every state that meets the invariant, a step of any command leads to one that meets it. -/
def Obligations.EveryStepKeepsTheLmCanonical : Prop :=
  ∀ s t : State, s.Inv → step s = .next t → t.Inv

/-- No command stops the machine or touches the queue, and all but seven leave the LM as it is. -/
def Obligations.NoCommandStopsAndSevenTouchTheLm : Prop :=
  ∀ (c : Instr) (s : State), ∃ t, exec c s = .next t ∧ t.pending = s.pending ∧
    match c with
    | .bankGrant _ _ | .scrubWrite _ _ | .mxCommandComplete _ _ | .vxStep _ _ | .stewardReady | .wakeLmZeroComplete
    | .corePower _ => True
    | _ => t.mem = s.mem

/-- The two reset inputs (R58, R445, R546, R573, R590, R614). -/
def Obligations.ResetPinsStopAndRestartTheChip : Prop :=
  let cleared (w v : Chip) : Prop :=
    (∀ a, (a < 0x4258000 ∨ 0x425A100 ≤ a) → a ≠ Addr.gpioIn → v.rd a = (resetWord a).toNat) ∧
    (∀ a, 0x4258000 ≤ a → a < 0x425A100 → v.rd a = w.rd a) ∧ (∀ a, v.cfgRd a = (resetWord a).toNat) ∧
    v.rd Addr.gpioIn = w.io.gpioLevel % 2 ^ 16 ∧ v.time = 0 ∧ v.accs = [] ∧ v.net = {} ∧ v.coh = [] ∧ v.slots = [] ∧
    v.sync = {} ∧ v.evt = {} ∧ v.pod = {} ∧ v.mx = [] ∧ v.vx = [] ∧ v.dma = [] ∧ v.que = {} ∧ v.lnk = [] ∧ v.pcie = {} ∧
    v.stw.cmds = [] ∧ v.stw.kept = [] ∧ v.stw.emerg = w.stw.emerg ∧ v.jrnl.entries = w.jrnl.entries
  ∀ (s : State) (ns : Nat),
    (s.w.pins.resetN = true → 10000 ≤ ns →
      Makes (.resetNAssert ns) s fun v => cleared s.w v ∧ v.pins = { s.w.pins with resetN := false, extest := false }) ∧
    (s.w.pins.pwrOk = true → 10000 ≤ ns →
      Makes (.pwrOkFall ns) s fun v => cleared s.w v ∧ v.pins = { s.w.pins with pwrOk := false, extest := false }) ∧
    (s.w.pins.resetN = false →
      Gives .resetNRelease s { s.w with pins := { s.w.pins with resetN := true }, time := 0 }) ∧
    (s.w.pins.pwrOk = false →
      Gives .pwrOkRise s { s.w with pins := { s.w.pins with pwrOk := true }, time := 0 })

/-- The boot ROM (R446 to R449, Table STW-2). -/
def Obligations.BootReadsItsStrapAndRunsOnlyAValidImage : Prop :=
  let others (as : List Nat) (w v : Chip) : Prop := ∀ a, a ∉ as → v.rd a = w.rd a
  ∀ (s : State), s.w.live = true →
    (∀ sel, sel < 4 → s.w.phase = 0 → 5000000 ≤ s.w.time → Makes (.bootSelRead sel) s fun v =>
      v.phase = [2, 1, 1, 6].getD sel 0 ∧ v.fld Addr.stwStatus F.stwStatus_BOOT_SRC = sel ∧ v.stw.bootSrc = sel ∧
      (∀ p, p < 8 → v.fld (Addr.lnkState p) F.lnkState_STATE = 0) ∧ v.time = s.w.time) ∧
    (∀ len, len < 2 ^ 18 → s.w.phase = 1 → Makes (.bootCtrlGo len) s fun v =>
      v.phase = 2 ∧ v.fld Addr.bootCtrl F.bootCtrl_LENGTH = len ∧ others [Addr.stwStatus, Addr.bootCtrl] s.w v ∧
      v = { s.w with regs := v.regs }) ∧
    (∀ a b i, s.w.phase = 2 → s.w.stw.bootSrc = 0 →
      (imageOf a a.length = some i → imageOf b b.length = none → Makes (.imageCheckComplete a b) s fun v =>
        v.phase = 3 ∧ v.fld Addr.stwStatus F.stwStatus_SLOT = 0 ∧ v.stw.image = some i ∧
        v.fld Addr.stwVersion F.stwVersion_PROTO = 3 ∧ others [Addr.stwStatus, Addr.stwVersion] s.w v) ∧
      (imageOf a a.length = none → imageOf b b.length = some i → Makes (.imageCheckComplete a b) s fun v =>
        v.phase = 3 ∧ v.fld Addr.stwStatus F.stwStatus_SLOT = 1 ∧ v.stw.image = some i ∧
        v.fld Addr.stwVersion F.stwVersion_PROTO = 3 ∧ others [Addr.stwStatus, Addr.stwVersion] s.w v)) ∧
    (∀ a b, s.w.phase = 2 → s.w.stw.bootSrc = 0 → imageOf a a.length = none → imageOf b b.length = none →
      Makes (.imageCheckComplete a b) s fun v =>
        v.phase = 6 ∧ others [Addr.stwStatus] s.w v ∧ v = { s.w with regs := v.regs }) ∧
    (∀ a b, s.w.phase = 2 → s.w.stw.bootSrc ≠ 0 → s.w.fld Addr.bootCtrl F.bootCtrl_LENGTH < 32 →
      Makes (.imageCheckComplete a b) s fun v =>
        v.phase = 1 ∧ v.flag Addr.stwStatus F.stwStatus_IMG_BAD = true ∧ others [Addr.stwStatus] s.w v ∧
        v = { s.w with regs := v.regs })

/-- READY (R87, R450, R565). -/
def Obligations.ReadyClearsTheLmAndOpensManagement : Prop :=
  ∀ s : State, s.w.live = true → s.w.frozen = false → s.w.phase = 3 →
    ∃ t, exec .stewardReady s = .next t ∧ t.pending = s.pending ∧ (∀ a, memByte t.mem a = 0) ∧
      (∀ q, t.w.eccMask q = 0) ∧ t.w.phase = 4 ∧ t.w.flag Addr.stwStatus F.stwStatus_READY = true ∧
      t.w.flag Addr.podCtrl F.podCtrl_MGMT_OPEN = true ∧ t.w.rd (Addr.wakeSrc 0) = 0x8FFE ∧
      t.w.cfgRd (Addr.wakeSrc 0) = 0x8FFE ∧ t.w.cfgRd (Addr.srcRoute 0xFFE) = 0x8040 ∧ t.w.time = s.w.time

/-- Accesses that reach no register (R42, R45, R47 to R49, Tables ADR-8 to ADR-10). -/
def Obligations.RefusedDeviceAccessesSetTheirFlagAndTheLog : Prop :=
  let hand (w : Chip) (a x : DevAcc) : Prop :=
    w.live = true ∧ w.devAcc? a = some x ∧ 0x4000000 ≤ x.addr ∧ x.addr < 0x8000000 ∧
    (a.src = .pcie → w.pcie.linkUp = true ∧ w.pins.perstN = true ∧ w.pcie.mse = true)
  let logged (w v : Chip) (x : DevAcc) (kind : Nat) : Prop :=
    v.flag Addr.decStatus F.decStatus_LOG_VALID = true ∧
    v.rd Addr.decLog = (if w.flag Addr.decStatus F.decStatus_LOG_VALID = true then w.rd Addr.decLog
      else (x.addr % 2 ^ 32 + (w.srcCode x.src).2 * 2 ^ 32 + kind * 2 ^ 40 + b2n x.write * 2 ^ 44 +
        (w.srcCode x.src).1 * 2 ^ 48) % 2 ^ 64) ∧
    w.keeps v [Addr.decStatus, Addr.decLog, Addr.decRsvdCount, Addr.decPrivCount, Addr.qtStatus] ∧
    v.committed = w.committed ∧ v.slots = w.slots ∧ v.que = w.que ∧ v.evt = w.evt ∧ v.time = w.time ∧ v.accs = w.accs
  let count (w : Chip) (a : Nat) : Nat := w.fld a ⟨31, 0⟩
  ∀ (s : State) (a x : DevAcc), hand s.w a x →
    (s.w.devClass x.addr x.len = 0 → Makes (.sizeErrAccess a) s fun v => logged s.w v x 3 ∧
      v.flag Addr.decStatus F.decStatus_SIZE_ERR = true ∧
      count v Addr.decRsvdCount = count s.w Addr.decRsvdCount ∧ count v Addr.decPrivCount = count s.w Addr.decPrivCount) ∧
    (s.w.devClass x.addr x.len = 3 → Makes (.rsvdAccess a) s fun v => logged s.w v x 2 ∧
      v.flag Addr.decStatus F.decStatus_RSVD_ACCESS = true ∧
      count v Addr.decRsvdCount = min (count s.w Addr.decRsvdCount + 1) (2 ^ 32 - 1) ∧
      count v Addr.decPrivCount = count s.w Addr.decPrivCount) ∧
    (s.w.devClass x.addr x.len = 1 → x.write = true → Makes (.privWrite a) s fun v => logged s.w v x 1 ∧
      v.flag Addr.decStatus F.decStatus_PRIV_WRITE = true ∧
      count v Addr.decPrivCount = min (count s.w Addr.decPrivCount + 1) (2 ^ 32 - 1) ∧
      count v Addr.decRsvdCount = count s.w Addr.decRsvdCount) ∧
    (s.w.devClass x.addr x.len = 2 → Makes (.sleepAccess a) s fun v => logged s.w v x 4 ∧
      v.flag Addr.decStatus F.decStatus_SLEEP_ACCESS = true ∧
      count v Addr.decRsvdCount = min (count s.w Addr.decRsvdCount + 1) (2 ^ 32 - 1) ∧
      count v Addr.decPrivCount = count s.w Addr.decPrivCount) ∧
    Makes .decLogRearm s fun v => v.flag Addr.decStatus F.decStatus_LOG_VALID = false ∧
      s.w.keeps v [Addr.decStatus] ∧ v = { s.w with regs := v.regs }

/-- Register writes and reads (R14, R53, R209). -/
def Obligations.RegisterWritesStageAndReadsClear : Prop :=
  let hand (w : Chip) (a x : DevAcc) : Prop :=
    w.live = true ∧ w.devAcc? a = some x ∧ (a.src = .pcie → w.pcie.linkUp = true ∧ w.pins.perstN = true ∧ w.pcie.mse = true)
  let t := Addr.i2ct
  ∀ (s : State) (a x : DevAcc), hand s.w a x →
    (x.write = true → x.addr = t → x.len = 4 → Makes (.registerWrite a) s fun v =>
      v.fld t F.i2ct_ADDR = bits x.value F.i2ct_ADDR.hi F.i2ct_ADDR.lo ∧
      v.fld t F.i2ct_EN = bits x.value F.i2ct_EN.hi F.i2ct_EN.lo ∧ v.flag Addr.hostCfgState F.hostCfgState_DIRTY = true ∧
      v.committed = s.w.committed ∧ s.w.keeps v [t, Addr.hostCfgState] ∧ v.time = s.w.time) ∧
    (∀ r b sub n c, x.write = true → 0x5000000 ≤ x.addr → x.addr < 0x6000000 → s.w.devClass x.addr x.len = 4 →
      (x.len = 4 ∨ Chip.asOne x.addr x.len = true) → regAt? x.addr = some (r, b, sub) → Chip.ctxRegOf b = some (n, c) →
      (s.w.slotState n c = slActive ∨ s.w.slotState n c = slWaiting ∨ s.w.slotState n c = slSaving) →
      Makes (.registerWrite a) s fun v =>
        v.flag (Addr.ctxStatus n c) F.ctxStatus_WR_IGNORED = true ∧ s.w.keeps v [Addr.ctxStatus n c] ∧
        v.slots = s.w.slots ∧ v.committed = s.w.committed) ∧
    (x.write = false → x.addr = Addr.decPrivCount → x.len = 4 → Makes (.readToClearRead a) s fun v =>
      v.rd Addr.decPrivCount = s.w.rd Addr.decPrivCount / 2 ^ 32 * 2 ^ 32 ∧ s.w.keeps v [Addr.decPrivCount] ∧
      (a.src = .qspi → v.io.qtOut = toLE 4 (s.w.rd Addr.decPrivCount % 2 ^ 32)) ∧
      (a.src = .pcie → v.pcie.tx = .completion 2 0x27F010 (toLE 4 (s.w.rd Addr.decPrivCount % 2 ^ 32)) :: s.w.pcie.tx)) ∧
    (0x4000000 ≤ x.addr → x.addr < 0x8000000 → s.w.devClass x.addr x.len = 4 →
      (x.len = 4 ∨ Chip.asOne x.addr x.len = true → ∀ r b sub, regAt? x.addr = some (r, b, sub) →
        let sh := if wideReg r then 8 * (x.addr % 8) else 0
        let m := (2 ^ (8 * x.len) - 1) * 2 ^ sh
        (x.write = true → r.triple = false → plainReg b = true → Makes (.registerWrite a) s fun v =>
          v.rd b = Chip.writtenFields r (s.w.rd b) m
            (maskReg b (Nat.land (x.value % 2 ^ (8 * x.len) * 2 ^ sh) m)) % 2 ^ 64 ∧
          (if r.fields.any (fun f => f.staged && bits m f.pos.hi f.pos.lo != 0) = true then
            v.flag (cfgStateAddr (blockOf b)) F.bgCfgState_DIRTY = true ∧ s.w.keeps v [b, cfgStateAddr (blockOf b)]
          else s.w.keeps v [b]) ∧
          v.committed = s.w.committed ∧ v.slots = s.w.slots ∧ v.time = s.w.time) ∧
        (x.write = true → Makes (.registerWrite a) s fun v =>
          v.regs = (s.w.writeWord x.src x.addr x.len x.value).regs) ∧
        (x.write = false → Makes (.readToClearRead a) s fun v =>
          (∀ f ∈ r.fields, f.acc = .rc → Nat.land m (2 ^ f.pos.lo) ≠ 0 → v.fld b f.pos = 0) ∧ s.w.keeps v [b] ∧
          ((∀ f ∈ r.fields, f.acc = .rc → Nat.land m (2 ^ f.pos.lo) = 0) → v.regs = s.w.regs) ∧
          (a.src = .qspi → v.io.qtOut = toLE x.len ((s.w.readReg r b m).1 / 2 ^ sh)) ∧
          (a.src = .pcie → v.pcie.tx =
            .completion 2 (x.addr - 0x4000000) (toLE x.len ((s.w.readReg r b m).1 / 2 ^ sh)) :: s.w.pcie.tx) ∧
          v.committed = s.w.committed ∧ v.slots = s.w.slots ∧ v.time = s.w.time)) ∧
      (x.len = 8 → Chip.asOne x.addr x.len = false →
        (x.write = true → Makes (.registerWrite a) s fun v =>
          v.regs = ((s.w.writeWord x.src x.addr 4 (x.value % 2 ^ 32)).writeWord x.src (x.addr + 4) 4 (x.value / 2 ^ 32)).regs) ∧
        (x.write = false → Makes (.readToClearRead a) s fun v =>
          v.regs = ((s.w.readWord x.src x.addr 4).2.readWord x.src (x.addr + 4) 4).2.regs))) ∧
    (0x4000000 ≤ x.addr → x.addr < 0x8000000 → s.w.devClass x.addr x.len = 1 → x.write = false →
      Makes (.readToClearRead a) s fun v =>
        v.regs = s.w.regs ∧ (a.src = .qspi → v.io.qtOut = toLE x.len 0) ∧
        (a.src = .pcie → v.pcie.tx = .completion 2 (x.addr - 0x4000000) (toLE x.len 0) :: s.w.pcie.tx))

/-- Iris snapshots (R582, R583). -/
def Obligations.IrisSnapshotsCopyAndClearAtABoundary : Prop :=
  let b := Addr.irisSnap
  ∀ s : State, s.w.live = true →
    (Makes .irisSnapGo s fun v => v.flag b F.irisSnap_BUSY = true ∧ s.w.keeps v [b] ∧ v = { s.w with regs := v.regs }) ∧
    (s.w.time % 1000 = 0 → s.w.flag b F.irisSnap_BUSY = true → Makes .snapshotBoundary s fun v =>
      v.flag b F.irisSnap_BUSY = false ∧ v.rd Addr.irisSnapTime = s.w.time % 2 ^ 64 ∧
      (∀ u, u < 32 →
        if bit (s.w.fld b F.irisSnap_UNITS) u = true then
          v.rd (Addr.irisMin u) = wrapInt 64 (s.w.irisLive u).min ∧ v.rd (Addr.irisMax u) = wrapInt 64 (s.w.irisLive u).max ∧
          v.rd (Addr.irisCount u) = (s.w.irisLive u).count % 2 ^ 64 ∧
          v.rd (Addr.irisSum u) = wrapInt 64 (s.w.irisLive u).sum ∧
          v.irisLive u = if s.w.flag b F.irisSnap_RESET = true then {} else s.w.irisLive u
        else v.irisLive u = s.w.irisLive u ∧ v.rd (Addr.irisMin u) = s.w.rd (Addr.irisMin u) ∧
          v.rd (Addr.irisCount u) = s.w.rd (Addr.irisCount u)) ∧
      v = { s.w with regs := v.regs, iris := v.iris })

/-- The chip watchdog (R587 to R591, Table FLT-2). -/
def Obligations.TheWatchdogFreezesAndReleasesTheChip : Prop :=
  let snap (a : Nat) : Prop := 0x4258000 ≤ a ∧ a < 0x425A100
  let stay := [Addr.tbStatus, Addr.wdFired, Addr.jrnlStatus, Addr.pwrStatus, Addr.stwVersion]
  let i := Addr.snapInfo
  ∀ s : State, s.w.live = true →
    (s.w.frozen = false → s.w.phase ≠ 5 → s.w.flag Addr.wdCfg F.wdCfg_HOST_FEED = false →
      s.w.wd.fedAt + s.w.wdPeriod / 4 ≤ s.w.time →
      Gives .watchdogFeed s { s.w with wd := { s.w.wd with fedAt := s.w.time } }) ∧
    (s.w.frozen = false → s.w.wd.fedAt + s.w.wdPeriod ≤ s.w.time → Makes .watchdogExpiry s fun v =>
      v.frozen = true ∧ v.flag Addr.stwStatus F.stwStatus_READY = false ∧ v.wd.cause = 1 ∧ v.wd.frozenAt = s.w.time ∧
      v.fld Addr.wdFired ⟨31, 0⟩ = min (s.w.fld Addr.wdFired ⟨31, 0⟩ + 1) (2 ^ 32 - 1) ∧
      s.w.keeps v [Addr.wdStatus, Addr.stwStatus, Addr.wdFired] ∧ v = { s.w with regs := v.regs, wd := v.wd }) ∧
    (s.w.frozen = true → s.w.wd.snapped = false → s.w.allStopped = true →
      s.w.flag Addr.wdCtrl F.wdCtrl_AUTO_RESET = false → Makes .watchdogSnapshot s fun v =>
      v.wd.snapped = true ∧ v = { s.w with regs := v.regs, wd := v.wd } ∧ v.flag i F.snapInfo_VALID = true ∧
      (s.w.flag i F.snapInfo_VALID = true → s.w.keeps v [i] ∧
        v.fld i F.snapInfo_LOST = min (s.w.fld i F.snapInfo_LOST + 1) (2 ^ (F.snapInfo_LOST.hi + 1 - F.snapInfo_LOST.lo) - 1)) ∧
      (s.w.flag i F.snapInfo_VALID = false → v.flag i F.snapInfo_JOURNALED = false ∧
        v.rd (Addr.snapHdr 0) = s.w.wd.frozenAt % 2 ^ 64 ∧ v.rd (Addr.snapHdr 5) = s.w.rd Addr.corePwr ∧
        v.rd (Addr.snapHdr 9) = s.w.rd Addr.chipEccLog ∧ ∀ a, ¬ snap a → v.rd a = s.w.rd a)) ∧
    (∀ ok, s.w.frozen = true → Makes (.wdRelease ok) s fun v =>
      v.phase = (if ok then 3 else if s.w.stw.bootSrc = 0 then 2 else 1) ∧ v.frozen = false ∧ v.time = s.w.time ∧
      (∀ a, snap a ∨ a ∈ stay → v.rd a = s.w.rd a) ∧
      (∀ a, ¬ snap a → a ∉ stay → a ≠ Addr.gpioIn → a ≠ Addr.vcoreStatus → a ≠ Addr.stwStatus →
        (∀ p, a ≠ Addr.mbState p) → (∀ p, a ≠ Addr.lnkState p) → v.rd a = (resetWord a).toNat) ∧
      (∀ a, v.cfgRd a = (resetWord a).toNat) ∧ v.slots = [] ∧ v.accs = [] ∧ v.stw.kept = s.w.stw.kept ∧
      v.stw.emerg = s.w.stw.emerg ∧ v.jrnl.entries = s.w.jrnl.entries ∧
      v.fld Addr.vcoreStatus F.vcoreStatus_REQ_MV = s.w.fld Addr.vcoreStatus F.vcoreStatus_REQ_MV)

/-- The fault journal (R594 to R596, Table FLT-5). -/
def Obligations.TheJournalTakesTheEarliestOccurrence : Prop :=
  let busy (w : Chip) : Nat := (w.jrnl.recent.filter fun t => decide (w.time < t + 1000000000)).length
  ∀ (s : State) (o : Occ) (r : List Occ), s.w.stewardRuns = true →
    (s.w.jrnl.tap = [] → s.w.jrnl.seen = o :: r →
      (busy s.w < 32 ∨ (6 ≤ o.kind ∧ o.kind ≤ 9) → s.w.jrnl.erasing = none → s.w.jrnl.entries.length < 1023 →
        Makes .journalEntryWrite s fun v =>
        v.jrnl.entries = spInsert s.w.jrnl.entries s.w.jrnl.next (o, s.w.chipNum?.getD 0xFF) ∧
        v.jrnl.next = s.w.jrnl.next + 1 ∧ v.jrnl.oldest = s.w.jrnl.oldest ∧ v.jrnl.seen = r ∧
        (o.kind = 3 → v.flag Addr.decStatus F.decStatus_LOG_VALID = false ∧ s.w.keeps v [Addr.decStatus]) ∧
        (o.kind = 9 → v.regs = s.w.regs) ∧ v.time = s.w.time) ∧
      (∀ es, busy s.w < 32 ∨ (6 ≤ o.kind ∧ o.kind ≤ 9) → s.w.jrnl.erasing = some es → Makes .journalEntryWrite s fun v =>
        v.jrnl.entries = s.w.jrnl.entries ∧ v.jrnl.next = s.w.jrnl.next ∧ v.jrnl.seen = r ∧
        (es.length < 16 → v.jrnl.erasing = some (es ++ [(o, s.w.chipNum?.getD 0xFF)]) ∧
          v.stw.overwritten = s.w.stw.overwritten) ∧
        (16 ≤ es.length → v.jrnl.erasing = some es ∧ v.stw.overwritten = s.w.stw.overwritten + 1)) ∧
      (32 ≤ busy s.w → ¬(6 ≤ o.kind ∧ o.kind ≤ 9) → Makes .journalEntryWrite s fun v =>
        v.jrnl = { s.w.jrnl with seen := r } ∧ v.fld Addr.jrnlStatus F.jrnlStatus_SUPPRESSED =
          min (s.w.fld Addr.jrnlStatus F.jrnlStatus_SUPPRESSED + 1) (2 ^ 32 - 1))) ∧
    (s.w.jrnl.tap = o :: r → s.w.jrnl.seen = [] → o.kind = 1 → o.code ∈ [0x07, 0x08, 0x09] →
      Gives .journalEntryWrite s { s.w with jrnl := { s.w.jrnl with tap := r } }) ∧
    (s.w.jrnl.tap = o :: r → s.w.jrnl.seen = [] → o.kind = 1 → o.code ∉ [0x07, 0x08, 0x09] →
      busy s.w < 32 → s.w.jrnl.erasing = none → s.w.jrnl.entries.length < 1023 → Makes .journalEntryWrite s fun v =>
        v.jrnl.entries = spInsert s.w.jrnl.entries s.w.jrnl.next (o, s.w.chipNum?.getD 0xFF) ∧ v.jrnl.tap = r ∧
        v.regs = s.w.regs)

/-- The grant of a word (R60 to R66, R71, R77, R78). -/
def Obligations.AGrantedWordReadsOrStoresItsBytes : Prop :=
  ∀ (s : State) (n g r : Nat) (x : WordReq) (a : Acc),
    s.w.runs n = true → g < 4 → (s.w.group n g).arbitrated = false → (s.w.group n g).taken = false →
    (s.w.group n g).merges = [] → (s.w.group n g).retry = [] → s.w.waitingReqs n g = [r] →
    s.w.freshWords n g r = [x] → s.w.acc x.acc = a → lmGroup x.off = g → 0 < x.len → x.off + x.len ≤ 0x100000 → n < 64 →
    (s.w.slotted n g = false ∨ s.w.slotCode n g (s.w.fld (Addr.wheelPos n) F.wheelPos_POS) = r) →
    ∃ t, exec (.bankGrant n g) s = .next t ∧ t.pending = s.pending ∧ t.w.time = s.w.time ∧ t.w.slots = s.w.slots ∧
      t.w.committed = s.w.committed ∧ (t.w.acc x.acc).todo = a.todo.filter (fun y => y != x) ∧
      (t.w.acc x.acc).flying = a.flying + 1 ∧ (t.w.group n g).arbitrated = true ∧ (t.w.group n g).granted = true ∧
      (a.kind = .wr → x.off % 8 = 0 → x.len % 8 = 0 → x.pos + x.len ≤ a.data.length →
        (∀ i, i < x.len → memByte t.mem (lmAddr n x.off + i) = a.data.getD (x.pos + i) 0) ∧
        ∀ b, b < lmAddr n x.off ∨ lmAddr n x.off + x.len ≤ b → memByte t.mem b = memByte s.mem b) ∧
      (a.kind = .rd → t.mem = s.mem ∧
        (t.w.acc x.acc).data = patch a.data x.pos (seenBytes s.mem s.w (lmAddr n x.off) x.len) ∧
        ((∀ q, q ∈ quartersOf x.off x.len → s.w.eccMask (lmAddr n q / 8) = 0) →
          (t.w.acc x.acc).data = patch a.data x.pos (memRead s.mem (lmAddr n x.off) x.len))) ∧
      (a.kind = .wr → x.off / 8 = (x.off + x.len - 1) / 8 → x.len < 8 → x.pos + x.len ≤ a.data.length → t.mem = s.mem ∧
        let q := x.off / 8 * 8
        ((eccRead (s.w.eccMask (lmAddr n q / 8))).1 = .uncorrectable → (t.w.group n g).merges = []) ∧
        ((eccRead (s.w.eccMask (lmAddr n q / 8))).1 ≠ .uncorrectable → (t.w.group n g).merges = [⟨x.reqr, x.acc, q,
          patch (seenBytes s.mem s.w (lmAddr n q) 8) (x.off % 8) (slice a.data x.pos x.len), false⟩]) ∧
        (s.w.eccMask (lmAddr n q / 8) = 0 → (t.w.group n g).merges = [⟨x.reqr, x.acc, q,
          patch (memRead s.mem (lmAddr n q) 8) (x.off % 8) (slice a.data x.pos x.len), false⟩]))

/-- Bank cycles (R63, R68, R70, R71, R81 to R83). -/
def Obligations.BankCyclesEndScrubAndComplete : Prop :=
  let inner (o : AccOwner) : Prop := match o with
    | .fetch _ _ | .retOff _ _ | .srLoad _ _ | .imageRead _ _ | .mx _ _ | .vx _ _ | .dma _ _ _ | .qop _ | .walk _
    | .audio _ | .fw _ => True
    | _ => False
  ∀ (s : State) (n : Nat), s.w.runs n = true →
    (Makes (.wheelAdvance n) s fun v =>
      v.fld (Addr.wheelPos n) F.wheelPos_POS = (s.w.fld (Addr.wheelPos n) F.wheelPos_POS + 1) % 8 ∧
      v.cycle n = s.w.cycle n + 1 ∧
      (∀ g, g < 4 → v.group n g = { s.w.group n g with arbitrated := false, granted := false, taken := false } ∧
        v.fld (Addr.bgLostSlots n g) ⟨31, 0⟩ = min (s.w.fld (Addr.bgLostSlots n g) ⟨31, 0⟩ +
          b2n (s.w.slotted n g && !(s.w.group n g).granted && !(s.w.group n g).taken)) (2 ^ 32 - 1)) ∧
      s.w.keeps v [Addr.wheelPos n, Addr.bgLostSlots n 0, Addr.bgLostSlots n 1, Addr.bgLostSlots n 2, Addr.bgLostSlots n 3] ∧
      v = { s.w with regs := v.regs, lm := v.lm }) ∧
    (∀ g q, n < 64 → q + 8 ≤ 0x100000 → (s.w.group n g).scrub = some q → (s.w.group n g).arbitrated = true → (s.w.group n g).granted = false →
      (s.w.group n g).taken = false → ∃ t, exec (.scrubWrite n g) s = .next t ∧ t.pending = s.pending ∧
        t.w.eccMask (lmAddr n q / 8) = 0 ∧ (∀ k, k ≠ lmAddr n q / 8 → t.w.eccMask k = s.w.eccMask k) ∧
        t.w.group n g = { s.w.group n g with scrub := none, scrubXor := 0 } ∧ t.w = { s.w with lm := t.w.lm } ∧
        memRead t.mem (lmAddr n q) 8 = toLE 8 (leNat (memRead s.mem (lmAddr n q) 8) ^^^ (s.w.group n g).scrubXor) ∧
        (∀ b, b < lmAddr n q ∨ lmAddr n q + 8 ≤ b → memByte t.mem b = memByte s.mem b) ∧
        ((s.w.group n g).scrubXor = 0 → t.mem = s.mem)) ∧
    (∀ g r, g < 4 → r ∈ [7, 8, 9] → s.w.slotted n g = false → s.w.fld (Addr.bgStarveLimit n g) F.bgStarveLimit_LIMIT ≠ 0 →
      s.w.fld (Addr.bgStarveLimit n g) F.bgStarveLimit_LIMIT < spGet (fun _ => 0) (s.w.group n g).waits r →
      Makes (.starveDetect n g) s fun v => v.flag (Addr.bgStatus n g) F.bgStatus_STARVED = true ∧
        s.w.keeps v [Addr.bgStatus n g] ∧ v = { s.w with regs := v.regs }) ∧
    (∀ g c x errs rest, (s.w.group n g).flying = ⟨c, [x], [], errs⟩ :: rest → c + 2 ≤ s.w.cycle n → g < 4 → lmGroup x.off = g →
      (s.w.acc x.acc).kind = .rd → (s.w.acc x.acc).todo = [] → (s.w.acc x.acc).flying = 1 →
      (s.w.acc x.acc).merging = 0 → (s.w.acc x.acc).recd = [] → (s.w.acc x.acc).recWait = 0 → (s.w.acc x.acc).parts = 0 →
      (s.w.acc x.acc).done = false → s.w.retrying (s.w.acc x.acc).home x.acc = false → inner (s.w.acc x.acc).owner →
      (errs = [] → Makes (.groupAccessComplete n g []) s fun v =>
        v.acc x.acc = { s.w.acc x.acc with flying := 0, done := true } ∧ (v.group n g).flying = rest ∧
        v = { s.w with accs := v.accs, lm := v.lm }) ∧
      (∀ e : EccSeen, errs = [e] → e.acc = x.acc → lmGroup e.off = g → (eccRead e.mask).1 = .corrected →
        Makes (.groupAccessComplete n g []) s fun v =>
        v.acc x.acc = { s.w.acc x.acc with flying := 0, done := true } ∧
        (e.live = true → (s.w.group n g).scrub = none → (v.group n g).scrub = some e.off) ∧
        v.flag (Addr.bgStatus n g) F.bgStatus_CE = true ∧
        v.fld (Addr.bgCeCount n g) ⟨31, 0⟩ = min (s.w.fld (Addr.bgCeCount n g) ⟨31, 0⟩ + 1) (2 ^ 32 - 1)) ∧
      (∀ e : EccSeen, errs = [e] → e.acc = x.acc → lmGroup e.off = g → (eccRead e.mask).1 = .uncorrectable →
        Makes (.groupAccessComplete n g []) s fun v =>
        (v.acc x.acc).done = true ∧ (v.acc x.acc).fault = 0x0F ∧ (v.acc x.acc).addr = lmAddr n e.off ∧
        v.flag (Addr.bgStatus n g) F.bgStatus_UE = true ∧
        v.fld (Addr.bgUeCount n g) ⟨31, 0⟩ = min (s.w.fld (Addr.bgUeCount n g) ⟨31, 0⟩ + 1) (2 ^ 32 - 1)))

/-- Acceptance and application of a commit (R53 to R57, Table ADR-4). -/
def Obligations.CommitsCopyAndApplyTheStagedSet : Prop :=
  let listed (t : Table (BitVec 64)) (a : Nat) (x : BitVec 64) : Prop := (a, x) ∈ t ∧ ∀ p, p ∈ t → p.1 = a → p.2 = x
  let within (blk : CfgBlock) (a : Nat) : Prop := (cfgRange blk).1 ≤ a ∧ a < (cfgRange blk).2
  let taken (w v : Chip) (lo hi : Nat) : Prop :=
    (∀ a, lo ≤ a → a < hi → (∀ x, listed w.copied a x → v.cfgRd a = x.toNat) ∧
      ((∀ p, p ∈ w.copied → p.1 ≠ a) → v.cfgRd a = (resetWord a).toNat)) ∧
    ∀ a, (a < lo ∨ hi ≤ a) → v.cfgRd a = w.cfgRd a
  ∀ (s : State) (blk : CfgBlock), s.w.live = true → s.w.blockUp blk = true →
    let st := cfgStateAddr blk
    (s.w.cfgPending blk = true → Makes (.cfgCommit blk) s fun v =>
      v.flag st F.bgCfgState_LOST_COMMIT = true ∧ s.w.keeps v [st] ∧ v = { s.w with regs := v.regs }) ∧
    (s.w.cfgPending blk = false → Makes (.cfgCommit blk) s fun v =>
      v.cfgPending blk = true ∧ v.flag st F.bgCfgState_DIRTY = false ∧ s.w.keeps v [st] ∧
      (∀ a x, within blk a → listed s.w.regs a x →
        if stagedPart a x.toNat = stagedPart a (resetWord a).toNat then ∀ p, p ∈ v.copied → p.1 ≠ a
        else listed v.copied a (BitVec.ofNat 64 (stagedPart a x.toNat))) ∧
      v = { s.w with regs := v.regs, copied := v.copied, commitAt := v.commitAt, io := v.io }) ∧
    (∀ u, s.w.cfgPending blk = true → s.w.atCommitPoint blk = true → blk ≠ .host → Makes (.cfgCommitApply blk u) s fun v =>
      v.cfgPending blk = false ∧
      v.fld st F.bgCfgState_GEN = (s.w.fld st F.bgCfgState_GEN + 1) % 2 ^ 16 ∧
      taken s.w v (cfgRange blk).1 (cfgRange blk).2 ∧ v.time = s.w.time ∧
      ((blk = .power ∨ blk = .pod ∨ ∃ p, blk = .link p) → s.w.keeps v [st] ∧
        v = { s.w with regs := v.regs, committed := v.committed })) ∧
    (∀ u, blk = .host → (u = 3 ∨ u = 4) → u ∉ s.w.io.unitsDone → s.w.cfgPending blk = true →
      Makes (.cfgCommitApply blk u) s fun v =>
        taken s.w v (hostUnit u).1 (hostUnit u).2 ∧ v.io.unitsDone = u :: s.w.io.unitsDone ∧
        v.cfgPending blk = decide (s.w.io.unitsDone.length ≠ 4))

/-- Hops of the mesh (R625). -/
def Obligations.FlitsHopAlongTheRowAndThenTheColumn : Prop :=
  let dist (a b : Nat) : Nat := (a % 8 - b % 8) + (b % 8 - a % 8) + (a / 8 - b / 8) + (b / 8 - a / 8)
  (∀ r d, r < 64 → d < 64 → r ≠ d →
    dist (nextRouter r d) d + 1 = dist r d ∧ (r % 8 ≠ d % 8 → nextRouter r d / 8 = r / 8)) ∧
  ∀ (s : State) (f : Flit) (rest : List Flit) (r : MsgRec), s.w.live = true → s.w.net.flits = f :: rest →
    s.w.msgRec? f.msg = some r →
    let d := routerOf s.w.switchedOn r.dst r.src
    let nx := nextRouter f.router d
    (nx ≠ d → Gives (.meshHop f.msg) s
      { s.w with net := { s.w.net with flits := rest ++ [{ f with router := nx, entry := none }] } }) ∧
    (nx = d → Makes (.meshHop f.msg) s fun v => v.net.flits = rest ∧
      v = { s.w with net := v.net, nextId := v.nextId } ∧
      v.msgRec? f.msg = some (if r.arrived + 1 = r.total then
        { r with stage := arriveStage r.msg r.dst, cls := arriveClass r.msg r.dst, arrived := r.total, sent := 0,
                 stamp := s.w.nextId }
        else { r with arrived := r.arrived + 1 }))

/-- Arbitration (R90 to R101, Tables ARB-1 and ARB-2). -/
def Obligations.ArbitersChooseByForceCreditWaitAndTieOrder : Prop :=
  (∀ (p : ArbParams) (a : Arb) (elig ready : List Nat) (c : Nat), p = portParams ∨ p = entryParams ∨ p = linkParams →
    arbWinner p a elig = some c →
    c ∈ elig ∧ c ∈ p.tie ∧
    (p.limited = true → (∃ k, k ∈ elig ∧ 32 ≤ tget a.wait k) →
      32 ≤ tget a.wait c ∧ ∀ k, k ∈ elig → tget a.wait k ≤ tget a.wait c) ∧
    ((p.limited = false ∨ ∀ k, k ∈ elig → tget a.wait k < 32) →
      (masked p a c = true → ∀ k, k ∈ elig → masked p a k = true) ∧
      ∀ k, k ∈ elig → masked p a k = masked p a c →
        tget a.credit k ≤ tget a.credit c ∧
        (tget a.credit k = tget a.credit c → tget a.wait k ≤ tget a.wait c ∧
          (tget a.wait k = tget a.wait c → k ∈ p.tie → p.tie.idxOf c ≤ p.tie.idxOf k))) ∧
    (let b := arbCount p a c elig ready
     tget b.credit c = tget a.credit c - 1 ∧ tget b.wait c = 0 ∧ b.grants = (a.grants + 1) % 64 ∧
     ∀ k, k ∈ p.tie → k ≠ c → tget b.credit k = tget a.credit k ∧
      tget b.wait k = if ready.contains k = false then 0 else if elig.contains k then tget a.wait k + 1 else tget a.wait k)) ∧
  ∀ (s : State) (n c id : Nat) (r : MsgRec), s.w.live = true → n < 64 →
    (s.w.atPort n c = [(id, r)] → c < 4 → (∀ k, k < 4 → k ≠ c → s.w.atPort n k = []) → (s.w.inboundUsed n < 32 ∨ c = 2) →
      Makes (.arbiterGrant n) s fun v => v.msgRec? id = some { r with stage := .admitted } ∧
        (v.arb n).grants = ((s.w.arb n).grants + 1) % 64 ∧ v = { s.w with net := v.net }) ∧
    (s.w.atEntry n c = [(id, r)] → c < 6 → (∀ k, k < 6 → k ≠ c → s.w.atEntry n k = []) → s.w.buffersUsed n c < 2 →
      r.sent + 1 < r.total → routerOf s.w.switchedOn r.dst r.src ≠ n →
      Makes (.arbiterGrant (64 + n)) s fun v => v.msgRec? id = some { r with sent := r.sent + 1, stage := .entry } ∧
        v.net.flits = s.w.net.flits ++ [⟨id, n, some (n, c)⟩] ∧ v = { s.w with net := v.net }) ∧
    (let elig := (s.w.portReady n).filter fun k => k == 2 || decide (s.w.inboundUsed n < 32)
     let a := refillWindow portParams (s.w.arb n)
     arbWinner portParams a elig = some c → oldest (s.w.atPort n c) = some (id, r) → Makes (.arbiterGrant n) s fun v =>
      v.msgRec? id = some { r with stage := .admitted } ∧ v.arb n = arbCount portParams a c elig (s.w.portReady n) ∧
      v = { s.w with net := v.net }) ∧
    (let elig := (s.w.entryReady n).filter fun k => decide (s.w.buffersUsed n k < 2)
     let a := refillWindow entryParams (s.w.arb (64 + n))
     let here := routerOf s.w.switchedOn r.dst r.src = n
     arbWinner entryParams a elig = some c → oldest (s.w.atEntry n c) = some (id, r) → Makes (.arbiterGrant (64 + n)) s fun v =>
      v.arb (64 + n) = arbCount entryParams a c elig (s.w.entryReady n) ∧
      (¬ here → v.net.flits = s.w.net.flits ++ [⟨id, n, some (n, c)⟩] ∧
        v.msgRec? id = some { r with sent := r.sent + 1, stage := if r.sent + 1 = r.total then .mesh else .entry }) ∧
      (here → v.net.flits = s.w.net.flits ∧ (r.arrived + 1 = r.total →
        v.msgRec? id = some { r with stage := arriveStage r.msg r.dst, cls := arriveClass r.msg r.dst, arrived := r.total,
                                     sent := 0, stamp := s.w.nextId })) ∧
      v = { s.w with net := v.net, nextId := v.nextId }) ∧
    (∀ p k, p < 8 → s.w.portLive p = true →
     let elig := (s.w.linkReady p).filter fun k => s.w.linkTakes p k
     let a := refillWindow linkParams (s.w.arb (128 + p))
     let flits := match r.src with | .port _ => r.total | _ => linkFlits r.msg
     arbWinner linkParams a elig = some c → s.w.linkNext p c = some (k, id, r) → Makes (.arbiterGrant (128 + p)) s fun v =>
      v.lp p = { s.w.lp p with txq := some (s.w.flitOf r r.sent) } ∧
      v.msgRec? id = (if r.sent + 1 = flits then none else some { r with sent := r.sent + 1 }) ∧
      tget (v.arb (128 + p)).credit c = tget a.credit c - 1 ∧ tget (v.arb (128 + p)).source c = k + 1 ∧
      (v.arb (128 + p)).grants = (a.grants + 1) % 64 ∧ v = { s.w with net := v.net, lnk := v.lnk })

/-- Requests at their home (R75, R110, R111, R121 to R123). -/
def Obligations.RequestsAreServedOrRefusedAtTheirHome : Prop :=
  let noEntry (w : Chip) (h : Nat) (m : Msg) (len : Nat) : Prop := ∀ l, l ∈ Chip.linesOf (m.addr % 0x100000) len →
    (w.cohOf h).recs.find? (fun r => r.line == l) = none ∧
    (spGet (fun _ => []) (w.cohOf h).sf (l % 512)).any (fun e => e.line == l) = false
  let served (w v : Chip) (h id : Nat) (r : MsgRec) (k : AccKind) : Prop :=
    v.msgRec? id = some { r with stage := .serving } ∧ v.nextId = w.nextId + 1 ∧ (v.acc w.nextId).owner = .serve id ∧
    (v.acc w.nextId).home = h ∧ (v.acc w.nextId).reqr = 9 ∧ (v.acc w.nextId).kind = k ∧
    (v.acc w.nextId).addr = lmAddr h (r.msg.addr % 0x100000) ∧
    let len := if k = .add then addLen r.msg else r.msg.len
    (v.acc w.nextId).len = len ∧ (k ≠ .rd → (v.acc w.nextId).data = r.msg.data.take len)
  ∀ (s : State) (id h : Nat) (r : MsgRec), s.w.live = true → s.w.msgRec? id = some r → r.dst = .core h →
    (r.stage = .portQ → s.w.portRefusal h r.msg ≠ 0 →
      let out := (s.w.dropMsg id).restArb h portParams ((s.w.dropMsg id).portReady h)
      (r.msg.op = .read → Gives (.remoteReadAtHome id) s
        (out.answer (.core h) r.msg .readData (s.w.portRefusal h r.msg) 0 [])) ∧
      (r.msg.op = .write → Gives (.remoteWriteAtHome id) s
        (out.answer (.core h) r.msg .writeAck (s.w.portRefusal h r.msg) 0 [])) ∧
      (r.msg.op = .atomicAdd → bit r.msg.arg 1 = false → Gives (.atomicAdd id) s
        (out.answer (.core h) r.msg .readData (s.w.portRefusal h r.msg) 0 []))) ∧
    (s.w.mayServe h r = true →
      (r.msg.op = .read → r.msg.uncached = true → r.msg.fillTag = 0 → Makes (.remoteReadAtHome id) s fun v =>
        served s.w v h id r .rd ∧ v = { s.w with net := v.net, accs := v.accs, nextId := v.nextId }) ∧
      (r.msg.op = .read → Chip.mayFill r.msg = true →
        s.w.shared h (lmGroup (r.msg.addr % 0x100000 / 64 * 64)) = true →
        lmGroup (r.msg.addr % 0x100000 / 64 * 64) ∉ (s.w.cohOf h).sweep → h ∉ s.w.goingDown →
        spGet (fun _ => []) (s.w.cohOf h).sf (r.msg.addr % 0x100000 / 64 % 512) = [] →
        (s.w.cohOf h).recs.any (fun x => x.line == r.msg.addr % 0x100000 / 64) = false → Makes (.remoteReadAtHome id) s fun v =>
          spGet (fun _ => []) (v.cohOf h).sf (r.msg.addr % 0x100000 / 64 % 512) =
            [{ line := r.msg.addr % 0x100000 / 64, sharers := [⟨r.msg.srcChip, r.msg.srcCore, (s.w.cohOf h).nextTag⟩] }] ∧
          (v.cohOf h).nextTag = ((s.w.cohOf h).nextTag + 1) % 65536 ∧
          served s.w v h id { r with msg := { r.msg with uncached := false, fillTag := (s.w.cohOf h).nextTag } } .rd ∧
          v.regs = s.w.regs) ∧
      (r.msg.op = .read → s.w.shared h (lmGroup (r.msg.addr % 0x100000 / 64 * 64)) = false →
        Makes (.remoteReadAtHome id) s fun v => v.coh = s.w.coh ∧
          served s.w v h id { r with msg := { r.msg with uncached := true, fillTag := 0 } } .rd) ∧
      (r.msg.op = .write → noEntry s.w h r.msg r.msg.len → Makes (.remoteWriteAtHome id) s fun v =>
        served s.w v h id r .wr ∧ v = { s.w with net := v.net, accs := v.accs, nextId := v.nextId }) ∧
      (r.msg.op = .atomicAdd → bit r.msg.arg 1 = false → noEntry s.w h r.msg (addLen r.msg) → Makes (.atomicAdd id) s fun v =>
        served s.w v h id r .add ∧ v = { s.w with net := v.net, accs := v.accs, nextId := v.nextId }))

/-- Snoops, answers and records (R116, R118, R124, R127 to R129, R627, Table COH-2). -/
def Obligations.SnoopsDropLinesAndAnswersCloseRecords : Prop :=
  let ways (w : Chip) (n l : Nat) : List SfEntry := spGet (fun _ => []) (w.cohOf n).sf (l % 512)
  ∀ (s : State) (id n : Nat) (r : MsgRec), s.w.live = true →
    (s.w.msgRec? id = some r → r.stage = .admitted → r.dst = .core n →
      (r.msg.op = .snoopInv → r.msg.arg ≠ 2 →
        let l := lineOf r.msg.srcChip r.msg.addr
        let held := (s.w.rlcWays n (rlcSet l)).any (fun x => x.line == l) || (s.w.cohOf n).fills.any (fun f => f.line == l)
        Makes (.snoopInv id) s fun v =>
          (∀ x, x ∈ v.rlcWays n (rlcSet l) ↔ x ∈ s.w.rlcWays n (rlcSet l) ∧ x.line ≠ l) ∧
          (∀ f, f ∈ (v.cohOf n).fills → f.line = l → f.snooped = true) ∧
          (∃ a, v.msgRec? s.w.nextId = some a ∧ a.msg.op = (if held then .invAck else .notHeld) ∧
            a.dst = s.w.towards r.msg.srcChip (.core r.msg.srcCore) ∧ a.msg.tid = r.msg.tid ∧ a.msg.pos = n) ∧
          v.fld (if held then Addr.rlcSnoopHits n else Addr.rlcSnoopMisses n) ⟨31, 0⟩ =
            min (s.w.fld (if held then Addr.rlcSnoopHits n else Addr.rlcSnoopMisses n) ⟨31, 0⟩ + 1) (2 ^ 32 - 1) ∧
          s.w.keeps v [Addr.rlcSnoopHits n, Addr.rlcSnoopMisses n]) ∧
      (∀ op c, (op = .invAck ∧ c = .invAck id) ∨ (op = .notHeld ∧ c = .notHeld id) → r.msg.op = op → r.msg.arg ≠ 1 →
        (∀ x, (s.w.cohOf n).recs.find? (fun x => x.tid == r.msg.tid && x.broad == false) = some x →
          (r.msg.srcChip, r.msg.pos) ∈ x.left →
          (x.left.filter (fun y => y != (r.msg.srcChip, r.msg.pos)) ≠ [] → Makes c s fun v =>
            (v.cohOf n).recs = (s.w.cohOf n).recs.map (fun y => if y.tid = x.tid then
              { x with left := x.left.filter (fun y => y != (r.msg.srcChip, r.msg.pos)) } else y) ∧ v.regs = s.w.regs) ∧
          (x.left.filter (fun y => y != (r.msg.srcChip, r.msg.pos)) = [] →
            (∀ p, p ∈ s.w.accs → x.tid ∉ p.2.recd) → Makes c s fun v =>
            (v.cohOf n).recs = (s.w.cohOf n).recs.filter (fun y => y.tid != x.tid) ∧
            ways v n x.line = (ways s.w n x.line).filter (fun e => e.line != x.line) ∧ v.accs = s.w.accs ∧
            v.regs = s.w.regs)) ∧
        ((s.w.cohOf n).recs = [] → Makes c s fun v =>
          v.fld (Addr.sfLateCount n) ⟨31, 0⟩ = min (s.w.fld (Addr.sfLateCount n) ⟨31, 0⟩ + 1) (2 ^ 32 - 1) ∧
          s.w.keeps v [Addr.sfLateCount n] ∧ v.coh = s.w.coh ∧ v.accs = s.w.accs)) ∧
      (r.msg.op = .evictNote →
        let l := r.msg.addr % 0x100000 / 64
        let me : Sharer := ⟨r.msg.srcChip, r.msg.srcCore, r.msg.fillTag⟩
        ((∀ e, e ∈ ways s.w n l → e.line ≠ l) → Makes (.evictNote id) s fun v => v.coh = s.w.coh ∧
          v.fld (Addr.sfLateCount n) ⟨31, 0⟩ = min (s.w.fld (Addr.sfLateCount n) ⟨31, 0⟩ + 1) (2 ^ 32 - 1)) ∧
        (∀ e, ways s.w n l = [e] → e.line = l → e.broad = false → (s.w.cohOf n).recs = [] → me ∈ e.sharers →
          Makes (.evictNote id) s fun v => v.regs = s.w.regs ∧ v.accs = s.w.accs ∧
            ways v n l = if e.sharers.filter (fun x => x != me) = [] then []
              else [{ e with sharers := e.sharers.filter (fun x => x != me) }]) ∧
        (∀ e, ways s.w n l = [e] → e.line = l → me ∉ e.sharers → Makes (.evictNote id) s fun v => v.coh = s.w.coh ∧
          v.fld (Addr.sfLateCount n) ⟨31, 0⟩ = min (s.w.fld (Addr.sfLateCount n) ⟨31, 0⟩ + 1) (2 ^ 32 - 1)))) ∧
    (∀ l k rest, (s.w.cohOf n).waiting = ⟨l, some k⟩ :: rest → (s.w.cohOf n).recs.length < 16 →
      (∀ x, (s.w.cohOf n).recs.find? (fun x => x.line == l) = some x → Makes (.invalidationRecordOpen n) s fun v =>
        (v.acc k).recd = x.tid :: (s.w.acc k).recd ∧ (v.acc k).recWait = (s.w.acc k).recWait - 1 ∧
        (v.cohOf n).waiting = rest ∧ (v.cohOf n).recs = (s.w.cohOf n).recs ∧ v.regs = s.w.regs) ∧
      (∀ e, (s.w.cohOf n).recs.find? (fun x => x.line == l) = none → ways s.w n l = [e] → e.line = l → e.broad = false →
        Makes (.invalidationRecordOpen n) s fun v =>
          (v.acc k).recd = (s.w.cohOf n).nextTid :: (s.w.acc k).recd ∧ (v.cohOf n).waiting = rest ∧
          (v.cohOf n).recs = (s.w.cohOf n).recs ++ [⟨(s.w.cohOf n).nextTid, l, e.sharers.map (fun x => (x.chip, x.core)),
            e.sharers.map (fun x => (x.chip, x.core)), false, false⟩]))

/-- Flush, disable, sweep and broadcast (R118, R120, R126, R131). -/
def Obligations.FlushesSweepsAndBroadcasts : Prop :=
  let dropped (w v : Chip) (n : Nat) : Prop :=
    (v.cohOf n).sets = [] ∧ (v.cohOf n).fills = (w.cohOf n).fills.map (fun f => { f with flushed := true }) ∧
    v.flag (Addr.rlcStatus n) F.rlcStatus_FLUSHING = true ∧
    v.fld (Addr.rlcEvicts n) ⟨31, 0⟩ =
      min (w.fld (Addr.rlcEvicts n) ⟨31, 0⟩ + ((w.cohOf n).sets.flatMap fun p => p.2).length) (2 ^ 32 - 1) ∧
    w.keeps v [Addr.rlcCtrl n, Addr.rlcStatus n, Addr.rlcEvicts n] ∧ v.accs = w.accs
  ∀ (s : State) (n : Nat),
    (s.w.runs n = true → Makes (.rlcFlush n) s fun v => dropped s.w v n ∧ v.flag (Addr.rlcCtrl n) F.rlcCtrl_FLUSH = true) ∧
    (s.w.runs n = true → s.w.flag (Addr.rlcCtrl n) F.rlcCtrl_ENABLE = true → Makes (.rlcDisable n) s fun v =>
      dropped s.w v n ∧ v.flag (Addr.rlcCtrl n) F.rlcCtrl_ENABLE = false) ∧
    (s.w.live = true → s.w.flag (Addr.rlcStatus n) F.rlcStatus_FLUSHING = true →
      (∀ f, f ∈ (s.w.cohOf n).fills → f.flushed = false) →
      (∀ p, p ∈ s.w.net.msgs → p.2.stage = .entry → p.2.src = .core n → p.2.msg.op ≠ .evictNote) →
      Makes (.rlcFlushComplete n) s fun v =>
        v.flag (Addr.rlcStatus n) F.rlcStatus_FLUSHING = false ∧ v.flag (Addr.rlcCtrl n) F.rlcCtrl_FLUSH = false ∧
        s.w.keeps v [Addr.rlcStatus n, Addr.rlcCtrl n] ∧ v = { s.w with regs := v.regs }) ∧
    (s.w.live = true → (s.w.cohOf n).sweep ≠ [] →
      (∀ p, p ∈ (s.w.cohOf n).sf → ∀ e, e ∈ p.2 → lmGroup (e.line * 64) ∉ (s.w.cohOf n).sweep) →
      Makes (.sweepComplete n) s fun v => v.flag (Addr.sfStatus n) F.sfStatus_SWEEP = false ∧
        v.cohOf n = { s.w.cohOf n with sweep := [] } ∧ s.w.keeps v [Addr.sfStatus n] ∧
        v = { s.w with regs := v.regs, coh := v.coh }) ∧
    (∀ id r, s.w.live = true → s.w.msgRec? id = some r → r.stage = .hub → r.msg.op = .snoopInv →
      Makes (.broadSnoopInv id) s fun v =>
        v.net.bcast = s.w.net.bcast ++ [⟨s.w.nextId, r.msg, (List.range 64).filter fun k => s.w.coreUp k⟩] ∧
        s.w.sameButMessages v) ∧
    (∀ b, s.w.live = true → s.w.net.bcast = [b] → b.left = [] → Makes (.broadcastComplete b.id) s fun v =>
      v.net.bcast = [] ∧ s.w.sameButMessages v ∧ ∃ a, v.msgRec? s.w.nextId = some a ∧ a.msg.op = .invAck ∧
        a.msg.arg = 1 ∧ a.msg.tid = b.msg.tid)

/-- Fetch and faults (R204, R221, R222, R227, R229, R628). -/
def Obligations.FetchesArriveAndFaultsAreRaised : Prop :=
  ∀ (s : State) (n c : Nat), s.w.runs n = true → c < 4 →
    (∀ id, (s.w.slot n c).fetch = some id → (s.w.acc id).done = true →
      ((s.w.acc id).fault = 0 → Makes (.commandFetchComplete n c) s fun v =>
        (v.slot n c).fbuf = (if (s.w.slot n c).fbuf = [] then (s.w.acc id).data.drop (s.w.cp n c - (s.w.slot n c).fetchOff)
          else (s.w.slot n c).fbuf ++ (s.w.acc id).data) ∧
        v = { s.w with slots := v.slots, accs := v.accs, nextId := v.nextId }) ∧
      (let f : PFault :=
        { code := (s.w.acc id).fault, unit := 0, srcCp := s.w.cp n c, addr := 255 * 2 ^ 32 + (s.w.acc id).addr
          time := s.w.time }
       (s.w.acc id).fault ≠ 0 → Makes (.commandFetchComplete n c) s fun v =>
        v.slot n c = { s.w.slot n c with fetch := none, faults := (s.w.slot n c).faults ++ [f] } ∧
        v = { s.w with slots := v.slots, accs := v.accs })) ∧
    ((s.w.slot n c).deferred = 0 → s.w.slotState n c = slActive →
      (s.w.chosen n = some c → s.w.cp n c % 8 ≠ 0 → Makes (.misalignedCp n c) s fun v =>
        s.w.faults v n c { code := 3, unit := 0, srcCp := s.w.cp n c, time := s.w.time } ∧
        v.rd (Addr.ctxIssued n c) = s.w.rd (Addr.ctxIssued n c)) ∧
      (∀ op x, s.w.atIssue n c op x → knownOpcode op = false → Makes (.unknownOpcode n c) s fun v =>
        s.w.faults v n c { code := 1, unit := 0, detail := 1, srcCp := x.cp, word0 := x.w0, time := s.w.time } ∧
        v.rd (Addr.ctxIssued n c) = s.w.rd (Addr.ctxIssued n c)) ∧
      (∀ i op x, (i, op) ∈ [(Instr.nop n c, 0x00), (.endCommand n c, 0x01), (.ret n c, 0x04), (.endloop n c, 0x06),
          (.yield n c, 0x07)] → s.w.atIssue n c op x → x.w0 ≠ op * 2 ^ 56 → Makes i s fun v =>
        s.w.faults v n c { code := 1, unit := 0, detail := 2, srcCp := x.cp, word0 := x.w0, time := s.w.time } ∧
        v.rd (Addr.ctxIssued n c) = s.w.rd (Addr.ctxIssued n c)) ∧
      (∀ f rest, (s.w.slot n c).faults = f :: rest → s.w.atBoundary n c = true → (s.w.slot n c).quiesce ≠ .write →
        Makes (.asyncFaultRaise n c) s fun v => s.w.faults v n c f ∧ (v.slot n c).faults = rest))

/-- Control commands (R200, R203, R210, R233 to R238). -/
def Obligations.ControlCommandsSetTheCommandPointer : Prop :=
  ∀ (s : State) (n c : Nat) (x : Cmd), c < 4 →
    let t := s.w.indexed n c x (bits x.w0 19 0) 20
    let stack := Addr.ctxCstack n c
    let d := s.w.loopDepth n c
    (s.w.atIssue n c 0x00 x → x.w0 = 0 → Makes (.nop n c) s fun v => s.w.goesOn v n c (x.cp + 8) []) ∧
    (s.w.atIssue n c 0x02 x → (resvChk x [(19, 0)] [] true).bad = false →
      (t % 8 = 0 → Makes (.jump n c) s fun v => s.w.goesOn v n c t []) ∧
      (t % 8 ≠ 0 → (s.w.slot n c).deferred = 0 → s.w.slotState n c = slActive → Makes (.jump n c) s fun v =>
        s.w.faults v n c { code := 3, unit := 0, srcCp := x.cp, word0 := x.w0, word1 := x.w1, time := s.w.time })) ∧
    (s.w.atIssue n c 0x03 x → (resvChk x [(19, 0)] [] true).bad = false → t % 8 = 0 →
      s.w.fld stack F.ctxCstack_CSP_LIMIT + 8 ≤ s.w.csp n c → (s.w.slot n c).fetch ≠ some s.w.nextId →
      Makes (.call n c) s fun v => s.w.goesOn v n c t [stack] ∧ v.csp n c = s.w.csp n c - 8 ∧
        (v.acc s.w.nextId).owner = .seqStore n c ∧ (v.acc s.w.nextId).kind = .wr ∧
        (v.acc s.w.nextId).addr = lmAddr n (s.w.csp n c - 8) ∧ (v.acc s.w.nextId).data = toLE 8 (x.cp + 8)) ∧
    (s.w.atIssue n c 0x04 x → x.w0 = 0x04 * 2 ^ 56 → s.w.csp n c ≠ s.w.fld stack F.ctxCstack_CSP_TOP →
      Makes (.ret n c) s fun v => s.w.goesOn v n c x.cp [] ∧ (v.slot n c).pend = some s.w.nextId ∧
        (v.acc s.w.nextId).owner = .retOff n c ∧ (v.acc s.w.nextId).addr = lmAddr n (s.w.csp n c) ∧
        (v.acc s.w.nextId).kind = .rd ∧ (v.acc s.w.nextId).len = 8) ∧
    (∀ id, s.w.runs n = true → (s.w.slot n c).pend = some id → (s.w.acc id).owner = .retOff n c → (s.w.acc id).done = true →
      (s.w.acc id).fault = 0 →
      (leNat (s.w.acc id).data % 8 = 0 → Makes (.retOffsetRead n c) s fun v =>
        v.cp n c = leNat (s.w.acc id).data % 2 ^ 20 ∧ v.csp n c = (s.w.csp n c + 8) % 2 ^ 20 ∧ (v.slot n c).pend = none ∧
        s.w.keeps v [stack, Addr.ctxCp n c]) ∧
      (leNat (s.w.acc id).data % 8 ≠ 0 → (s.w.slot n c).deferred = 0 → s.w.slotState n c = slActive →
        Makes (.retOffsetRead n c) s fun v => v.csp n c = s.w.csp n c ∧
          s.w.faults v n c { code := 3, unit := 0, srcCp := s.w.cp n c, word0 := 0x04 * 2 ^ 56, time := s.w.time })) ∧
    (s.w.atIssue n c 0x05 x → (resvChk x [(19, 0), (47, 20)] [] true).bad = false → bits x.w0 19 0 % 8 = 0 →
      let k := s.w.indexed n c x (bits x.w0 47 20) 32
      (k = 0 → Makes (.loop n c) s fun v => s.w.goesOn v n c (bits x.w0 19 0) []) ∧
      (k ≠ 0 → d < 4 → Makes (.loop n c) s fun v =>
        s.w.goesOn v n c (x.cp + 8) [Addr.ctxLoop n c d, Addr.ctxSched n c] ∧ v.loopDepth n c = d + 1 ∧
        v.fld (Addr.ctxLoop n c d) F.ctxLoop_START = x.cp + 8 ∧ v.fld (Addr.ctxLoop n c d) F.ctxLoop_COUNT = k)) ∧
    (s.w.atIssue n c 0x06 x → x.w0 = 0x06 * 2 ^ 56 → 0 < d → d ≤ 4 →
      let l := Addr.ctxLoop n c (d - 1)
      let k := (s.w.fld l F.ctxLoop_COUNT + 2 ^ 32 - 1) % 2 ^ 32
      (k ≠ 0 → Makes (.endloop n c) s fun v => s.w.goesOn v n c (s.w.fld l F.ctxLoop_START) [l] ∧
        v.fld l F.ctxLoop_COUNT = k ∧ v.loopDepth n c = d) ∧
      (k = 0 → Makes (.endloop n c) s fun v => s.w.goesOn v n c (x.cp + 8) [l, Addr.ctxSched n c] ∧
        v.loopDepth n c = d - 1)) ∧
    (s.w.atIssue n c 0x07 x → x.w0 = 0x07 * 2 ^ 56 → Makes (.yield n c) s fun v => s.w.goesOn v n c (x.cp + 8) [] ∧
      let held := [0, 1, 2, 3].all fun k => !s.w.readyBase n k || s.w.yielding n k
      let others := [0, 1, 2, 3].filter fun k => k != c && s.w.readyBase n k && (held || !s.w.yielding n k)
      (v.slot n c).yieldFor = if others = [] then none else some others) ∧
    (s.w.atIssue n c 0x09 x → (resvChk x [(19, 0), (22, 20), (27, 24)] [(63, 0)] false).bad = false →
      bits x.w0 27 24 < 8 → bits x.w0 19 0 % 8 = 0 → Makes (.branchIf n c) s fun v =>
        s.w.goesOn v n c (if condHolds (bits x.w0 27 24) (s.w.scratch n c (bits x.w0 22 20)) x.w1 = true then bits x.w0 19 0
          else x.cp + 16) [])

/-- Scratch values, fences and deadlines (R137, R217, R220, R237, R241, R256, R257, R577). -/
def Obligations.ScratchFenceAndDeadlineCommands : Prop :=
  ∀ (s : State) (n c : Nat) (x : Cmd), c < 4 →
    let d := bits x.w0 2 0
    let sch := Addr.ctxSched n c
    (s.w.atIssue n c 0x08 x →
      (onlyBits x.w0 [(63, 56), (2, 0), (6, 4)] = true → bits x.w0 6 4 ∈ [0, 1, 3] → x.w1 < 2 ^ 64 →
        Makes (.setreg n c) s fun v => s.w.goesOn v n c (x.cp + 16) [Addr.ctxS n c d] ∧
          v.scratch n c d = (match bits x.w0 6 4 with
            | 0 => x.w1
            | 1 => (s.w.scratch n c d + x.w1) % 2 ^ 64
            | _ => Nat.land (s.w.scratch n c d) x.w1)) ∧
      (onlyBits x.w0 [(63, 56), (2, 0), (6, 4), (10, 8)] = true → bits x.w0 6 4 = 2 → x.w1 = 0 →
        Makes (.setreg n c) s fun v => s.w.goesOn v n c (x.cp + 16) [Addr.ctxS n c d] ∧
          v.scratch n c d = s.w.scratch n c (bits x.w0 10 8)) ∧
      ((resvChk x [(2, 0), (6, 4)] [(19, 0)] true).bad = false → s.w.indexed n c x (bits x.w1 19 0) 20 % 8 = 0 →
        (bits x.w0 6 4 = 4 → Makes (.setreg n c) s fun v => s.w.goesOn v n c x.cp [] ∧
          (v.slot n c).pend = some s.w.nextId ∧ (v.acc s.w.nextId).owner = .srLoad n c ∧ (v.acc s.w.nextId).kind = .rd ∧
          (v.acc s.w.nextId).addr = lmAddr n (s.w.indexed n c x (bits x.w1 19 0) 20) ∧ (v.acc s.w.nextId).len = 8) ∧
        (bits x.w0 6 4 = 5 → Makes (.setreg n c) s fun v => s.w.goesOn v n c (x.cp + 16) [] ∧
          (v.acc s.w.nextId).owner = .seqStore n c ∧ (v.acc s.w.nextId).kind = .wr ∧
          (v.acc s.w.nextId).addr = lmAddr n (s.w.indexed n c x (bits x.w1 19 0) 20) ∧
          (v.acc s.w.nextId).data = toLE 8 (s.w.scratch n c d)))) ∧
    (∀ id, s.w.runs n = true → (s.w.slot n c).pend = some id → (s.w.acc id).owner = .srLoad n c → (s.w.acc id).done = true →
      (s.w.acc id).fault = 0 → Makes (.setregLoadData n c) s fun v =>
        let r := bits ((s.w.wordAt n c (s.w.cp n c)).getD 0) 2 0
        v.scratch n c r = leNat (s.w.acc id).data % 2 ^ 64 ∧ v.cp n c = (s.w.cp n c + 16) % 2 ^ 20 ∧
        (v.slot n c).pend = none ∧ s.w.keeps v [Addr.ctxS n c r, Addr.ctxCp n c]) ∧
    (s.w.atIssue n c 0x72 x → onlyBits x.w0 [(63, 56), (2, 0)] = true → Makes (.timestamp n c) s fun v =>
      s.w.goesOn v n c (x.cp + 8) [Addr.ctxS n c d] ∧ v.scratch n c d = s.w.time % 2 ^ 64) ∧
    (s.w.atIssue n c 0x12 x → onlyBits x.w0 [(63, 56), (1, 0)] = true → bits x.w0 1 0 < 3 →
      let ids := ((s.w.slot n c).outs.filter fun o => o.fenced && (if bits x.w0 1 0 = 0 then o.own
        else if bits x.w0 1 0 = 1 then o.chip == 255 else true)).map fun o => o.id
      Makes (.fence n c) s fun v => s.w.goesOn v n c (x.cp + 8) [] ∧
        (ids = [] → (v.slot n c).fence = (s.w.slot n c).fence) ∧ (ids ≠ [] → (v.slot n c).fence = some ids)) ∧
    (∀ ids, s.w.runs n = true → (s.w.slot n c).fence = some ids → (∀ i o, i ∈ ids → o ∈ (s.w.slot n c).outs → o.id ≠ i) →
      s.w.fld (Addr.ctxWdLimit n c) F.ctxWdLimit_WD_LIMIT = 0 → Makes (.fenceComplete n c) s fun v =>
        (v.slot n c).fence = none ∧ v = { s.w with slots := v.slots, accs := v.accs, nextId := v.nextId }) ∧
    (s.w.atIssue n c 0x70 x → (resvChk x [(54, 54)] [(63, 0)] true).bad = false → s.w.dlArmed n c = false →
      Makes (.deadlineSet n c) s fun v => s.w.goesOn v n c (x.cp + 16) [sch, Addr.ctxDeadline n c] ∧
        v.deadline n c = (x.w1 + s.w.indexOf n c x + (if bit x.w0 54 then s.w.time else 0)) % 2 ^ 64 ∧
        v.dlArmed n c = true ∧ v.dlMissed n c = false) ∧
    (s.w.atIssue n c 0x71 x → x.w0 = 0x71 * 2 ^ 56 → s.w.dlArmed n c = false → Makes (.deadlineClear n c) s fun v =>
      s.w.goesOn v n c (x.cp + 8) [sch] ∧ v.dlArmed n c = false ∧ v.dlMissed n c = false) ∧
    (∀ i op, (i, op) ∈ [(Instr.deadlineSet n c, 0x70), (.deadlineClear n c, 0x71)] → s.w.atIssue n c op x →
      s.w.dlArmed n c = true → s.w.dlAbort n c = true → s.w.deadline n c < s.w.time → Makes i s fun v =>
        v.dlMissed n c = true ∧ (v.slot n c).quiesce = .abort ∧ v.cp n c = s.w.cp n c ∧
        v.deadline n c = s.w.deadline n c ∧ v.dlArmed n c = true) ∧
    (s.w.runs n = true → s.w.slotState n c ≠ slEmpty → (s.w.slot n c).quiesce ≠ .write → s.w.dlArmed n c = true →
      s.w.dlMissed n c = false → s.w.deadline n c < s.w.time → Makes (.deadlineMiss n c) s fun v =>
        v.dlMissed n c = true ∧ s.w.keeps v [sch] ∧ (v.slot n c).missAt = some s.w.time ∧
        (s.w.dlAbort n c = false → (v.slot n c).quiesce = (s.w.slot n c).quiesce ∧ v.mx = s.w.mx) ∧
        (s.w.dlAbort n c = true →
          (v.slot n c).quiesce = (if (s.w.slot n c).quiesce = .no then .abort else (s.w.slot n c).quiesce) ∧
          ∀ q, q ∈ (v.mxOf n).queue ↔ q ∈ (s.w.mxOf n).queue ∧ ¬ (q.slot = c ∧ q.ctxId = s.w.ctxId n c)))

/-- Slot operations (R206, R207, R211 to R216, Table SEQ-5). -/
def Obligations.SlotOperationsStartStopSaveAndRestore : Prop :=
  let op (n : Nat) : Nat := Addr.seqOp n
  let ended (w v : Chip) (n res : Nat) : Prop :=
    v.flag (op n) F.seqOp_BUSY = false ∧ v.fld (op n) F.seqOp_RESULT = res ∧ v.time = w.time
  let busy (w v : Chip) (n : Nat) : Prop := v.flag (op n) F.seqOp_BUSY = true ∧ v.time = w.time
  ∀ (s : State) (n c : Nat), s.w.runs n = true → c < 4 →
    let st := s.w.slotState n c
    let fail (i : Instr) (res : Nat) : Prop := Makes i s fun v =>
      ended s.w v n res ∧ s.w.keeps v [op n] ∧ v = { s.w with regs := v.regs }
    (s.w.flag (op n) F.seqOp_BUSY = true → ∀ i, i ∈ [Instr.seqOpStart n c, .seqOpStop n c, .seqOpSave n c, .seqOpRestore n c,
      .seqOpClear n c] → Makes i s fun v => v.flag (op n) F.seqOp_OP_LOST = true ∧ s.w.keeps v [op n] ∧
        v = { s.w with regs := v.regs }) ∧
    (s.w.flag (op n) F.seqOp_BUSY = false → s.w.faultPends n c = true →
      ∀ i k, (i, k) ∈ [(Instr.seqOpStart n c, 1), (.seqOpStop n c, 2), (.seqOpRestore n c, 4), (.seqOpClear n c, 5)] →
      Makes i s fun v => busy s.w v n ∧ v.slot n c = { s.w.slot n c with deferred := k } ∧ s.w.keeps v [op n] ∧
        v = { s.w with regs := v.regs, slots := v.slots }) ∧
    (s.w.flag (op n) F.seqOp_BUSY = false → s.w.faultPends n c = false →
      (st ∈ [slStopped, slFaulted, slNoFrame] → Makes (.seqOpStart n c) s fun v =>
        ended s.w v n 0 ∧ v.slotState n c = slActive ∧ v.cp n c = s.w.cp n c ∧
        s.w.keeps v [op n, Addr.ctxHdr n c, Addr.ctxCp n c]) ∧
      (st ∉ [slStopped, slFaulted, slNoFrame] → fail (.seqOpStart n c) 1 ∧ fail (.seqOpClear n c) 1) ∧
      ((s.w.slot n c).quiesce = .no →
        (st = slActive → Makes (.seqOpStop n c) s fun v => busy s.w v n ∧ s.w.keeps v [op n] ∧
          v.slot n c = { s.w.slot n c with quiesce := .stop, heldWait := false }) ∧
        (st ≠ slActive → st ≠ slWaiting → fail (.seqOpStop n c) 1) ∧
        (st = slActive → s.w.fld (Addr.ctxCsa n c) F.ctxCsa_CSA % 512 = 0 → Makes (.seqOpSave n c) s fun v =>
          busy s.w v n ∧ v.slotState n c = slSaving ∧ s.w.keeps v [op n, Addr.ctxHdr n c] ∧
          v.slot n c = { s.w.slot n c with quiesce := .save, savedState := slActive, heldWait := false }) ∧
        (st = slEmpty ∨ st = slSaving → fail (.seqOpSave n c) 1) ∧
        (st = slActive → s.w.fld (Addr.ctxCsa n c) F.ctxCsa_CSA % 512 ≠ 0 → fail (.seqOpSave n c) 2)) ∧
      (st = slEmpty → s.w.fld (Addr.seqOpAddr n) F.seqOpAddr_OFFSET % 512 = 0 → Makes (.seqOpRestore n c) s fun v =>
        busy s.w v n ∧ (v.acc s.w.nextId).owner = .imageRead n c ∧ (v.acc s.w.nextId).len = 512 ∧
        (v.acc s.w.nextId).addr = lmAddr n (s.w.fld (Addr.seqOpAddr n) F.seqOpAddr_OFFSET) ∧ s.w.keeps v [op n]) ∧
      (st ≠ slEmpty → fail (.seqOpRestore n c) 1) ∧
      (st = slEmpty → s.w.fld (Addr.seqOpAddr n) F.seqOpAddr_OFFSET % 512 ≠ 0 → fail (.seqOpRestore n c) 2) ∧
      (st ∈ [slStopped, slFaulted, slNoFrame] → Makes (.seqOpClear n c) s fun v =>
        ended s.w v n 0 ∧ v.slotState n c = slEmpty ∧ v.slot n c = { cancel := (s.w.slot n c).cancel } ∧ s.w.keeps v [op n, Addr.ctxHdr n c])) ∧
    (∀ x, s.w.atIssue n c 0x01 x → x.w0 = 2 ^ 56 → s.w.missPending n c = false → st = slActive →
      Makes (.endCommand n c) s fun v => v.cp n c = x.cp ∧
        s.w.counted v n c [Addr.ctxHdr n c, Addr.ctxQbind n c] ∧
        (s.w.flag (Addr.ctxQbind n c) F.ctxQbind_BOUND = false → v.slotState n c = slStopped ∧
          v.fld (Addr.ctxHdr n c) F.ctxHdr_STOP_CAUSE = 1) ∧
        (s.w.flag (Addr.ctxQbind n c) F.ctxQbind_BOUND = true → v.slotState n c = slActive ∧
          v.flag (Addr.ctxQbind n c) F.ctxQbind_TAKE = true)) ∧
    ((s.w.slot n c).quiesce = .stop → (s.w.slot n c).fence = none → s.w.quiet n c = true → st = slActive →
      s.w.missPending n c = false → s.w.abortPending n c = false → Makes (.quiesceComplete n c) s fun v =>
        ended s.w v n 0 ∧ v.slotState n c = slStopped ∧ v.fld (Addr.ctxHdr n c) F.ctxHdr_STOP_CAUSE = 2 ∧
        (v.slot n c).quiesce = .no ∧ (v.slot n c).fbuf = [] ∧
        s.w.keeps v [op n, Addr.ctxHdr n c, Addr.ctxSched n c]) ∧
    ((s.w.slot n c).quiesce = .dma → (s.w.slot n c).frame = none → (s.w.slot n c).faults = [] →
      s.w.fld (Addr.ctxStatus n c) F.ctxStatus_DMA_OUT = 0 → s.w.abortPending n c = false → Makes (.saveImageWrite n c) s fun v =>
        (v.acc s.w.nextId).owner = .imageWrite n c ∧ (v.acc s.w.nextId).kind = .wr ∧
        (v.acc s.w.nextId).addr = lmAddr n (s.w.fld (Addr.ctxCsa n c) F.ctxCsa_CSA) ∧
        (v.acc s.w.nextId).data = s.w.imageBytes n c ∧ v.slot n c = { s.w.slot n c with quiesce := .write } ∧
        v = { s.w with slots := v.slots, accs := v.accs, nextId := v.nextId }) ∧
    (∀ id a, s.w.accsOf (.imageRead n c) = [(id, a)] → a.done = true →
      let h := leNat (slice a.data 0 8)
      (a.fault = 0 → bits h 7 0 = 1 → bits h 11 8 ∈ [1, 2, 3, 4, 5] → Makes (.restoreImageRead n c) s fun v =>
        ended s.w v n 0 ∧ v.fld (Addr.ctxStatus n c) F.ctxStatus_DMA_OUT = 0 ∧
        (∀ i, i < 30 → v.rd (Addr.ctxHdr n c + 8 * i) =
          maskReg (Addr.ctxHdr n c + 8 * i) (leNat (slice a.data (8 * i) 8)) % 2 ^ 64)) ∧
      (a.fault ≠ 0 ∨ bits h 7 0 ≠ 1 ∨ bits h 11 8 ∉ [1, 2, 3, 4, 5] → Makes (.restoreImageRead n c) s fun v =>
        ended s.w v n 3 ∧ s.w.keeps v [op n] ∧ v.slots = s.w.slots))

/-- Matrix commands at issue (R143, R155, R164, R165, R245 to R248). -/
def Obligations.MatrixCommandsQueueAtIssueAndWaitForTheirEnd : Prop :=
  ∀ (s : State) (n c : Nat) (x : Cmd), c < 4 →
    let a := s.w.indexed n c x (bits x.w0 39 0) 40
    let queued (next : Nat) (q : MxCmd) (v : Chip) : Prop :=
      (v.mxOf n) = { s.w.mxOf n with queue := (s.w.mxOf n).queue ++ [{ q with
        id := s.w.nextId, op := opcodeOf x.w0, slot := c, ctxId := s.w.ctxId n c, cp := x.cp, w0 := x.w0, w1 := x.w1 }] } ∧
      s.w.counted v n c [] ∧ v.cp n c = next ∧
      v = { s.w with regs := v.regs, slots := v.slots, accs := v.accs, nextId := v.nextId, mx := v.mx }
    let tooMany (v : Chip) : Prop :=
      s.w.faults v n c { code := 1, unit := 0, detail := 3, srcCp := x.cp, word0 := x.w0, word1 := x.w1, time := s.w.time }
    (∀ i op size, (i, op, size) ∈ [(Instr.mxLoada n c, 0x21, 64), (.mxLoadw n c, 0x20, 128)] → s.w.atIssue n c op x →
      (resvChk x [(39, 0)] [(6, 0), (23, 16)] true).bad = false → 0 < bits x.w1 23 16 →
      bits x.w1 6 0 + bits x.w1 23 16 ≤ size → a % 32 = 0 → a % 2 ^ 32 < 0x4000000 →
      a % 0x100000 + bits x.w1 23 16 * 512 ≤ 0x100000 → s.w.issueFault (a / 2 ^ 32) (a % 2 ^ 32) = 0 →
      Makes i s (queued (x.cp + 16) { mxBlank with
        addr := s.w.resolve (a / 2 ^ 32) * 2 ^ 32 + a % 2 ^ 32, blk := bits x.w1 6 0, len := bits x.w1 23 16 })) ∧
    (s.w.atIssue n c 0x22 x → (resvChk x [(5, 0), (14, 8), (22, 16), (32, 24), (41, 40), (54, 54)] [] false).bad = false →
      let k := bits x.w0 22 16
      let last := bits x.w0 32 24
      (0 < k → k ≤ 64 → 0 < last → last ≤ 256 → bits x.w0 5 0 + k ≤ 64 → bits x.w0 14 8 + k ≤ 128 →
        Makes (.mxBin n c) s (queued (x.cp + 8) { mxBlank with
          ablk := bits x.w0 5 0, wblk := bits x.w0 14 8, chunks := k, klast := last, set := bits x.w0 41 40,
          init := bit x.w0 54 })) ∧
      (k = 0 ∨ 64 < k ∨ last = 0 ∨ 256 < last → (s.w.slot n c).deferred = 0 → Makes (.mxBin n c) s tooMany)) ∧
    (s.w.atIssue n c 0x23 x →
      (resvChk x [(5, 0), (14, 8), (22, 16), (27, 24), (31, 28), (41, 40), (54, 52)] [] false).bad = false →
      let k := bits x.w0 22 16
      let ba := bits x.w0 27 24
      let bw := bits x.w0 31 28
      (0 < k → k ≤ 64 → 0 < ba → ba ≤ 8 → 0 < bw → bw ≤ 8 → bits x.w0 5 0 + k * ba ≤ 64 → bits x.w0 14 8 + k * bw ≤ 128 →
        Makes (.mxSer n c) s (queued (x.cp + 8) { mxBlank with
          ablk := bits x.w0 5 0, wblk := bits x.w0 14 8, chunks := k, ba := ba, bw := bw, set := bits x.w0 41 40,
          init := bit x.w0 54, signA := bit x.w0 53, signW := bit x.w0 52 })) ∧
      (k = 0 ∨ 64 < k ∨ ba = 0 ∨ 8 < ba ∨ bw = 0 ∨ 8 < bw → (s.w.slot n c).deferred = 0 → Makes (.mxSer n c) s tooMany)) ∧
    (s.w.atIssue n c 0x24 x →
      (resvChk x [(39, 0)] [(1, 0), (6, 4), (12, 8), (19, 16), (20, 20), (27, 24)] true).bad = false →
      let fmt := bits x.w1 6 4
      let planes := bits x.w1 19 16
      fmt ≤ 4 → (fmt = 3 → 0 < planes ∧ planes ≤ 8) → (fmt ≠ 3 → planes = 0 ∧ bit x.w1 20 = false) →
      (fmt = 0 ∨ fmt = 4 → bits x.w1 12 8 = 0) → (fmt < 3 → bits x.w1 27 24 = 0) →
      a % (if fmt ≤ 2 then 128 else 512) = 0 → s.w.ownLm n a = true → a % 0x100000 + mxExtent fmt planes ≤ 0x100000 →
      Makes (.mxStore n c) s (queued (x.cp + 16) { mxBlank with
        addr := a, set := bits x.w1 1 0, fmt := fmt, shift := bits x.w1 12 8, planes := planes, sgn := bit x.w1 20,
        field := bits x.w1 27 24 })) ∧
    (s.w.atIssue n c 0x25 x → (resvChk x [(41, 40)] [] false).bad = false →
      Makes (.mxClear n c) s (queued (x.cp + 8) { mxBlank with set := bits x.w0 41 40 })) ∧
    (s.w.atIssue n c 0x26 x → x.w0 = 0x26 * 2 ^ 56 → Makes (.mxWait n c) s fun v =>
      v.slotState n c = slWaiting ∧ v.waitKind n c = 3 ∧ v.rd (Addr.ctxWaitArg n c) = 0x26 * 2 ^ 56 ∧ v.cp n c = x.cp + 8 ∧
      (v.slot n c).mxWait = s.w.mxMine n c ∧
      s.w.counted v n c [Addr.ctxHdr n c, Addr.ctxSched n c, Addr.ctxWaitArg n c, Addr.ctxWaitTarget n c] ∧
      v = { s.w with regs := v.regs, slots := v.slots }) ∧
    (s.w.waitingIn n c 3 = true → (∀ i, i ∈ (s.w.slot n c).mxWait → i ∉ s.w.mxMine n c) →
      Makes (.mxWaitResume n c) s fun v =>
        v.slotState n c = slActive ∧ v.waitKind n c = 0 ∧ (v.slot n c).mxWait = [] ∧ v.cp n c = s.w.cp n c ∧
        s.w.keeps v [Addr.ctxHdr n c, Addr.ctxSched n c] ∧
        v = { s.w with regs := v.regs, slots := v.slots, accs := v.accs, nextId := v.nextId })

/-- Matrix units (R62, R143, R151, R155 to R160, R162, R166, R167, R626). -/
def Obligations.MatrixUnitsStartLoadAndStore : Prop :=
  ∀ (s : State) (n u : Nat) (q : MxCmd) (perr : List Nat), u < 4 → s.w.runs n = true →
    let m := s.w.mxOf n
    let w1 := s.w.rlcStrike n perr
    let o : AccOwner := .mx n q.id
    let takes (parts : List (Nat × Nat × Nat)) : Mx :=
      { m with queue := m.queue.filter fun e => e.id != q.id, runs := m.runs ++ [⟨u, q, parts⟩] }
    let fault (a : Acc) : PFault :=
      { code := a.fault, unit := 1, srcCp := q.cp, word0 := q.w0, word1 := q.w1, addr := a.chip * 2 ^ 32 + a.addr
        time := s.w.time }
    let ends : Mx := { m with runs := m.runs.filter fun r => r.cmd.id != q.id }
    (mxNext? m u = some q → (∀ r, r ∈ m.runs → r.unit ≠ u) → mxClearToStart m q = true →
      (u = 2 → Gives (.mxUnitStart n u perr) s (w1.setMx n (takes []))) ∧
      (u < 2 → s.w.ownLm n q.addr = true → Makes (.mxUnitStart n u perr) s fun v =>
        v.mxOf n = takes [] ∧ (v.acc s.w.nextId).owner = o ∧ (v.acc s.w.nextId).kind = .rd ∧
        (v.acc s.w.nextId).reqr = 2 + u ∧ (v.acc s.w.nextId).addr = lmAddr n (q.addr % 0x100000) ∧
        (v.acc s.w.nextId).len = q.len * 512 ∧ v = { w1 with mx := v.mx, accs := v.accs, nextId := v.nextId }) ∧
      (u < 2 → s.w.ownLm n q.addr = false → 0 < q.len →
        (32 ≤ s.w.outstanding n → Gives (.mxUnitStart n u perr) s
          (w1.setMx n (takes (loadParts (q.len * 8 + 2) 0 (q.addr % 2 ^ 32) (q.len * 512))))) ∧
        (s.w.outstanding n < 32 → Makes (.mxUnitStart n u perr) s fun v =>
          (∃ parts, ⟨u, q, parts⟩ ∈ (v.mxOf n).runs) ∧ (v.mxOf n).queue = (takes []).queue ∧
          (v.acc s.w.nextId).owner = o ∧ (v.acc s.w.nextId).kind = .rd ∧ (v.acc s.w.nextId).remote = true ∧
          (v.acc s.w.nextId).addr = q.addr % 2 ^ 32 ∧
          (v.acc s.w.nextId).len = min (q.len * 512) (64 - q.addr % 2 ^ 32 % 64))) ∧
      (u = 3 → let r := mxStoreRuns q (spGet (fun _ => zeroSet) m.accs q.set)
        Makes (.mxUnitStart n u perr) s fun v =>
          v.mxOf n = takes [] ∧ (v.acc s.w.nextId).owner = o ∧ (v.acc s.w.nextId).kind = .wr ∧
          (v.acc s.w.nextId).reqr = 4 ∧ (v.acc s.w.nextId).data = r.1.flatMap (fun p => p.2) ∧
          v.fld (Addr.mxSatCount n) F.mxSatCount_COUNT = min (s.w.fld (Addr.mxSatCount n) F.mxSatCount_COUNT + r.2) (2 ^ 32 - 1) ∧
          s.w.keeps v [Addr.mxSatCount n] ∧ v = { w1 with mx := v.mx, accs := v.accs, nextId := v.nextId, regs := v.regs })) ∧
    (m.runs.find? (fun r => r.unit == u) = some ⟨u, q, []⟩ →
      (u = 3 → (∀ p, p ∈ s.w.accsOf o → p.2.done = true ∧ p.2.fault = 0) → Makes (.mxCommandComplete n u) s fun v =>
        v.mxOf n = ends ∧ v.accsOf o = [] ∧ v = { s.w with mx := v.mx, accs := v.accs }) ∧
      (∀ id a, u < 2 → s.w.accsOf o = [(id, a)] → a.done = true →
        (a.fault = 0 → s.w.ownLm n q.addr = true → Makes (.mxCommandComplete n u) s fun v =>
          let y := v.mxOf n
          (∀ i, i < q.len → let d := slice a.data (i * 512) 512
            (q.op = 0x21 → mxBlock y.abuf (q.blk + i) = d ∧ zeroFlag y.aset (q.blk + i) = d.all fun b => b == 0) ∧
            (q.op ≠ 0x21 → mxBlock y.wbuf (q.blk + i) = d ∧ zeroFlag y.wset (q.blk + i) = d.all fun b => b == 0)) ∧
          y = { ends with abuf := y.abuf, wbuf := y.wbuf, aset := y.aset, wset := y.wset } ∧
          v = { s.w with mx := v.mx, accs := v.accs }) ∧
        (a.fault ≠ 0 → Makes (.mxCommandComplete n u) s fun v =>
          v.flag (Addr.mxStatus n) F.mxStatus_ERR = true ∧ s.w.keeps v [Addr.mxStatus n, Addr.mxErrLog n] ∧
          (s.w.flag (Addr.mxErrLog n) F.mxErrLog_VALID = true → v.rd (Addr.mxErrLog n) = s.w.rd (Addr.mxErrLog n)) ∧
          (s.w.flag (Addr.mxErrLog n) F.mxErrLog_VALID = false → a.fault < 256 → q.slot < 4 →
            v.fld (Addr.mxErrLog n) F.mxErrLog_CODE = a.fault ∧ v.flag (Addr.mxErrLog n) F.mxErrLog_VALID = true ∧
            v.fld (Addr.mxErrLog n) F.mxErrLog_ADDR = (a.chip * 2 ^ 32 + a.addr) % 2 ^ 40) ∧
          (∀ e, e ∈ (v.mxOf n).queue ↔ e ∈ m.queue ∧ ¬ (e.slot = q.slot ∧ e.ctxId = q.ctxId ∧ q.id < e.id)) ∧
          (v.mxOf n).runs = ends.runs ∧
          (s.w.slotState n q.slot ≠ slEmpty → s.w.ctxId n q.slot = q.ctxId →
            (v.slot n q.slot).faults = (s.w.slot n q.slot).faults ++ [fault a]))))

/-- Compute commands (R147 to R153, R246, R248, Table MTX-1). -/
def Obligations.ComputeCommandsAddEveryTermToTheirAccumulators : Prop :=
  (∀ (a b : List Byte) (v r k : Nat),
    binTerm a b v r k =
      2 * (((List.range v).countP fun i => bit (blockRow a r) i == bit (blockRow b k) i : Nat) : Int) - (v : Int)) ∧
  (∀ (a b : List Byte) (neg : Bool) (sh r k : Nat),
    serTerm a b neg sh r k = (if neg then (-1 : Int) else 1) * 2 ^ sh *
      (((List.range 256).countP fun i => bit (blockRow a r) i && bit (blockRow b k) i : Nat) : Int)) ∧
  (∀ (x : Mx) (q : MxCmd), (serActive x q).Nodup ∧ ∀ c i j, (c, i, j) ∈ serActive x q ↔
    c < q.chunks ∧ i < q.ba ∧ j < q.bw ∧ zeroFlag x.aset (q.ablk + c * q.ba + i) = false ∧
      zeroFlag x.wset (q.wblk + c * q.bw + j) = false) ∧
  (∀ (x : Mx) (q : MxCmd) (r k : Nat), r < 16 → k < 16 → q.op = 0x22 ∨ q.op = 0x23 →
    let start := if q.init then 0 else (spGet (fun _ => zeroSet) x.accs q.set).getD (16 * r + k) 0
    ((mxCompute x q).getD (16 * r + k) 0 : Int) % 2 ^ 32 = (start + (if q.op = 0x22
      then ((List.range q.chunks).map fun j => binTerm (mxBlock x.abuf (q.ablk + j)) (mxBlock x.wbuf (q.wblk + j))
        (if j + 1 = q.chunks then q.klast else 256) r k).sum
      else ((serActive x q).map fun p => serTerm (mxBlock x.abuf (q.ablk + p.1 * q.ba + p.2.1))
        (mxBlock x.wbuf (q.wblk + p.1 * q.bw + p.2.2))
        ((p.2.1 + 1 == q.ba && q.signA) != (p.2.2 + 1 == q.bw && q.signW)) (p.2.1 + p.2.2) r k).sum)) % 2 ^ 32) ∧
  ∀ (s : State) (n : Nat) (q : MxCmd), s.w.runs n = true → q.slot < 4 → s.w.accsOf (.mx n q.id) = [] →
    (s.w.mxOf n).runs.find? (fun r => r.unit == 2) = some ⟨2, q, []⟩ →
    let m := s.w.mxOf n
    let steps := if q.op = 0x25 then 1 else if q.op = 0x22 then 4 + q.chunks else 4 + (serActive m q).length
    let counts (v : Chip) : Prop :=
      v.rd (Addr.mxSteps n) = (s.w.rd (Addr.mxSteps n) + steps) % 2 ^ 64 ∧
      v.rd (Addr.mxCtxSteps n q.slot) = (s.w.rd (Addr.mxCtxSteps n q.slot) + steps) % 2 ^ 64 ∧
      v.mxOf n = { m with accs := spPut (fun _ => zeroSet) m.accs q.set (if q.op = 0x25 then zeroSet else mxCompute m q),
                          runs := m.runs.filter fun r => r.cmd.id != q.id } ∧
      v = { s.w with regs := v.regs, mx := v.mx, accs := v.accs }
    (q.op = 0x25 → Makes (.mxCommandComplete n 2) s fun v => counts v ∧
      s.w.keeps v [Addr.mxSteps n, Addr.mxCtxSteps n q.slot]) ∧
    (q.op = 0x22 ∨ q.op = 0x23 → Makes (.mxCommandComplete n 2) s fun v => counts v ∧
      v.fld (Addr.mxLast n) F.mxLast_STEPS = steps % 2 ^ 24 ∧ v.fld (Addr.mxLast n) F.mxLast_CTX = q.slot ∧
      v.fld (Addr.mxCmdCount n) F.mxCmdCount_COUNT = min (s.w.fld (Addr.mxCmdCount n) F.mxCmdCount_COUNT + 1) (2 ^ 32 - 1) ∧
      (q.op = 0x23 → v.rd (Addr.mxSkipped n) =
        (s.w.rd (Addr.mxSkipped n) + (q.chunks * q.ba * q.bw - (serActive m q).length)) % 2 ^ 64) ∧
      (q.op = 0x22 → v.rd (Addr.mxSkipped n) = s.w.rd (Addr.mxSkipped n)) ∧
      s.w.keeps v [Addr.mxSteps n, Addr.mxCtxSteps n q.slot, Addr.mxLast n, Addr.mxCmdCount n, Addr.mxSkipped n])

/-- Vector commands at issue (R172, R179 to R193, R230, R249, R250). -/
def Obligations.VectorCommandsStartWithTheirStreamsAndSteps : Prop :=
  ∀ (s : State) (n c : Nat) (x : Cmd) (perr : List Nat), c < 4 →
    let sel : List (Nat × Nat) := [(10, 8), (14, 12), (18, 16), (22, 20), (26, 24)]
    let base (k : Nat) : Nat := vxBase s.w n c k
    let good (a len : Nat) : Prop :=
      a % (if s.w.ownLm n a = true then 128 else 64) = 0 ∧ a % 2 ^ 32 + max 1 len ≤ 0x4000000 ∧
      (len % 4 = 0 ∨ s.w.ownLm n (a + len - 1) = true) ∧
      s.w.issueFault (a / 2 ^ 32) (a % 2 ^ 32) = 0
    let starts (i : Instr) (b : VxCmd) (ins : List Nat) (all : List (Nat × Nat)) : Prop :=
      b.ty < 6 → 0 < b.length → b.length ≤ 65536 → (∀ p, p ∈ all → good p.1 p.2) → Makes i s fun v =>
        (∃ e, v.vxOf n = some e ∧ e = { b with steps := b.working, ins := e.ins, carry := e.carry } ∧
          e.carry.map (fun t => (t.base, t.bytes, t.total)) = b.carry.map (fun t => (t.base, t.bytes, t.total)) ∧
          e.ins.map (fun t => (t.base, t.bytes, t.total)) =
            ins.map fun a => (a, b.perStep * vxWidth b.ty, b.count * vxWidth b.ty)) ∧
        v.cp n c = x.cp ∧ v.slotState n c = slActive ∧
        ((∀ p, p ∈ all → s.w.wholeOwn n p.1 p.2 = true) →
          s.w.counted v n c [Addr.vxSteps n] ∧ v.rd (Addr.vxSteps n) = (s.w.rd (Addr.vxSteps n) + 3) % 2 ^ 64 ∧
          v = { s.w.rlcStrike n perr with
            regs := v.regs, slots := v.slots, accs := v.accs, nextId := v.nextId, vx := v.vx })
    let y := vxBlank c x.cp x.w0 x.w1
    let a := base y.selA
    let b := base y.selB
    let d := base y.selD
    let len := y.count * vxWidth y.ty
    let f := bits x.w0 5 0
    let noB := bit x.w0 53 = true ∨ f = 0x14 ∨ f = 0x15
    (s.w.atIssue n c 0x30 x → (resvChk x ([(5, 0), (54, 54), (53, 53)] ++ sel) [(16, 0), (63, 32)] false).bad = false →
      vxOpKnown f = true → vxOpTypes f y.ty = true → (bit x.w0 54 = true → f ≤ 1 ∧ vxInt y.ty = true) →
      (bit x.w0 53 = false → bits x.w1 63 32 = 0) → (noB → y.selB = 0) → (f ≠ 0x08 → y.selC = 0) →
      (noB → f ≠ 0x08 → starts (.vxOp n c perr) { y with dst := d } [a] [(a, len), (d, len)]) ∧
      (noB → f = 0x08 → starts (.vxOp n c perr) { y with dst := d } [a, base y.selC]
        [(a, len), (base y.selC, len), (d, len)]) ∧
      (¬ noB → f ≠ 0x08 → starts (.vxOp n c perr) { y with dst := d } [a, b] [(a, len), (b, len), (d, len)]) ∧
      (¬ noB → f = 0x08 → starts (.vxOp n c perr) { y with dst := d } [a, b, base y.selC]
        [(a, len), (b, len), (base y.selC, len), (d, len)])) ∧
    (s.w.atIssue n c 0x31 x → (resvChk x ([(1, 0), (6, 4), (36, 32), (54, 54)] ++ sel) [(16, 0)] false).bad = false →
      y.outTy < 6 → bits x.w0 36 32 ≤ 24 → y.selB = 0 → y.selC = 0 →
      (bit x.w0 54 = true → y.ty ∈ [2, 3] ∧ y.outTy ∈ [2, 3] ∧ bits x.w0 36 32 = 0) →
      starts (.vxTable n c perr) { y with dst := d } [a] [(a, len), (d, y.count * vxWidth y.outTy)]) ∧
    (s.w.atIssue n c 0x32 x →
      (resvChk x ([(3, 0), (6, 4), (36, 32), (45, 40)] ++ sel) [(16, 0), (55, 32)] true).bad = false →
      let z := vxBlank c x.cp x.w0 (putBits x.w1 55 32 (s.w.indexed n c x (bits x.w1 55 32) 24))
      let carry := z.carryBytes
      bits x.w0 3 0 ≤ 3 → z.out ≤ 3 → bits x.w0 36 32 ≤ 23 → 0 < bits x.w0 45 40 → bits x.w0 45 40 ≤ 32 →
      bits z.w1 55 32 + z.length ≤ 16777216 → (z.out = 3 → bits x.w0 3 0 = 3) →
      z.ty ∈ (match bits x.w0 3 0 with | 0 => [4] | 1 => [3, 4] | 2 => [3] | _ => [5]) →
      (z.out = 2 → z.selD = 0 →
        starts (.vxScan n c perr) { z with dst := 0, carry := some ⟨b, 128, carry, 0⟩, carryOut := base y.selC } [a]
          [(a, z.count * vxWidth z.ty), (b, carry), (base y.selC, carry)]) ∧
      (z.out ≠ 2 →
        starts (.vxScan n c perr) { z with dst := d, carry := some ⟨b, 128, carry, 0⟩, carryOut := base y.selC } [a]
          [(a, z.count * vxWidth z.ty), (b, carry), (base y.selC, carry), (d, z.outBytes)])) ∧
    (s.w.atIssue n c 0x33 x →
      (resvChk x ([(6, 4), (36, 32), (43, 40), (54, 53)] ++ sel) [(16, 0), (47, 32)] false).bad = false →
      y.selB = 0 → y.selC = 0 →
      (bit x.w0 54 = true → y.ty ≤ 1 → y.outTy = 0 → y.length ≤ 64 → 0 < y.b → y.b ≤ 8 → bits x.w0 36 32 = 0 →
        bits x.w1 47 32 = 0 → starts (.vxConvert n c perr) { y with dst := d } [a] [(a, len), (d, y.outBytes)]) ∧
      (bit x.w0 54 = false → y.outTy < 6 → vxConvTypes y.ty y.outTy = true → y.b = 0 → bit x.w0 53 = false →
        (bits x.w0 36 32 ≠ 0 → y.ty = 4 ∧ y.outTy ∈ [0, 2]) → (bits x.w1 47 32 ≠ 0 → y.ty = 3 ∨ y.outTy = 3) →
        starts (.vxConvert n c perr) { y with dst := d } [a] [(a, len), (d, y.outBytes)])) ∧
    (s.w.atIssue n c 0x34 x → (resvChk x ([(3, 0)] ++ sel) [(16, 0)] false).bad = false → bits x.w0 3 0 ≤ 3 →
      (bits x.w0 3 0 = 0 → y.ty = 4) → (bits x.w0 3 0 = 3 → y.ty = 3) → y.ty ≠ 5 → y.selB = 0 → y.selC = 0 →
      starts (.vxReduce n c perr) { y with dst := d } [a] [(a, len), (d, vxWidth y.ty)])

/-- Vector steps, their end, and responses (R116, R124, R174, R179, R191 to R195). -/
def Obligations.VectorStepsWriteElementsAndResponsesReachTheirAccess : Prop :=
  (∀ (s : State) (n : Nat) (e : VxCmd) (perr : List Nat), s.w.runs n = true → s.w.vxOf n = some e → e.slot < 4 →
    (s.w.vxBad n = none → e.pos < e.steps → e.pos < 2 ^ 20 → s.w.vxPresent n e = true → s.w.vxGranted n e = true →
      e.op = 0x30 → e.carry = none → e.wq = [] → (∀ t, t ∈ e.ins → t.total ≤ t.next * t.bytes) → 0 < e.ins.length →
      let wd := vxWidth e.ty
      let x := elems wd (s.w.vxData n (Chip.rdKey 0 e.pos))
      let y := if 1 < e.ins.length then elems wd (s.w.vxData n (Chip.rdKey 1 e.pos)) else []
      let z := if 2 < e.ins.length then elems wd (s.w.vxData n (Chip.rdKey 2 e.pos)) else y
      let out := x.mapIdx fun i v => vxOpElem (bits e.w0 5 0) e.ty (bit e.w0 54) v
        (if bit e.w0 53 then bits e.w1 63 32 % 2 ^ (8 * wd) else y.getD i 0) (z.getD i 0)
      let at' := e.dst + e.pos * e.perStep * wd
      x ≠ [] → s.w.wholeOwn n at' (x.length * wd) = true → Makes (.vxStep n perr) s fun v =>
        v.vxOf n = some { e with pos := e.pos + 1, run := [] } ∧
        v.rd (Addr.vxSteps n) = (s.w.rd (Addr.vxSteps n) + 1) % 2 ^ 64 ∧
        (v.acc s.w.nextId).owner = .vx n (Chip.wrKey e.pos) ∧ (v.acc s.w.nextId).kind = .wr ∧ (v.acc s.w.nextId).reqr = 6 ∧
        (v.acc s.w.nextId).addr = lmAddr n (at' % 0x100000) ∧
        (v.acc s.w.nextId).data = (out.flatMap fun r => toLE wd (vxCanon e.ty r.v)) ∧
        v.fld (Addr.vxSatCount n) F.vxSatCount_COUNT =
          min (s.w.fld (Addr.vxSatCount n) F.vxSatCount_COUNT + (out.map fun r => r.sat).sum) (2 ^ 32 - 1) ∧
        s.w.keeps v [Addr.vxSteps n, Addr.vxSatCount n, Addr.vxLnsOvfCount n, Addr.vxLnsUnfCount n] ∧
        v = { s.w.rlcStrike n perr with regs := v.regs, accs := v.accs, vx := v.vx, nextId := v.nextId }) ∧
    (∀ id a, s.w.vxBad n = some (id, a) → ∃ t, exec (.vxStep n perr) s = .next t ∧ t.w.vxOf n = none ∧
      t.w.flag (Addr.vxStatus n) F.vxStatus_ERR = true ∧ t.pending = s.pending ∧ t.w.time = s.w.time) ∧
    (s.w.vxBad n = none → e.steps ≤ e.pos → e.wq = [] → (∀ p, p ∈ s.w.accs → Chip.isVx n p.2.owner = true → p.2.done = true) →
      Makes (.vxCommandComplete n) s fun v =>
        v.vxOf n = none ∧ v.cp n e.slot = (e.cp + 16) % 2 ^ 20 ∧
        v.fld (Addr.vxCmdCount n) F.vxCmdCount_COUNT = min (s.w.fld (Addr.vxCmdCount n) F.vxCmdCount_COUNT + 1) (2 ^ 32 - 1) ∧
        s.w.keeps v [Addr.vxCmdCount n, Addr.ctxCp n e.slot] ∧
        v = { s.w with regs := v.regs, slots := v.slots, accs := v.accs, vx := v.vx, nextId := v.nextId })) ∧
  (∀ (s : State) (n id : Nat) (r : MsgRec) (a : Acc), s.w.live = true → s.w.msgRec? id = some r → r.stage = .resp →
    r.dst = .core n → spFind? s.w.accs r.msg.acc = some a → 1 < a.parts → (s.w.cohOf n).fills = [] →
    (s.w.mxOf n).runs = [] → s.w.vxOf n = none → (∀ m k, a.owner ≠ .mx m k ∧ a.owner ≠ .vx m k) →
    let b : Acc := { a with
      parts := a.parts - 1, fault := (if a.fault ≠ 0 then a.fault else r.msg.status),
      detail := (if a.fault ≠ 0 ∨ r.msg.status = 0 then a.detail else r.msg.addr) }
    (r.msg.op = .writeAck → Gives (.writeAck id) s ((s.w.dropMsg id).setAcc r.msg.acc b)) ∧
    (r.msg.op = .readData → Makes (.readData id) s fun v =>
      v.acc r.msg.acc = { b with data := patch a.data r.msg.pos r.msg.data } ∧
      v = { (s.w.dropMsg id) with accs := v.accs }))

/-- Signals, waits and arrivals at issue (R137, R239 to R244, R266, R276, R281). -/
def Obligations.SignalsWaitsAndArrivalsLeaveAtIssue : Prop :=
  ∀ (s : State) (n c : Nat) (x : Cmd), c < 4 →
    let frame (v : Chip) (as : List Nat) : Prop := s.w.counted v n c as ∧
      v = { s.w with regs := v.regs, slots := v.slots, accs := v.accs, nextId := v.nextId, net := v.net, pod := v.pod }
    let leaves (v : Chip) (id : Nat) (home : Place) (chip : Nat) (P : Msg → Prop) : Prop :=
      (chip = 255 → ∃ r, v.msgRec? id = some r ∧ r.src = .core n ∧ r.dst = home ∧ P r.msg) ∧
      (chip ≠ 255 → ∃ q, spFind? v.pod.outReqs id = some q ∧ q.msg.dstChip = chip ∧ P q.msg)
    let tracked (v : Chip) (chip : Nat) (own fenced : Bool) : Prop :=
      (v.acc s.w.nextId).owner = .ctxOp n c ∧ (v.acc s.w.nextId).parts = 1 ∧
      (v.slot n c).outs = (s.w.slot n c).outs ++ [{ id := s.w.nextId, chip := chip, own := own, srcCp := x.cp, word0 := x.w0,
                                                    word1 := x.w1, fenced := fenced }]
    let waits (v : Chip) (kind target next : Nat) : Prop :=
      v.slotState n c = slWaiting ∧ v.waitKind n c = kind ∧ v.rd (Addr.ctxWaitArg n c) = x.w0 ∧
      v.rd (Addr.ctxWaitTarget n c) = target ∧ v.cp n c = next
    let waitRegs : List Nat := [Addr.ctxHdr n c, Addr.ctxSched n c, Addr.ctxWaitArg n c, Addr.ctxWaitTarget n c]
    let chip := s.w.resolve (bits x.w0 47 40)
    let h := bits x.w0 37 32
    let loc := bit x.w0 39 = false
    (s.w.atIssue n c 0x10 x → (resvChk x [(47, 40), (39, 39), (37, 32), (31, 16), (8, 0)] [] false).bad = false →
      bits x.w0 31 16 ≠ 0 → (loc → bits x.w0 8 4 = 0) → (¬ loc → h = 0) → s.w.reachable (bits x.w0 47 40) = true →
      (loc → s.w.isSelf (bits x.w0 47 40) = true → s.w.coreUp h = true) → Makes (.signal n c) s fun v =>
        v.cp n c = x.cp + 8 ∧ frame v [] ∧
        tracked v chip false true ∧
        leaves v (s.w.nextId + 1) (if bit x.w0 39 then .hub else .core h) chip (fun m => m.op = .atomicAdd ∧
          m.addr = (if bit x.w0 39 then Addr.ccSignal (bits x.w0 8 0) else Addr.lcntSignal h (bits x.w0 3 0)) ∧
          m.data = toLE 8 (bits x.w0 31 16) ∧ m.acc = s.w.nextId)) ∧
    (s.w.atIssue n c 0x11 x → (resvChk x [(47, 40), (39, 39), (37, 32), (31, 16), (8, 0)] [(47, 0)] true).bad = false →
      bits x.w0 31 16 = 0 → s.w.reachable (bits x.w0 47 40) = true →
      let t := s.w.indexed n c x (bits x.w1 47 0) 48
      let k := bits x.w0 3 0
      (¬ loc → h = 0 → Makes (.wait n c) s fun v =>
        waits v 1 t (x.cp + 16) ∧ frame v waitRegs ∧ (v.slot n c).waitId = s.w.nextId ∧ (v.slot n c).cancel = none ∧
        ((s.w.slot n c).cancel = none → leaves v (s.w.nextId + 1) .hub chip (fun m => m.op = .waitNotify ∧ m.arg = 0 ∧
          m.addr = Addr.ccValue (bits x.w0 8 0) ∧ m.data = toLE 8 t ∧ m.acc = s.w.nextId ∧ m.srcSlot = c))) ∧
      (loc → bits x.w0 8 4 = 0 → chip = 255 → h = n →
        let written := s.w.slotState n (k / 4) = slSaving ∧ (s.w.slot n (k / 4)).quiesce = .write
        (s.w.slotState n (k / 4) ≠ slEmpty → ¬ written → Makes (.wait n c) s fun v =>
          waits v 1 t (x.cp + 16) ∧ frame v waitRegs ∧ (v.slot n c).notified = s.w.localSat n k t) ∧
        (written → Makes (.wait n c) s fun v => waits v 1 t (x.cp + 16) ∧ frame v waitRegs ∧
          (v.slot n c).heldWait = true ∧ (v.slot n c).notified = false) ∧
        (s.w.slotState n (k / 4) = slEmpty → Makes (.wait n c) s fun v =>
          waits v 1 t (x.cp + 16) ∧ frame v (Addr.seqSigRefused n :: waitRegs) ∧
          v.fld (Addr.seqSigRefused n) ⟨31, 0⟩ = min (s.w.fld (Addr.seqSigRefused n) ⟨31, 0⟩ + 1) (2 ^ 32 - 1) ∧
          ∃ f, (v.slot n c).faults = [f] ∧ f.code = 9 ∧ f.unit = 4 ∧ f.detail = 0x100 ∧ f.srcCp = x.cp))) ∧
    (s.w.atIssue n c 0x13 x → (resvChk x [(54, 54), (6, 4), (2, 0)] [] false).bad = false →
      Makes (.bloomArrive n c) s fun v =>
        v.cp n c = x.cp + 8 ∧ tracked v 255 false false ∧
        frame v [] ∧
        leaves v (s.w.nextId + 1) .hub 255 (fun m => m.op = .barrierArrive ∧ m.arg = 1 ∧ m.addr = bits x.w0 2 0 ∧
          m.srcCore = n ∧ m.srcSlot = c ∧ m.acc = s.w.nextId ∧
          m.pos = if bit x.w0 54 then bits x.w0 6 4 + 1 else 0)) ∧
    (s.w.atIssue n c 0x14 x → (resvChk x [(54, 54), (10, 8), (5, 0)] [] false).bad = false → s.w.switchedOn = true →
      Makes (.asterArrive n c) s fun v =>
        v.cp n c = x.cp + 8 ∧ tracked v 255 false false ∧
        frame v [] ∧
        leaves v (s.w.nextId + 1) .hub 255 (fun m => m.op = .barrierArrive ∧ m.arg = 2 ∧ m.addr = bits x.w0 5 0 ∧
          m.srcCore = n ∧ m.srcSlot = c ∧ m.acc = s.w.nextId ∧
          m.pos = if bit x.w0 54 then bits x.w0 10 8 + 1 else 0)) ∧
    (s.w.atIssue n c 0x15 x → (resvChk x [(31, 16), (8, 8), (5, 0)] [] true).bad = false →
      (bit x.w0 8 = false → bits x.w0 5 0 < 8 → bits x.w0 31 17 = 0 →
        let p := s.w.indexed n c x (bits x.w0 16 16) 1
        Makes (.waitBarrier n c) s fun v => waits v 2 p (x.cp + 8) ∧ frame v waitRegs ∧
          ((v.slot n c).notified = true ↔ s.w.fld (Addr.bloomState (bits x.w0 5 0)) F.bloomState_PHASE ≠ p)) ∧
      (bit x.w0 8 = true → s.w.switchedOn = true →
        let g := s.w.indexed n c x (bits x.w0 31 16) 16
        Makes (.waitBarrier n c) s fun v => waits v 2 g (x.cp + 8) ∧ frame v waitRegs ∧
          (let d := (s.w.fld (Addr.asterState (bits x.w0 5 0)) F.asterState_GEN + 65536 - g) % 65536
           (v.slot n c).notified = true ↔ 1 ≤ d ∧ d ≤ 32768)))

/-- The end of a wait (R205, R266, R268, R269, R285 to R287). -/
def Obligations.WaitsEndByTheirConditionOrTheirLimit : Prop :=
  ∀ (s : State) (n c : Nat), s.w.runs n = true → c < 4 →
    let t := s.w.slot n c
    let w0 := s.w.rd (Addr.ctxWaitArg n c)
    let chip := s.w.resolve (bits w0 47 40)
    (∀ k, k ∈ [1, 2, 4, 5] → s.w.waitingIn n c k = true → t.notified = true → Makes (.waitSatisfied n c) s fun v =>
      v.slotState n c = slActive ∧ v.waitKind n c = 0 ∧ (v.slot n c).notified = false ∧ (v.slot n c).resend = none ∧
      s.w.keeps v ([Addr.ctxHdr n c, Addr.ctxSched n c] ++ (List.range 32).map Addr.irisStatus)) ∧
    (∀ id r, s.w.msgRec? id = some r → r.stage = .resp → r.dst = .core n → r.msg.op = .waitNotify → r.msg.srcSlot = c →
      (s.w.slotState n c = slWaiting → s.w.waitKind n c = 1 → t.waitId = r.msg.acc →
        (r.msg.arg = 3 → Gives (.waitNotify id) s ((s.w.dropMsg id).setSlot n c { t with resend := some (s.w.time + 256) })) ∧
        (r.msg.arg ≠ 3 → s.w.pastLimit n c s.w.time = false →
          Gives (.waitNotify id) s ((s.w.dropMsg id).setSlot n c { t with notified := true })) ∧
        (r.msg.arg ≠ 3 → s.w.pastLimit n c s.w.time = true → Gives (.waitNotify id) s (s.w.dropMsg id))) ∧
      (s.w.slotState n c ≠ slWaiting → Gives (.waitNotify id) s (s.w.dropMsg id))) ∧
    (∀ due, t.resend = some due → due ≤ s.w.time → s.w.waitingIn n c 1 = true → bit w0 39 = true →
      (chip = 255 → Makes (.registrationResend n c) s fun v =>
        (v.slot n c).resend = none ∧ (v.slot n c).waitId = (if t.waitId = 0 then s.w.nextId else t.waitId) ∧
        v.regs = s.w.regs ∧ (t.cancel = none → ∃ r, v.msgRec? (s.w.nextId + 1) = some r ∧ r.dst = .hub ∧
          r.msg.op = .waitNotify ∧ r.msg.arg = 0 ∧ r.msg.addr = Addr.ccValue (bits w0 8 0) ∧
          r.msg.data = toLE 8 (s.w.rd (Addr.ctxWaitTarget n c)))) ∧
      (chip ≠ 255 → s.w.reachable (bits w0 47 40) = true → Makes (.registrationResend n c) s fun v =>
        (v.slot n c).resend = none ∧ v.regs = s.w.regs ∧ (t.cancel = none →
          ∃ q, spFind? v.pod.outReqs (s.w.nextId + 1) = some q ∧ q.msg.op = .waitNotify ∧ q.msg.arg = 0 ∧
            q.msg.dstChip = chip ∧ q.msg.data = toLE 8 (s.w.rd (Addr.ctxWaitTarget n c)))) ∧
      (s.w.reachable (bits w0 47 40) = false → Makes (.registrationResend n c) s fun v =>
        ∃ f, (v.slot n c).faults = [f] ∧ f.code = 0x0B ∧ f.unit = 4 ∧ f.word0 = w0 ∧ v = { s.w with slots := v.slots })) ∧
    (∀ a, t.cancel = some a →
      let far := s.w.resolve (bits a 47 40)
      let m (g : Msg) : Prop := g.op = .waitNotify ∧ g.arg = 2 ∧ g.srcCore = n ∧ g.srcSlot = c ∧
        g.addr = Addr.ccValue (bits a 8 0)
      Makes (.waitCancel n c) s fun v => v.slot n c = { t with cancel := none } ∧ v.regs = s.w.regs ∧
        (far = 255 → ∃ r, v.msgRec? s.w.nextId = some r ∧ r.dst = .hub ∧ m r.msg) ∧
        (far ≠ 255 → s.w.reachable far = true →
          ∃ q, spFind? v.pod.outReqs s.w.nextId = some q ∧ q.msg.dstChip = far ∧ m q.msg)) ∧
    (t.frame = none → t.deferred = 0 → s.w.pastLimit n c s.w.time = true →
      let p (words : Nat) : Nat := (s.w.cp n c + 2 ^ 20 - 8 * words) % 2 ^ 20
      let late (v : Chip) (f : PFault) : Prop :=
        (s.w.frameReason n c = 0 → (v.slot n c).frame = some ⟨s.w.nextId, f, f.srcCp, false⟩ ∧
          (v.acc s.w.nextId).data = frameBytes c (s.w.ctxId n c) f.srcCp 0 f ∧
          v.fld (Addr.ctxFsp n c) F.ctxFsp_FSP = Chip.frameAddr (s.w.fld (Addr.ctxFsp n c) F.ctxFsp_FSP)) ∧
        (s.w.frameReason n c ≠ 0 → v.slotState n c = slNoFrame) ∧
        v.fld (Addr.ctxFaultCount n c) ⟨31, 0⟩ = min (s.w.fld (Addr.ctxFaultCount n c) ⟨31, 0⟩ + 1) (2 ^ 32 - 1)
      (s.w.slotState n c = slWaiting → t.quiesce = .no → t.notified = false → s.w.waitKind n c ∈ [1, 2, 4] →
        let f : PFault :=
          { code := 8, unit := 6, detail := s.w.waitKind n c, srcCp := p t.waitWords, word0 := w0, word1 := t.waitW1
            time := s.w.time }
        Makes (.waitTimeout n c) s fun v => late v f) ∧
      (s.w.slotState n c = slActive → t.fence.isSome = true → s.w.pastLimit n c (t.fenceDone.getD s.w.time) = true →
        let f : PFault := { code := 8, unit := 6, detail := 0x10, srcCp := p 1, word0 := t.fenceW0, time := s.w.time }
        Makes (.waitTimeout n c) s fun v => late v f ∧ (v.slot n c).fence = none))

/-- Counters (R216, R258 to R271). -/
def Obligations.CountersAddRefuseAndTestTheirWaits : Prop :=
  let sum (wrap : Bool) (v a : Nat) : Nat := if wrap then (v + a) % 2 ^ 48 else min (v + a) (2 ^ 48 - 1)
  let tested (w v : Chip) (k : Nat) : Prop :=
    v.sync.regsHeld = w.sync.regsHeld.filter fun p => !(p.2.counter == k && v.ccSat k p.2.target)
  let added (w v : Chip) (k a : Nat) : Prop :=
    let wrap := w.flag (Addr.ccCfg k) F.ccCfg_MODE
    let x := w.fld (Addr.ccValue k) F.ccValue_VALUE
    v.fld (Addr.ccValue k) F.ccValue_VALUE = sum wrap x a ∧ tested w v k ∧
    (wrap = false → 2 ^ 48 ≤ x + a → v.flag (Addr.ccStatus k) F.ccStatus_SAT = true) ∧
    (wrap = true ∨ x + a < 2 ^ 48 → v.rd (Addr.ccStatus k) = w.rd (Addr.ccStatus k)) ∧
    w.keeps v [Addr.ccValue k, Addr.ccStatus k]
  let refused (w v : Chip) (k d : Nat) : Prop :=
    v.flag (Addr.ccStatus k) (if d = 0x200 then F.ccStatus_OVER else F.ccStatus_UNDER) = true ∧
    v.fld (Addr.ccRefusedCount k) ⟨31, 0⟩ = min (w.fld (Addr.ccRefusedCount k) ⟨31, 0⟩ + 1) (2 ^ 32 - 1) ∧
    w.keeps v [Addr.ccStatus k, Addr.ccRefusedCount k] ∧ v.sync = w.sync
  let localAdded (w v : Chip) (h k a : Nat) : Prop :=
    let l := Addr.ctxLc h (k / 4) (k % 4)
    let wrap := w.flag l F.ctxLc_MODE
    let x := w.fld l F.ctxLc_VALUE
    v.fld l F.ctxLc_VALUE = sum wrap x a ∧
    (v.flag l F.ctxLc_SAT = true ↔ w.flag l F.ctxLc_SAT = true ∨ (wrap = false ∧ 2 ^ 48 ≤ x + a)) ∧
    v.flag l F.ctxLc_MODE = wrap ∧ w.keeps v [l] ∧
    ∀ d, d < 4 → w.slotState h d = slWaiting → w.waitKind h d = 1 → v.waitTrue h d = true →
      w.pastLimit h d w.time = false → (v.slot h d).notified = true
  let localRefused (w v : Chip) (h : Nat) : Prop :=
    v.fld (Addr.seqSigRefused h) ⟨31, 0⟩ = min (w.fld (Addr.seqSigRefused h) ⟨31, 0⟩ + 1) (2 ^ 32 - 1) ∧
    w.keeps v [Addr.seqSigRefused h]
  let answered (v : Chip) (m : Msg) (st d : Nat) : Prop :=
    ∃ j a, v.msgRec? j = some a ∧ a.msg.op = .writeAck ∧ a.msg.status = st ∧ a.msg.addr = d ∧ a.msg.acc = m.acc
  ∀ (s : State), s.w.live = true →
    (∀ id r, s.w.msgRec? id = some r → r.msg.op = .atomicAdd → s.w.hubTurn r = true → r.msg.srcChip = 255 →
      let k := Chip.ccIndex r.msg.addr
      let a := leNat r.msg.data
      (s.w.pairRefusal k a = none → Makes (.counterAdd id 0) s fun v => added s.w v k a ∧ answered v r.msg 0 0) ∧
      (∀ d, s.w.pairRefusal k a = some d → Makes (.counterAdd id 0) s fun v => refused s.w v k d ∧ answered v r.msg 9 d)) ∧
    (∀ k a, k < 512 → 0 < a → a < 2 ^ 32 →
      (s.w.pairRefusal k a = none → Makes (.counterSignalWrite k a) s fun v => added s.w v k a) ∧
      (∀ d, s.w.pairRefusal k a = some d → Makes (.counterSignalWrite k a) s fun v => refused s.w v k d)) ∧
    (∀ k x, k < 512 →
      (Makes (.counterValueWrite k false x) s fun v =>
        v.fld (Addr.ccValue k) F.ccValue_VALUE = x % 2 ^ 48 ∧ tested s.w v k ∧ s.w.keeps v [Addr.ccValue k]) ∧
      (Makes (.counterValueWrite k true x) s fun v =>
        v.rd (Addr.ccCfg k) = maskReg (Addr.ccCfg k) x % 2 ^ 64 ∧ tested s.w v k ∧ s.w.keeps v [Addr.ccCfg k])) ∧
    (∀ id r h, s.w.msgRec? id = some r → r.msg.op = .atomicAdd → bit r.msg.arg 1 = true → r.dst = .core h → r.msg.srcChip = 255 →
      (r.stage = .localOp ∧ s.w.runs h = true) ∨ (r.stage = .admitted ∧ s.w.mayServe h r = true ∧ h < 64) →
      let k := Chip.lcIndex r.msg.addr
      let written := s.w.slotState h (k / 4) = slSaving ∧ (s.w.slot h (k / 4)).quiesce = .write
      (s.w.slotState h (k / 4) ≠ slEmpty → ¬ written → r.msg.status ≠ Chip.heldStatus → Makes (.localCounterAdd id) s fun v =>
        localAdded s.w v h k (leNat r.msg.data) ∧ answered v r.msg 0 0) ∧
      (s.w.slotState h (k / 4) = slEmpty ∨ (¬ written ∧ r.msg.status = Chip.heldStatus) → Makes (.localCounterAdd id) s fun v =>
        localRefused s.w v h ∧ answered v r.msg 9 0x100) ∧
      (written → Gives (.localCounterAdd id) s (s.w.setMsg id { r with msg := { r.msg with status := Chip.heldStatus } }))) ∧
    (∀ h k a, s.w.runs h = true → k < 16 → 0 < a → a < 2 ^ 32 →
      (s.w.slotState h (k / 4) ≠ slEmpty → ¬ (s.w.slotState h (k / 4) = slSaving ∧ (s.w.slot h (k / 4)).quiesce = .write) →
        Makes (.lcntSignalWrite h k a) s fun v => localAdded s.w v h k a) ∧
      (s.w.slotState h (k / 4) = slEmpty → Makes (.lcntSignalWrite h k a) s fun v => localRefused s.w v h) ∧
      (s.w.slotState h (k / 4) = slSaving → (s.w.slot h (k / 4)).quiesce = .write → Makes (.lcntSignalWrite h k a) s fun v =>
        v.regs = s.w.regs ∧ ∃ r, v.msgRec? s.w.nextId = some r ∧ r.stage = .localOp ∧ r.msg.data = toLE 8 a ∧
          r.msg.status = Chip.heldStatus)) ∧
    (∀ id r, s.w.msgRec? id = some r → r.msg.op = .waitNotify → s.w.hubTurn r = true →
      let others := spErase s.w.sync.regsHeld (Chip.regKey r.msg)
      let k := Chip.ccIndex r.msg.addr
      let t := leNat r.msg.data
      let replied (v : Chip) (arg : Nat) : Prop := ∃ a, v.msgRec? s.w.nextId = some a ∧ a.msg.op = .waitNotify ∧
        a.msg.arg = arg ∧ a.dst = s.w.towards r.msg.srcChip (.core r.msg.srcCore) ∧ a.msg.acc = r.msg.acc
      (r.msg.arg = 2 → Makes (.waitRegister id) s fun v => v.sync.regsHeld = others ∧ v.regs = s.w.regs) ∧
      (r.msg.arg ≠ 2 → s.w.ccSat k t = true → Makes (.waitRegister id) s fun v =>
        v.sync.regsHeld = others ∧ v.regs = s.w.regs ∧ replied v 1) ∧
      (r.msg.arg ≠ 2 → s.w.ccSat k t = false → others.length < 4096 → Makes (.waitRegister id) s fun v =>
        spFind? v.sync.regsHeld (Chip.regKey r.msg) = some ⟨k, t, r.msg⟩ ∧ v.regs = s.w.regs) ∧
      (r.msg.arg ≠ 2 → s.w.ccSat k t = false → 4096 ≤ others.length → Makes (.waitRegister id) s fun v =>
        v.sync.regsHeld = others ∧ replied v 3 ∧ s.w.keeps v [Addr.syncWtFullCount] ∧
        v.fld Addr.syncWtFullCount ⟨31, 0⟩ = min (s.w.fld Addr.syncWtFullCount ⟨31, 0⟩ + 1) (2 ^ 32 - 1)))

/-- Barriers (R274 to R284). -/
def Obligations.BarriersCollectArrivalsAndRelease : Prop :=
  ∀ (s : State), s.w.live = true →
    let acked (v : Chip) (m : Msg) (st d : Nat) : Prop :=
      ∃ j a, v.msgRec? j = some a ∧ a.msg.op = .writeAck ∧ a.msg.status = st ∧ a.msg.addr = d ∧ a.msg.acc = m.acc
    let set (aster : Bool) (i n : Nat) : Nat := putBit (s.w.rd (Chip.barArrived aster i)) n true
    let full (aster : Bool) (i n : Nat) : Prop :=
      Nat.land (s.w.rd (Chip.barMask aster i)) (set aster i n) = s.w.rd (Chip.barMask aster i)
    let gen (b : Nat) : Nat := s.w.fld (Addr.asterState b) F.asterState_GEN
    let released (v : Chip) (b : Nat) (also : List Nat) : Prop :=
      v.fld (Addr.asterState b) F.asterState_GEN = (gen b + 1) % 65536 ∧ v.rd (Addr.asterArrived b) = 0 ∧
      s.w.keeps v ([Addr.asterState b, Addr.asterArrived b] ++ also)
    let completed (v : Chip) (l : Nat) : Prop :=
      v.fld (Addr.bloomState l) F.bloomState_PHASE = 1 - s.w.fld (Addr.bloomState l) F.bloomState_PHASE ∧
      v.rd (Addr.bloomArrived l) = 0 ∧
      v.fld (Addr.bloomCompletions l) ⟨31, 0⟩ = min (s.w.fld (Addr.bloomCompletions l) ⟨31, 0⟩ + 1) (2 ^ 32 - 1)
    (∀ id r kids i, s.w.msgRec? id = some r → r.msg.op = .barrierArrive → s.w.hubTurn r = true → r.msg.srcChip = 255 →
      r.msg.srcCore < 64 →
      let n := r.msg.srcCore
      (i = Instr.bloomArrivalApply id ∧ r.msg.arg = 1 ∧ r.msg.addr < 8) ∨
        (i = .asterArrivalApply id kids ∧ r.msg.arg = 2 ∧ r.msg.addr < 64 ∧ s.w.switchedOn = true) →
      let aster := r.msg.arg == 2
      let b := r.msg.addr
      let c := r.msg.srcSlot
      let rec_ : Bool := r.msg.pos != 0 && (s.w.slot n c).outs.any fun o => o.id == r.msg.acc
      let also : List Nat := if rec_ then [Addr.ctxS n c (r.msg.pos - 1)] else []
      let recorded (v : Chip) : Prop := rec_ = true → v.scratch n c (r.msg.pos - 1) =
        (if aster then gen b else s.w.fld (Addr.bloomState b) F.bloomState_PHASE)
      (bit (s.w.rd (Chip.barMask aster b)) n = false → Makes i s fun v => v.regs = s.w.regs ∧ acked v r.msg 9 0x202) ∧
      (bit (s.w.rd (Chip.barMask aster b)) n = true →
        (bit (s.w.rd (Chip.barArrived aster b)) n = true → Makes i s fun v => v.regs = s.w.regs ∧ acked v r.msg 9 0x203) ∧
        (bit (s.w.rd (Chip.barArrived aster b)) n = false →
          (¬ full aster b n ∨ (aster = false ∧ s.w.bloomStalled b = true) → Makes i s fun v =>
            v.rd (Chip.barArrived aster b) = set aster b n ∧ s.w.keeps v (Chip.barArrived aster b :: also) ∧
            acked v r.msg 0 0 ∧ recorded v) ∧
          (full aster b n → aster = false → s.w.bloomStalled b = false → Makes i s fun v =>
            completed v b ∧ acked v r.msg 0 0 ∧ recorded v ∧
            s.w.keeps v ([Addr.bloomState b, Addr.bloomArrived b, Addr.bloomCompletions b] ++ also)) ∧
          (full aster b n → aster = true → s.w.childChips = [] →
            (s.w.parentChip? = none → Makes i s fun v => released v b also ∧ acked v r.msg 0 0 ∧ recorded v) ∧
            (∀ p, s.w.parentChip? = some p → spGet (fun _ => false) s.w.sync.arriveSent b = false → Makes i s fun v =>
              v.rd (Addr.asterArrived b) = set true b n ∧ s.w.keeps v (Addr.asterArrived b :: also) ∧ recorded v ∧
              spGet (fun _ => false) v.sync.arriveSent b = true ∧
              ∃ q, spFind? v.pod.outReqs s.w.nextId = some q ∧ q.msg.op = .barrierArrive ∧ q.msg.dstChip = p ∧
                q.msg.data = toLE 8 (gen b)))))) ∧
    (∀ i x, i < 8 → x < 2 ^ 64 →
      let a := Nat.land (s.w.rd (Addr.bloomArrived i)) x
      let stalled := ∃ k, k < 64 ∧ bit x k = true ∧ s.w.coreUp k = false
      (x = 0 ∨ Nat.land x a ≠ x ∨ stalled → Makes (.barrierMaskWrite false i x []) s fun v => v.rd (Addr.bloomMask i) = x ∧
        v.rd (Addr.bloomArrived i) = a ∧ s.w.keeps v [Addr.bloomMask i, Addr.bloomArrived i]) ∧
      (x ≠ 0 → Nat.land x a = x → ¬ stalled → Makes (.barrierMaskWrite false i x []) s fun v => v.rd (Addr.bloomMask i) = x ∧
        completed v i ∧
        s.w.keeps v [Addr.bloomMask i, Addr.bloomState i, Addr.bloomArrived i, Addr.bloomCompletions i])) ∧
    (∀ i x kids, i < 64 → x < 2 ^ 64 → s.w.switchedOn = true →
      let a := Nat.land (s.w.rd (Addr.asterArrived i)) x
      Nat.land x a ≠ x → Makes (.barrierMaskWrite true i x kids) s fun v => v.rd (Addr.asterMask i) = x ∧
        v.rd (Addr.asterArrived i) = a ∧ s.w.keeps v [Addr.asterMask i, Addr.asterArrived i]) ∧
    (∀ id r kids, s.w.msgRec? id = some r → s.w.hubTurn r = true → s.w.switchedOn = true →
      let b := barrierOf r.msg
      let there := spGet (fun _ => []) s.w.sync.children b
      (r.msg.op = .barrierArrive → r.msg.arg = 0 →
        (leNat r.msg.data ≠ gen b → Makes (.barrierArrive id kids) s fun v =>
          v.sync.children = s.w.sync.children ∧ v.regs = s.w.regs) ∧
        (leNat r.msg.data = gen b → r.msg.srcChip ∉ there → s.w.covered true b = false →
          Makes (.barrierArrive id kids) s fun v =>
            spGet (fun _ => []) v.sync.children b = r.msg.srcChip :: there ∧ v.regs = s.w.regs) ∧
        (leNat r.msg.data = gen b → r.msg.srcChip ∉ there → s.w.covered true b = true → s.w.parentChip? = none →
          s.w.childChips = [r.msg.srcChip] → Makes (.barrierArrive id [r.msg.srcChip]) s fun v => released v b [] ∧
            ∃ q, spFind? v.pod.outReqs s.w.nextId = some q ∧ q.msg.op = .barrierRelease ∧ q.msg.dstChip = r.msg.srcChip ∧
              q.msg.data = toLE 8 (gen b))) ∧
      (r.msg.op = .barrierRelease →
        (leNat r.msg.data = gen b → Makes (.barrierRelease id) s fun v => released v b []) ∧
        (leNat r.msg.data ≠ gen b → Makes (.barrierRelease id) s fun v => v.regs = s.w.regs ∧ v.sync = s.w.sync)))

/-- R259, for chip counters and for local counters. -/
def Obligations.AddsSaturateInSatModeAndWrapInWrapMode : Prop :=
  let taken (wrap : Bool) (x a x' : Nat) (sat sat' : Bool) : Prop :=
    (wrap = false → 2 ^ 48 - 1 < x + a → x' = 2 ^ 48 - 1 ∧ sat' = true) ∧
    (wrap = false → x + a ≤ 2 ^ 48 - 1 → x' = x + a ∧ sat' = sat) ∧
    (wrap = true → x' = (x + a) % 2 ^ 48 ∧ sat' = sat)
  let chipAdd (w v : Chip) (k a : Nat) : Prop :=
    let f (u : Chip) : Bool := u.flag (Addr.ccStatus k) F.ccStatus_SAT
    taken (w.flag (Addr.ccCfg k) F.ccCfg_MODE) (w.fld (Addr.ccValue k) F.ccValue_VALUE) a
      (v.fld (Addr.ccValue k) F.ccValue_VALUE) (f w) (f v) ∧
    (w.flag (Addr.ccCfg k) F.ccCfg_MODE = true → v.rd (Addr.ccStatus k) = w.rd (Addr.ccStatus k)) ∧
    v.rd (Addr.ccRefusedCount k) = w.rd (Addr.ccRefusedCount k)
  let localAdd (w v : Chip) (h k a : Nat) : Prop :=
    let l := Addr.ctxLc h (k / 4) (k % 4)
    taken (w.flag l F.ctxLc_MODE) (w.fld l F.ctxLc_VALUE) a (v.fld l F.ctxLc_VALUE) (w.flag l F.ctxLc_SAT)
      (v.flag l F.ctxLc_SAT) ∧ v.rd (Addr.seqSigRefused h) = w.rd (Addr.seqSigRefused h)
  let performed (v : Chip) (m : Msg) : Prop :=
    ∃ j r, v.msgRec? j = some r ∧ r.msg.op = .writeAck ∧ r.msg.status = 0 ∧ r.msg.acc = m.acc
  ∀ (s : State), s.w.live = true →
    (∀ id r, s.w.msgRec? id = some r → r.msg.op = .atomicAdd → s.w.hubTurn r = true → r.msg.srcChip = 255 →
      s.w.pairRefusal (Chip.ccIndex r.msg.addr) (leNat r.msg.data) = none → Makes (.counterAdd id 0) s fun v =>
        chipAdd s.w v (Chip.ccIndex r.msg.addr) (leNat r.msg.data) ∧ performed v r.msg) ∧
    (∀ k a, k < 512 → 0 < a → a < 2 ^ 32 → s.w.pairRefusal k a = none →
      Makes (.counterSignalWrite k a) s fun v => chipAdd s.w v k a) ∧
    (∀ id r h, s.w.msgRec? id = some r → r.msg.op = .atomicAdd → bit r.msg.arg 1 = true → r.dst = .core h →
      r.msg.srcChip = 255 → r.stage = .localOp → s.w.runs h = true → r.msg.status ≠ Chip.heldStatus →
      s.w.slotState h (Chip.lcIndex r.msg.addr / 4) ≠ slEmpty → s.w.slotState h (Chip.lcIndex r.msg.addr / 4) ≠ slSaving →
      Makes (.localCounterAdd id) s fun v => localAdd s.w v h (Chip.lcIndex r.msg.addr) (leNat r.msg.data) ∧
        performed v r.msg) ∧
    (∀ h k a, s.w.runs h = true → k < 16 → 0 < a → a < 2 ^ 32 → s.w.slotState h (k / 4) ≠ slEmpty →
      s.w.slotState h (k / 4) ≠ slSaving → Makes (.lcntSignalWrite h k a) s fun v => localAdd s.w v h k a)

/-- R260, for every place that tests a wait on a counter. -/
def Obligations.WaitsAreSatisfiedAsTheCountersModeSays : Prop :=
  let meets (wrap : Bool) (v t : Nat) : Prop :=
    (wrap = false ∧ t ≤ v) ∨ (wrap = true ∧ ((v : Int) - (t : Int)) % 2 ^ 48 < 2 ^ 47)
  let chipMeets (w : Chip) (k t : Nat) : Prop :=
    meets (w.flag (Addr.ccCfg k) F.ccCfg_MODE) (w.fld (Addr.ccValue k) F.ccValue_VALUE) t
  let keepsUnmet (w v : Chip) (k : Nat) : Prop :=
    ∀ p, p ∈ w.sync.regsHeld → p.2.counter = k → p.2.target < 2 ^ 48 →
      (p ∈ v.sync.regsHeld ↔ ¬ chipMeets v k p.2.target)
  ∀ (s : State), s.w.live = true →
    (∀ id r, s.w.msgRec? id = some r → r.msg.op = .waitNotify → s.w.hubTurn r = true → r.msg.arg ≠ 2 →
      leNat r.msg.data < 2 ^ 48 →
      let k := Chip.ccIndex r.msg.addr
      let t := leNat r.msg.data
      let others := spErase s.w.sync.regsHeld (Chip.regKey r.msg)
      let replied (v : Chip) (arg : Nat) : Prop :=
        v.sync.regsHeld = others ∧ ∃ a, v.msgRec? s.w.nextId = some a ∧ a.msg.op = .waitNotify ∧ a.msg.arg = arg
      (chipMeets s.w k t → Makes (.waitRegister id) s fun v => replied v 1) ∧
      (¬ chipMeets s.w k t → Makes (.waitRegister id) s fun v =>
        spFind? v.sync.regsHeld (Chip.regKey r.msg) = some ⟨k, t, r.msg⟩ ∨ replied v 3)) ∧
    (∀ k a, k < 512 → 0 < a → a < 2 ^ 32 → s.w.pairRefusal k a = none →
      Makes (.counterSignalWrite k a) s fun v => keepsUnmet s.w v k) ∧
    (∀ k cfg x, k < 512 → Makes (.counterValueWrite k cfg x) s fun v => keepsUnmet s.w v k) ∧
    (∀ n c k a, s.w.runs n = true → c < 4 → k < 16 → 0 < a → a < 2 ^ 32 → s.w.slotState n (k / 4) ≠ slEmpty →
      s.w.slotState n (k / 4) ≠ slSaving → s.w.slotState n c = slWaiting → s.w.waitKind n c = 1 →
      bit (s.w.rd (Addr.ctxWaitArg n c)) 39 = false → s.w.rd (Addr.ctxWaitTarget n c) < 2 ^ 48 →
      (s.w.slot n c).notified = false → (s.w.slot n c).heldWait = false → s.w.pastLimit n c s.w.time = false →
      let j := bits (s.w.rd (Addr.ctxWaitArg n c)) 3 0
      let l := Addr.ctxLc n (j / 4) (j % 4)
      Makes (.lcntSignalWrite n k a) s fun v =>
        (v.slot n c).notified = true ↔
          meets (v.flag l F.ctxLc_MODE) (v.fld l F.ctxLc_VALUE) (s.w.rd (Addr.ctxWaitTarget n c)))

/-- Queue, DMA and event commands of a context (R206, R251 to R255, R294, R301). -/
def Obligations.ContextQueueAndDmaCommandsAtIssue : Prop :=
  ∀ (s : State) (n c : Nat) (x : Cmd), c < 4 →
    let a := s.w.indexed n c x (bits x.w0 19 0) 20
    let out (chip : Nat) (dma : Bool) : OutOp :=
      { id := s.w.nextId, chip := chip, own := false, srcCp := x.cp, word0 := x.w0, word1 := x.w1, dmaPost := dma }
    let reads (v : Chip) (len chip : Nat) (dma : Bool) : Prop :=
      v.cp n c = x.cp + 8 ∧ (v.acc s.w.nextId).owner = .pushRead n c ∧ (v.acc s.w.nextId).kind = .rd ∧
      (v.acc s.w.nextId).addr = lmAddr n a ∧ (v.acc s.w.nextId).len = len ∧
      (v.slot n c).outs = (s.w.slot n c).outs ++ [out chip dma] ∧
      v = { s.w with regs := v.regs, slots := v.slots, accs := v.accs, nextId := v.nextId }
    let tracked (v : Chip) (chip next : Nat) : Prop :=
      v.cp n c = next ∧ (v.acc s.w.nextId).owner = .ctxOp n c ∧ (v.acc s.w.nextId).parts = 1 ∧
      (v.slot n c).outs = (s.w.slot n c).outs ++ [out chip false] ∧
      v = { s.w with regs := v.regs, slots := v.slots, accs := v.accs, nextId := v.nextId, net := v.net, pod := v.pod }
    (s.w.atIssue n c 0x50 x → (resvChk x [(47, 40), (37, 24), (19, 0)] [] true).bad = false → a % 128 = 0 →
      s.w.reachable (bits x.w0 47 40) = true → ∀ e, Makes (.queuePush n ⟨c, e⟩) s fun v =>
        reads v (if s.w.isSelf (bits x.w0 47 40) = true then s.w.qE (bits x.w0 37 24) else 16 * 2 ^ (e % 4))
          (s.w.resolve (bits x.w0 47 40)) false ∧ s.w.counted v n c []) ∧
    (s.w.atIssue n c 0x40 x → (resvChk x [(41, 40), (19, 0)] [] true).bad = false → a % 64 = 0 →
      Makes (.dmaPost n c) s fun v =>
        reads v 64 255 true ∧ s.w.counted v n c [Addr.ctxStatus n c] ∧
        v.fld (Addr.ctxStatus n c) F.ctxStatus_DMA_OUT =
          (s.w.fld (Addr.ctxStatus n c) F.ctxStatus_DMA_OUT + 1) % 2 ^ 16 ∧
        (v.slot n c).posted = (s.w.slot n c).posted ++ [⟨s.w.nextId, bits x.w0 41 40, x.cp, x.w0, x.w1⟩]) ∧
    (s.w.atIssue n c 0x51 x → (resvChk x [(47, 40), (37, 24), (19, 0)] [] true).bad = false → a % 128 = 0 →
      s.w.isSelf (bits x.w0 47 40) = true → Makes (.queuePop n c) s fun v =>
        tracked v 255 (x.cp + 8) ∧ s.w.counted v n c [] ∧
        ∃ r, v.msgRec? (s.w.nextId + 1) = some r ∧ r.dst = .hub ∧ r.msg.op = .queuePop ∧ r.msg.addr = bits x.w0 37 24 ∧
          r.msg.pos = a ∧ r.msg.acc = s.w.nextId) ∧
    (s.w.atIssue n c 0x60 x → (resvChk x [(47, 40), (11, 0)] [(31, 0)] true).bad = false →
      let e := bits x.w0 11 0
      let chip := s.w.resolve (bits x.w0 47 40)
      let m (g : Msg) : Prop := g.op = .eventMsg ∧ g.addr = e ∧ g.data = toLE 4 (s.w.indexed n c x (bits x.w1 31 0) 32) ∧ g.acc = s.w.nextId
      (0xAC0 ≤ e ∧ e ≤ 0xFFE) ∨ (e = n * 16 + 15 ∧ s.w.isSelf (bits x.w0 47 40) = true) →
      s.w.reachable (bits x.w0 47 40) = true → Makes (.eventRaise n c) s fun v =>
        tracked v chip (x.cp + 16) ∧ s.w.counted v n c [] ∧
        (chip = 255 → ∃ r, v.msgRec? (s.w.nextId + 1) = some r ∧ r.dst = .hub ∧ m r.msg) ∧
        (chip ≠ 255 → ∃ q, spFind? v.pod.outReqs (s.w.nextId + 1) = some q ∧ q.msg.dstChip = chip ∧ m q.msg)) ∧
    (s.w.atIssue n c 0x41 x → onlyBits x.w0 [(63, 56), (2, 0)] = true → bits x.w0 2 0 < 5 →
      let ids := ((s.w.slot n c).posted.filter fun p =>
        bits x.w0 2 0 == 4 || p.chan == bits x.w0 2 0).map fun p => p.id
      Makes (.dmaWait n c) s fun v =>
        v.slotState n c = slWaiting ∧ v.waitKind n c = 4 ∧ v.cp n c = x.cp + 8 ∧ (v.slot n c).dmaWait = ids ∧
        ((v.slot n c).notified = true ↔ ids = []) ∧
        s.w.counted v n c [Addr.ctxHdr n c, Addr.ctxSched n c, Addr.ctxWaitArg n c, Addr.ctxWaitTarget n c]) ∧
    (let t := s.w.slot n c
     let q := s.w.fld (Addr.ctxQbind n c) F.ctxQbind_QUEUE
     s.w.runs n = true → s.w.slotState n c = slActive → s.w.flag (Addr.ctxQbind n c) F.ctxQbind_BOUND = true →
      s.w.flag (Addr.ctxQbind n c) F.ctxQbind_TAKE = true → t.taking = none → t.frame = none → t.quiesce = .no →
      t.faults = [] → t.deferred = 0 → s.w.atBoundary n c = true →
      (s.w.qType q = 1 → s.w.qBind q = n + c * 64 →
        (s.w.qHeld q = true ∨ s.w.qIdle q = false ∨ s.w.qFirst q s.w.nextId = false → Gives (.contextTake n c) s s.w) ∧
        (s.w.qHeld q = false → s.w.qIdle q = true → s.w.qFirst q s.w.nextId = true →
          (s.w.qDepth q = 0 → Makes (.contextTake n c) s fun v =>
            v.slotState n c = slWaiting ∧ v.waitKind n c = 5 ∧ s.w.keeps v [Addr.ctxHdr n c, Addr.ctxSched n c] ∧
            v = { s.w with regs := v.regs, slots := v.slots }) ∧
          (s.w.qDepth q ≠ 0 → Makes (.contextTake n c) s fun v =>
            (v.slot n c).taking = some q ∧
            (∃ o, v.qOp? q = some o ∧ o.kind = 2 ∧ o.core = n ∧ o.slot = c ∧ o.index = s.w.qCons q ∧ o.acc = s.w.nextId) ∧
            (s.w.cfg (Addr.qQcfg q) F.qQcfg_SPACE = 0 → v.regs = s.w.regs ∧
              (v.acc s.w.nextId).owner = .qop q ∧ (v.acc s.w.nextId).kind = .rd)))) ∧
      (s.w.qType q ≠ 1 ∨ s.w.qBind q ≠ n + c * 64 → Makes (.contextTake n c) s fun v =>
        s.w.faults v n c { code := 9, unit := 4, detail := 0x303, srcCp := s.w.cp n c, time := s.w.time }))

/-- Queue operations (R206, R298 to R301, R304, R306, R310, R314). -/
def Obligations.PushesAndPopsMoveTheIndicesOfTheirQueue : Prop :=
  ∀ (s : State) (q : Nat), s.w.live = true → q < 16384 →
    let iris := (List.range 32).map Addr.irisStatus
    let answered (v : Chip) (m : Msg) (op : Op) (st d : Nat) : Prop := m.srcChip = 255 ∨ s.w.isMember m.srcChip = true →
      ∃ a, v.msgRec? s.w.nextId = some a ∧ a.msg.op = op ∧ a.msg.status = st ∧ a.msg.addr = d ∧ a.msg.acc = m.acc ∧
        a.msg.dstChip = m.srcChip ∧ a.dst = s.w.towards m.srcChip (if 8 ≤ m.srcUnit then .hub else .core m.srcCore)
    let refused (v : Chip) (m : Msg) (d : Nat) (as : List Nat) : Prop :=
      v.fld (Addr.qRefusedCount q) ⟨31, 0⟩ = min (s.w.fld (Addr.qRefusedCount q) ⟨31, 0⟩ + 1) (2 ^ 32 - 1) ∧
      answered v m .writeAck 9 d ∧ s.w.keeps v (Addr.qRefusedCount q :: as)
    let failed (v : Chip) (a : Acc) : Prop :=
      v.flag (Addr.qStatus q) F.qStatus_RING_ERR = true ∧ v.qOp? q = none ∧ s.w.keeps v [Addr.qStatus q, Addr.qErrLog q] ∧
      (s.w.flag (Addr.qErrLog q) F.qErrLog_VALID = true → v.rd (Addr.qErrLog q) = s.w.rd (Addr.qErrLog q)) ∧
      (s.w.flag (Addr.qErrLog q) F.qErrLog_VALID = false → a.fault < 256 → v.fld (Addr.qErrLog q) ⟨7, 0⟩ = a.fault)
    let alone : Prop := ∀ r, r ∈ s.w.que.wait → r.q ≠ q
    (∀ id r ecc, s.w.msgRec? id = some r → s.w.hubTurn r = true → r.msg.op = .queuePush →
      let go (w : Chip) : Chip := ((w.dropMsg id).performPush q r).qGoOn q
      (s.w.msgQueue? r.msg = none → Makes (.queuePushPerform id ecc) s fun v =>
        v.regs = s.w.regs ∧ answered v r.msg .writeAck 9 0x303) ∧
      (s.w.msgQueue? r.msg = some q → s.w.qHeld q = false →
        (s.w.qIdle q = false ∨ s.w.qFirst q r.stamp = false → Gives (.queuePushPerform id ecc) s s.w) ∧
        (s.w.qIdle q = true → s.w.qFirst q r.stamp = true → Gives (.queuePushPerform id ecc) s
          (match s.w.chipEcc 1 (q * 8 + 3) ecc with
          | (w, .good) => go w
          | (w, .bad) => w
          | (w, .open_ x) => go (w.setReg (Addr.qIndex q) x))))) ∧
    (∀ id r, s.w.msgRec? id = some r → s.w.hubTurn r = true → r.msg.op = .queuePop → r.msg.addr % 16384 = q →
      (∀ p, p ∈ s.w.que.ops → p.2.src ≠ id) → s.w.qHeld q = false →
      (s.w.qIdle q = false ∨ s.w.qFirst q r.stamp = false → Gives (.queuePopPerform id) s s.w) ∧
      (s.w.qIdle q = true → s.w.qFirst q r.stamp = true →
        Gives (.queuePopPerform id) s (((s.w.dropMsg id).performPop q id r).qGoOn q))) ∧
    (∀ id r i refusal, s.w.msgRec? id = some r → s.w.hubTurn r = true →
      (i = Instr.queuePushPerform id 0 ∧ r.msg.op = .queuePush ∧ s.w.msgQueue? r.msg = some q ∧ refusal = s.w.pushRefusal q) ∨
      (i = .queuePopPerform id ∧ r.msg.op = .queuePop ∧ r.msg.addr % 16384 = q ∧ refusal = s.w.popRefusal q ∧
        ∀ p, p ∈ s.w.que.ops → p.2.src ≠ id) →
      (s.w.qHeld q = false → s.w.qIdle q = true → s.w.qFirst q r.stamp = true →
        (∀ d, refusal = some d → alone → Makes i s fun v => refused v r.msg d []) ∧
        (refusal = none → Makes i s fun v =>
          (s.w.cfg (Addr.qQcfg q) F.qQcfg_SPACE = 0 → v.regs = s.w.regs ∧ (v.acc s.w.nextId).owner = .qop q ∧
            (v.acc s.w.nextId).kind = (if r.msg.op = .queuePush then AccKind.wr else .rd)) ∧
          ∃ o, v.qOp? q = some o ∧ o.msg = some r ∧ o.acc = s.w.nextId ∧
            (r.msg.op = .queuePush → o.kind = 0 ∧ o.index = s.w.qProd q ∧ o.data = r.msg.data.take (s.w.qE q)) ∧
            (r.msg.op = .queuePop → o.kind = 1 ∧ o.index = s.w.qCons q ∧ o.src = id))) ∧
      (s.w.qHeld q = true →
        (s.w.que.held.length < 64 → Makes i s fun v => v.regs = s.w.regs ∧
          ∃ h, v.que.held = s.w.que.held ++ [h] ∧ h.q = q ∧ h.msg = some r) ∧
        (64 ≤ s.w.que.held.length → Makes i s fun v =>
          refused v r.msg (if r.msg.op = .queuePush then 0x300 else 0x301) [Addr.qStatus q] ∧
          v.flag (Addr.qStatus q) F.qStatus_HELD_REFUSED = true))) ∧
    (∀ o r, s.w.qOp? q = some o → o.kind = 0 → o.msg = some r → (s.w.acc o.acc).done = true →
      let a := s.w.acc o.acc
      let w := s.w.dropAcc o.acc
      let tags := if r.msg.arg = 1 then spInsert w.que.tags (q * 2 ^ 32 + o.index) ⟨r.msg.srcSlot, r.msg.fillTag, r.msg.acc⟩
        else w.que.tags
      (a.fault = 0 → Gives (.queuePushCommit q) s
        (((((({ w with que := { w.que with tags := tags } }).setProd q (o.index + 1)).answer .hub r.msg .writeAck 0 0 []).dropQOp
          q).entryCommitted q).depthSample q |>.qNext q)) ∧
      (a.fault ≠ 0 → Gives (.queuePushCommit q) s
        (((w.ringErr q a.fault 0 o.index).answer .hub r.msg .writeAck a.fault a.detail []).qNext q))) ∧
    (∀ o mid r n, s.w.qOp? q = some o → o.kind = 1 → o.answer = some mid → s.w.msgRec? mid = some r → r.stage = .resp →
      r.dst = .core n →
      Gives (.queuePopDelivered q) s ((((s.w.dropMsg mid).popArrives n r.msg).popped q o.index).qNext q)) ∧
    (∀ o, s.w.qOp? q = some o → alone →
      let a := s.w.acc o.acc
      (∀ r, o.kind = 0 → o.msg = some r → a.done = true →
        (a.fault = 0 → Makes (.queuePushCommit q) s fun v =>
          v.qProd q = (o.index + 1) % 2 ^ 32 ∧ v.qOp? q = none ∧ answered v r.msg .writeAck 0 0 ∧
          s.w.keeps v (Addr.qIndex q :: iris)) ∧
        (a.fault ≠ 0 → Makes (.queuePushCommit q) s fun v => failed v a ∧ answered v r.msg .writeAck a.fault a.detail)) ∧
      (∀ r, o.kind = 1 → o.msg = some r → o.answer = none → a.done = true →
        s.w.que.ops.find? (fun p => p.2.kind == 1 && p.2.src == o.src && p.2.answer.isNone) = some (q, o) →
        (a.fault = 0 → Makes (.queuePopPerform o.src) s fun v =>
          v.regs = s.w.regs ∧ answered v r.msg .popAnswer 0 0 ∧
          v.qOp? q = some { o with answer := some s.w.nextId, data := a.data }) ∧
        (a.fault ≠ 0 → Makes (.queuePopPerform o.src) s fun v => failed v a ∧ answered v r.msg .writeAck a.fault a.detail)) ∧
      (∀ mid r n, o.kind = 1 → o.answer = some mid → s.w.msgRec? mid = some r → r.stage = .resp → r.dst = .core n →
        s.w.qType q ≠ 3 → Makes (.queuePopDelivered q) s fun v =>
          v.qCons q = (if s.w.qCons q = o.index then (o.index + 1) % 2 ^ 32 else s.w.qCons q) ∧ v.qOp? q = none ∧
          s.w.keeps v (Addr.qIndex q :: iris) ∧
          ((∃ e, e ∈ (s.w.slot n r.msg.srcSlot).outs ∧ e.id = r.msg.acc) →
            (v.acc s.w.nextId).owner = .seqStore n r.msg.srcSlot ∧ (v.acc s.w.nextId).kind = .wr ∧
            (v.acc s.w.nextId).addr = lmAddr n (r.msg.pos % 0x100000) ∧ (v.acc s.w.nextId).data = r.msg.data)) ∧
      (o.kind = 2 → a.done = true → a.fault ≠ 0 → o.core < 64 → o.slot < 4 → Makes (.queuePopDelivered q) s fun v =>
        s.w.faults v o.core o.slot
          { code := a.fault, unit := 4, detail := a.detail, srcCp := s.w.cp o.core o.slot, time := s.w.time } ∧
        v.flag (Addr.qStatus q) F.qStatus_RING_ERR = true ∧ v.qCons q = s.w.qCons q ∧ v.qOp? q = none) ∧
      (o.kind = 2 → a.done = true → a.fault = 0 → s.w.qType q = 1 → o.core < 64 → o.slot < 4 →
        let w0 := wordOf a.data 0
        2 ^ 20 ≤ w0 ∨ w0 % 8 ≠ 0 → Makes (.queuePopDelivered q) s fun v =>
          s.w.faults v o.core o.slot { code := 1, unit := 0, detail := 3, srcCp := s.w.cp o.core o.slot, word0 := w0,
                                       word1 := wordOf a.data 1, time := s.w.time } ∧
          v.qCons q = (o.index + 1) % 2 ^ 32 ∧ v.qOp? q = none) ∧
      (o.kind = 2 → a.done = true → a.fault = 0 → s.w.qType q = 1 → o.core < 64 → o.slot < 4 →
        let w0 := wordOf a.data 0
        w0 < 2 ^ 20 → w0 % 8 = 0 → Makes (.queuePopDelivered q) s fun v =>
          v.cp o.core o.slot = w0 ∧ v.scratch o.core o.slot 7 = wordOf a.data 1 ∧
          v.flag (Addr.ctxQbind o.core o.slot) F.ctxQbind_TAKE = false ∧ (v.slot o.core o.slot).taking = none ∧
          v.qCons q = (o.index + 1) % 2 ^ 32 ∧ v.qOp? q = none ∧
          s.w.keeps v ([Addr.qIndex q, Addr.ctxCp o.core o.slot, Addr.ctxS o.core o.slot 7, Addr.ctxQbind o.core o.slot] ++ iris)) ∧
      (o.kind = 3 → a.done = true → a.fault = 0 → s.w.qType q = 2 → o.core < 64 → o.slot < 4 →
        let x := s.w.chan o.core o.slot
        (x.cur = none ∨ bit (wordOf a.data 2) 52 = false → Makes (.queuePopDelivered q) s fun v =>
          (∃ d, (if x.cur = none then (v.chan o.core o.slot).cur = some d
              else (v.chan o.core o.slot).next = some d ∧ (v.chan o.core o.slot).cur = x.cur) ∧
            d.words = (List.range 8).map (wordOf a.data) ∧ d.tag = spFind? s.w.que.tags (q * 2 ^ 32 + o.index)) ∧
          (v.chan o.core o.slot).fetching = false ∧
          v.chState o.core o.slot = (if s.w.chState o.core o.slot = 0 then 1 else s.w.chState o.core o.slot) ∧
          v.qCons q = (o.index + 1) % 2 ^ 32 ∧ s.w.keeps v ([Addr.qIndex q, Addr.chStatus o.core o.slot] ++ iris)) ∧
        (x.cur ≠ none → bit (wordOf a.data 2) 52 = true → Makes (.queuePopDelivered q) s fun v =>
          v.chan o.core o.slot = { x with fetching := false, fenceHold := true } ∧ v.regs = s.w.regs ∧ v.qOp? q = none)) ∧
      (o.kind = 3 → a.done = true → a.fault ≠ 0 → Makes (.queuePopDelivered q) s fun v =>
        v.chan o.core o.slot = { s.w.chan o.core o.slot with fetching := false, fetchFault := some (a.fault, a.detail) } ∧
        failed v a))

/-- Doorbells and holds (R298, R302, R310, R311). -/
def Obligations.DoorbellsAndTheHoldOfAQueue : Prop :=
  ∀ (s : State) (q x : Nat) (port : WritePort), s.w.live = true → q < 16384 → x < 2 ^ 32 →
    let prod := Instr.dbProdWrite q ⟨x, port⟩
    let cons := Instr.dbConsWrite q ⟨x, port⟩
    let iris := (List.range 32).map Addr.irisStatus
    let bad (v : Chip) (as : List Nat) : Prop :=
      v.flag (Addr.qStatus q) F.qStatus_DB_BAD = true ∧
      v.fld (Addr.qDbBadCount q) ⟨31, 0⟩ = min (s.w.fld (Addr.qDbBadCount q) ⟨31, 0⟩ + 1) (2 ^ 32 - 1) ∧
      s.w.keeps v ([Addr.qStatus q, Addr.qDbBadCount q] ++ as)
    (Gives (.queueHoldSet q) s (s.w.setFlag (Addr.qCtrl q) F.qCtrl_HOLD true)) ∧
    (s.w.doorbellTurn port = false → Gives prod s s.w ∧ Gives cons s s.w) ∧
    ((∀ r, r ∈ s.w.que.wait → r.q ≠ q) → s.w.doorbellTurn port = true →
      (s.w.qHeld q = false → s.w.qIdle q = true → s.w.qMsgs q = [] →
        (let added := (x + 2 ^ 32 - s.w.qProd q) % 2 ^ 32
         (x = s.w.qProd q → Makes prod s fun v => v.regs = s.w.regs ∧ v.que = s.w.que) ∧
         (x ≠ s.w.qProd q →
          (s.w.qType q ≠ 0 → s.w.cfg (Addr.qQcfg q) F.qQcfg_PMODE = 1 → added ≤ s.w.qN q - s.w.qDepth q →
            Makes prod s fun v => v.qProd q = x ∧ v.qCons q = s.w.qCons q ∧
              s.w.keeps v (Addr.qIndex q :: iris)) ∧
          (s.w.qType q = 0 ∨ s.w.cfg (Addr.qQcfg q) F.qQcfg_PMODE ≠ 1 ∨ s.w.qN q - s.w.qDepth q < added →
            Makes prod s fun v => bad v [] ∧ v.que = s.w.que))) ∧
        (let taken := (x + 2 ^ 32 - s.w.qCons q) % 2 ^ 32
         (x = s.w.qCons q → Makes cons s fun v => v.regs = s.w.regs ∧ v.que = s.w.que) ∧
         (x ≠ s.w.qCons q →
          (s.w.qType q ∉ [0, 3] → s.w.cfg (Addr.qQcfg q) F.qQcfg_CMODE = 1 → taken ≤ s.w.qDepth q →
            Makes cons s fun v => v.qCons q = x ∧ v.qProd q = s.w.qProd q ∧
              s.w.keeps v (Addr.qIndex q :: iris)) ∧
          (s.w.qType q = 0 ∨ s.w.cfg (Addr.qQcfg q) F.qQcfg_CMODE ≠ 1 ∨ s.w.qDepth q < taken →
            Makes cons s fun v => bad v [] ∧ v.que = s.w.que)))) ∧
      (∀ i k, (i = prod ∧ k = QKind.dbProd) ∨ (i = cons ∧ k = .dbCons) →
        let r : QReq := { q := q, kind := k, stamp := s.w.nextId, v := x, pod := port == .pod }
        (s.w.qHeld q = false → s.w.qIdle q = false → Makes i s fun v =>
          v.que.wait = s.w.que.wait ++ [r] ∧ v.regs = s.w.regs) ∧
        (s.w.qHeld q = true → s.w.que.held.length < 64 → Makes i s fun v =>
          v.que.held = s.w.que.held ++ [r] ∧ v.regs = s.w.regs) ∧
        (s.w.qHeld q = true → 64 ≤ s.w.que.held.length → Makes i s fun v =>
          bad v [] ∧ v.flag (Addr.qStatus q) F.qStatus_HELD_REFUSED = true ∧ v.que = s.w.que)) ∧
      ((∀ r, r ∈ s.w.que.held → r.q ≠ q) → Makes (.queueHoldRelease q) s fun v =>
        v.qHeld q = false ∧ v.que = s.w.que ∧ s.w.keeps v [Addr.qCtrl q])) ∧
    (s.w.qIdle q = false → Makes (.queueHoldRelease q) s fun v =>
      v.qHeld q = false ∧ s.w.keeps v [Addr.qCtrl q] ∧
      v.que.wait = s.w.que.wait ++ s.w.que.held.filter (fun r => r.q == q) ∧
      v.que.held = s.w.que.held.filter (fun r => r.q != q))

/-- Requests of event sources (R346 to R349, R357, R359, R360, R362, R369, R371, R585). -/
def Obligations.EventRequestsEnterCountAndLeaveTheirSource : Prop :=
  ∀ (s : State) (k : Nat), s.w.live = true → k < 0xFFF →
    let pending (x : EvSrc) (p : Nat) (level replay counted : Bool) : EvSrc :=
      { x with
        state := 1, payload := p, time := s.w.time, level := level, replay := replay, counted := counted, withdrawn := false,
        stalled := [] }
    let edge (x : EvSrc) (p : Nat) : EvSrc :=
      if x.state = 0 then pending x p false false false
      else if x.rep = 255 then { x with sat := true, replayPayload := p } else { x with rep := x.rep + 1, replayPayload := p }
    let withdrawn (x : EvSrc) : EvSrc :=
      if x.state = 1 then { x with state := 0, rep := 0, sat := false, level := false, replay := false, counted := false }
      else if x.state = 2 then { x with rep := 0, sat := false, withdrawn := true } else x
    let becomes (v : Chip) (x : EvSrc) : Prop := v.evSrc k = x ∧ (∀ j, j ≠ k → v.evSrc j = s.w.evSrc j)
    let only (v : Chip) (x : EvSrc) : Prop := becomes v x ∧ v = { s.w with evt := v.evt }
    let x := s.w.evSrc k
    let now := s.w.sensedInput k
    let y : EvSrc := { x with sensed := now }
    let p := s.w.srcPayloadNow k
    (∀ i, i = Instr.sourceInputChange k ∨ (i = .watchdogWarning ∧ k = 0xA81) → Chip.swSource k = false →
      (now = x.sensed → Gives i s s.w) ∧
      (now ≠ x.sensed →
        (s.w.sense k = 0 ∨ s.w.sense k = 1 →
          (now = (s.w.sense k == 0) → Makes i s fun v => only v (if x.state = 0 then pending y p true false false else y)) ∧
          (now ≠ (s.w.sense k == 0) → Makes i s fun v => only v (if x.level = true then withdrawn y else y))) ∧
        ((s.w.sense k = 2 ∧ now = true) ∨ (s.w.sense k = 3 ∧ now = false) ∨ s.w.sense k = 4 →
          Makes i s fun v => only v (edge y (p % 2 ^ 32))) ∧
        ((s.w.sense k = 2 ∧ now = false) ∨ (s.w.sense k = 3 ∧ now = true) → Makes i s fun v => only v y))) ∧
    (∀ a, a < 2 ^ 32 →
      (0xAC0 ≤ k → Makes (.evtRaise k a) s fun v => only v (edge x a)) ∧
      (k < 0xAC0 → Gives (.evtRaise k a) s (s.w.setFlag Addr.evtStatus F.evtStatus_BAD_RAISE true))) ∧
    (Makes (.pendSet k) s fun v => only v (edge x 0)) ∧
    (Makes (.pendClr k) s fun v => only v (withdrawn x)) ∧
    (∀ id r, s.w.msgRec? id = some r → r.msg.op = .eventMsg → s.w.hubTurn r = true → r.msg.addr % 4096 = k →
      Makes (.eventMsg id) s fun v =>
        becomes v (edge x (leNat r.msg.data % 2 ^ 32)) ∧ v.regs = s.w.regs ∧
        (r.msg.srcChip = 255 ∨ s.w.isMember r.msg.srcChip = true → ∃ a, v.msgRec? s.w.nextId = some a ∧
          a.msg.op = .writeAck ∧ a.msg.status = 0 ∧ a.msg.acc = r.msg.acc ∧ a.msg.dstChip = r.msg.srcChip)) ∧
    (x.state = 3 → s.w.cfg (Addr.srcCfg k) F.srcCfg_COMP = 0 →
      (x.rep ≠ 0 → Makes (.evtComplete k) s fun v => only v (pending x x.replayPayload false true true)) ∧
      (x.rep = 0 → s.w.levelOn k = true → Makes (.evtComplete k) s fun v => only v (pending x p true true false)) ∧
      (x.rep = 0 → s.w.levelOn k = false → Makes (.evtComplete k) s fun v => only v
        { x with state := 0, level := false, replay := false, counted := false, withdrawn := false })) ∧
    (x.state ≠ 3 ∨ s.w.cfg (Addr.srcCfg k) F.srcCfg_COMP ≠ 0 →
      Gives (.evtComplete k) s (s.w.setFlag Addr.evtStatus F.evtStatus_BAD_COMPLETE true)) ∧
    (∀ g b, g < 64 → b < 2 ^ 64 →
      (Makes (.evtMaskWrite g true b) s fun v => v.rd (Addr.evtMask g) = Nat.lor (s.w.rd (Addr.evtMask g)) b ∧
        s.w.keeps v [Addr.evtMask g]) ∧
      (Makes (.evtMaskWrite g false b) s fun v =>
        v.rd (Addr.evtMask g) = Nat.land (s.w.rd (Addr.evtMask g)) (2 ^ 64 - 1 - b) ∧ s.w.keeps v [Addr.evtMask g]))

/-- Selection, claim and moderation (R351 to R358, R363, R364). -/
def Obligations.EventsAreSelectedClaimedAndModerated : Prop :=
  ∀ (s : State), s.w.live = true →
    (s.w.pendingSrcs = [] → Gives .eventSelect s s.w) ∧
    (let w := s.w.pendingSrcs.foldl (fun w k => w.stallSrc k) s.w
     let full : Prop := 8 ≤ (w.evt.srcs.filter fun p => p.2.state == 2).length
     (full ∨ w.nextSource = none → Gives .eventSelect s w) ∧
     ∀ k i t q, ¬ full → w.nextSource = some k → w.usableSlot k = some (i, t, q) →
      Gives .eventSelect s (w.selectSrc k i t q)) ∧
    (∀ k t q, s.w.pendingSrcs = [k] → (s.w.evSrc k).state = 1 → k < 4096 → t ≤ 128 →
      let x := s.w.evSrc k
      let i := x.slotNext % 4
      ((s.w.evt.srcs.filter fun p => p.2.state == 2).length < 8 → bit (s.w.rd (Addr.evtMask (k / 64))) (k % 64) = false →
        spFind? s.w.evt.holdEnd (k / 64) = none → s.w.routeSlot k i = some t → s.w.eligible t = some q →
        s.w.qHeld q = false → s.w.qIdle q = true → s.w.qMsgs q = [] → (∀ r, r ∈ s.w.que.wait → r.q ≠ q) →
        Makes .eventSelect s fun v =>
          v.evSrc k = { x with state := 2, slot := i, slotNext := (i + 1) % 4, target := t, queue := q, selSat := x.sat,
                               selPayload := if x.counted = true then x.replayPayload else x.payload } ∧
          (∃ o, v.qOp? q = some o ∧ o.kind = 4 ∧ o.src = k ∧ o.index = s.w.qProd q ∧ o.data = v.recordBytes k) ∧
          (s.w.cfg (Addr.qQcfg q) F.qQcfg_SPACE = 0 → v.regs = s.w.regs)) ∧
      (s.w.usableSlot k = none → s.w.routeSlot k 0 = some t → (∀ j, j ∈ [1, 2, 3] → s.w.routeSlot k j = none) →
        s.w.tgtUp t = some q → s.w.tgtRoom q = false → x.stalled = [] → Makes .eventSelect s fun v =>
          v.flag (Addr.tgtStatus t) F.tgtStatus_STALL = true ∧
          v.fld (Addr.tgtStalls t) ⟨31, 0⟩ = min (s.w.fld (Addr.tgtStalls t) ⟨31, 0⟩ + 1) (2 ^ 32 - 1) ∧
          v.evSrc k = { x with stalled := [t] } ∧ s.w.keeps v [Addr.tgtStatus t, Addr.tgtStalls t])) ∧
    (∀ q o ecc, s.w.qOp? q = some o → o.kind = 4 → (s.w.acc o.acc).done = true →
      let f := (s.w.acc o.acc).fault
      let go (w : Chip) : Chip :=
        if w.recordBytes o.src = o.data then ((w.dropAcc o.acc).claim q o.src o.index).qNext q
        else (w.dropAcc o.acc).startOp q { o with data := w.recordBytes o.src } .wr
      (f = 0 → Gives (.recordClaim q ecc) s
        (match s.w.chipEcc 2 o.src ecc with
        | (w, .good) => go w
        | (w, .bad) => w
        | (w, .open_ x) => go (w.setEvSrc o.src { w.evSrc o.src with payload := x % 2 ^ 32 }))) ∧
      (f ≠ 0 → Gives (.recordClaim q ecc) s ((((s.w.dropAcc o.acc).ringErr q f 4 o.index).recordFailed o.src).qNext q))) ∧
    (∀ q o, s.w.qOp? q = some o → o.kind = 4 → (s.w.acc o.acc).done = true → (∀ r, r ∈ s.w.que.wait → r.q ≠ q) →
      q < 16384 → o.src < 4096 →
      let x := s.w.evSrc o.src
      let t := x.target
      let n := if (o.index + 1 + 2 ^ 32 - s.w.qCons q) % 2 ^ 32 = 1 then 1 else (s.w.evTgt t).count + 1
      t ≤ 128 →
      ((s.w.acc o.acc).fault = 0 → s.w.recordBytes o.src = o.data → x.withdrawn = false → t ≠ 64 → o.index < 2 ^ 32 →
        Makes (.recordClaim q 0) s fun v =>
          v.qProd q = (o.index + 1) % 2 ^ 32 ∧ v.qOp? q = none ∧
          (v.evSrc o.src).state = 3 ∧ (v.evSrc o.src).index = o.index ∧
          v.fld Addr.evtDelivered ⟨31, 0⟩ = min (s.w.fld Addr.evtDelivered ⟨31, 0⟩ + 1) (2 ^ 32 - 1) ∧
          v.fld (Addr.tgtRecords t) ⟨31, 0⟩ = min (s.w.fld (Addr.tgtRecords t) ⟨31, 0⟩ + 1) (2 ^ 32 - 1) ∧
          (v.tgtInt t = true ↔ s.w.tgtInt t = true ∨ max 1 (s.w.cfg (Addr.tgtCfg t) F.tgtCfg_COAL_N) ≤ n) ∧
          (s.w.tgtInt t = true → s.w.signals t = false →
            s.w.keeps v ([Addr.qIndex q, Addr.evtDelivered, Addr.evtReplays, Addr.tgtRecords t] ++
              (List.range 32).map Addr.irisStatus))) ∧
      ((s.w.acc o.acc).fault = 0 → s.w.recordBytes o.src = o.data → x.withdrawn = true → t ≠ 64 →
        Makes (.recordClaim q 0) s fun v =>
          v.qProd q = (o.index + 1) % 2 ^ 32 ∧ v.qOp? q = none ∧ (v.evSrc o.src).state = 0 ∧ (v.evSrc o.src).rep = 0 ∧
          (v.evSrc o.src).sat = false ∧
          v.fld Addr.evtSpurious ⟨31, 0⟩ = min (s.w.fld Addr.evtSpurious ⟨31, 0⟩ + 1) (2 ^ 32 - 1) ∧
          v.fld (Addr.tgtRecords t) ⟨31, 0⟩ = min (s.w.fld (Addr.tgtRecords t) ⟨31, 0⟩ + 1) (2 ^ 32 - 1)) ∧
      ((s.w.acc o.acc).fault = 0 → s.w.recordBytes o.src ≠ o.data → Makes (.recordClaim q 0) s fun v =>
        (∃ e, v.qOp? q = some e ∧ e.kind = 4 ∧ e.src = o.src ∧ e.index = o.index ∧ e.data = s.w.recordBytes o.src) ∧
        v.qProd q = s.w.qProd q ∧ (v.evSrc o.src).state = x.state) ∧
      ((s.w.acc o.acc).fault ≠ 0 → Makes (.recordClaim q 0) s fun v =>
        v.flag (Addr.tgtStatus t) F.tgtStatus_ERR = true ∧ v.flag Addr.evtStatus F.evtStatus_WRITE_ERR = true ∧
        v.flag (Addr.qStatus q) F.qStatus_RING_ERR = true ∧ v.qOp? q = none ∧
        (v.evSrc o.src).state = (if x.withdrawn = true then 0 else 1) ∧
        s.w.keeps v [Addr.tgtStatus t, Addr.evtStatus, Addr.qStatus q, Addr.qErrLog q])) ∧
    (∀ g e, spFind? s.w.evt.holdEnd g = some e → e ≤ s.w.time → Makes (.holdoffExpiry g) s fun v =>
      spFind? v.evt.holdEnd g = none ∧ (∀ j, j ≠ g → spFind? v.evt.holdEnd j = spFind? s.w.evt.holdEnd j) ∧
      v = { s.w with evt := v.evt }) ∧
    (∀ t e, (s.w.evTgt t).timer = some e → e ≤ s.w.time → s.w.tgtInt t = false → t ≤ 128 → t ≠ 64 →
      Makes (.coalesceTimerExpiry t) s fun v => v.tgtInt t = true ∧ (v.evTgt t).timer = none) ∧
    (∀ e, (s.w.evTgt 64).timer = some e → e ≤ s.w.time → s.w.tgtInt 64 = false →
      Gives (.coalesceTimerExpiry 64) s (match s.w.evQueue? 64 with
        | some q => (s.w.raiseInt 64).stewardTakes q
        | none => s.w.raiseInt 64))

/-- Descriptors and transactions (R314, R317 to R321, R336). -/
def Obligations.DescriptorsAreFetchedCheckedAndTransferred : Prop :=
  ∀ (s : State) (n h : Nat), s.w.live = true → s.w.coreUp n = true → h < 4 →
    let x := s.w.chan n h
    let iris := (List.range 32).map Addr.irisStatus
    let current (d : Desc) : Bool := x.cur.any fun e => e.uid == d.uid
    let fails (v : Chip) (d : Desc) (f : Nat × Nat × Bool × Nat) : Prop :=
      (∃ e, v.desc? n h d.uid = some e ∧ e.fault = some f ∧ e.failAt = some (d.x, d.y, d.z)) ∧
      v.chState n h = (if current d = true then 2 else s.w.chState n h) ∧ s.w.keeps v [Addr.chStatus n h]
    let presents (v : Chip) (id : Nat) (kind : AccKind) (a len t : Nat) : Prop :=
      (v.acc id).owner = .dma n h t ∧ (v.acc id).kind = kind ∧ (v.acc id).addr = a % 2 ^ 32 ∧ (v.acc id).len = len
    (∀ q, s.w.dmaQueue? n h = some q → n ∉ s.w.goingDown → s.w.chState n h < 2 → x.fetching = false →
      (∀ d, x.cur = some d → d.issued = true ∧ d.fault = none ∧ x.fenceHold = false) →
      x.next = none → x.fetchFault = none → s.w.qHeld q = false → s.w.qIdle q = true → s.w.qFirst q s.w.nextId = true →
      s.w.qDepth q ≠ 0 → Makes (.dmaDescriptorFetch n h) s fun v =>
        v.chan n h = { x with fetching := true } ∧
        (∃ o, v.qOp? q = some o ∧ o.kind = 3 ∧ o.core = n ∧ o.slot = h ∧ o.index = s.w.qCons q ∧ o.acc = s.w.nextId) ∧
        (s.w.cfg (Addr.qQcfg q) F.qQcfg_SPACE = 0 → v.regs = s.w.regs ∧ (v.acc s.w.nextId).owner = .qop q)) ∧
    ((∀ c e, x.cur = some c → x.next = some e → c.uid ≠ e.uid) →
      (∀ d, s.w.chState n h = 1 → d.started = false → d.fault = none → d.failAt = none →
        (x.cur = some d ∨ ∃ c, x.cur = some c ∧ c.started = true ∧ c.issued = true ∧ c.fault = none ∧ x.next = some d) →
        (dCheck d (s.w.isSelf (bits (dWord d 6) 23 16)) n = none → Makes (.dmaDescriptorStart n h) s fun v =>
          (∃ o, v.desc? n h d.uid = some { d with started := true, overlap := o }) ∧ (v.chan n h).readyAt = s.w.time ∧
          v = { s.w with dma := v.dma }) ∧
        (∀ k, dCheck d (s.w.isSelf (bits (dWord d 6) 23 16)) n = some k → Makes (.dmaDescriptorStart n h) s fun v =>
          fails v d (1, k, false, 0))) ∧
      (∀ d, issuing? x = some d → s.w.chState n h = 1 → d.failAt = none → s.w.frozen = false → x.txns.length < 8 →
        s.w.txnTranslating n h = false →
        let len := txnLen d d.x d.y d.z
        let sa := dAddr d false d.x d.y d.z
        let da := dAddr d true d.x d.y d.z
        let p := stepPos d d.x d.y d.z len
        (lmRange d false sa len = true → Makes (.dmaTransactionIssue n h) s fun v => fails v d (2, 0, false, sa)) ∧
        (lmRange d false sa len = false → lmRange d true da len = true → Makes (.dmaTransactionIssue n h) s fun v =>
          fails v d (2, 0, true, da)) ∧
        (lmRange d false sa len = false → lmRange d true da len = false → Makes (.dmaTransactionIssue n h) s fun v =>
          v.desc? n h d.uid = some { d with x := p.1, y := p.2.1, z := p.2.2.1, issued := p.2.2.2 } ∧
          (∃ t, (v.chan n h).txns = x.txns ++ [t] ∧ t.id = s.w.nextId ∧ t.acc = s.w.nextId ∧ t.desc = d.uid ∧
            t.x = d.x ∧ t.y = d.y ∧ t.z = d.z ∧ t.len = len ∧ t.writing = false) ∧
          (dHost d false = false → presents v s.w.nextId .rd sa len s.w.nextId ∧ s.w.keeps v iris))) ∧
      (∀ t, x.txns.find? (fun e => e.id == t.id) = some t → (s.w.acc t.acc).done = true →
        let a := s.w.acc t.acc
        let pos := (t.x, t.y, t.z)
        (a.fault = 0 → t.writing = false → s.w.txnHeld n h t = true → Gives (.dmaTransactionComplete n h t.id) s s.w) ∧
        (s.w.desc? n h t.desc = none → t.writing = true ∨ a.fault ≠ 0 ∨ s.w.txnHeld n h t = false →
          Gives (.dmaTransactionComplete n h t.id) s ((s.w.dropAcc t.acc).dropTxn n h t.id)) ∧
        (∀ d, s.w.desc? n h t.desc = some d →
          (a.fault = 0 → t.writing = false → s.w.txnHeld n h t = false → Makes (.dmaTransactionComplete n h t.id) s fun v =>
            (v.chan n h).txns.find? (fun e => e.id == t.id) = some { t with writing := true, acc := s.w.nextId } ∧
            (v.chan n h).cur = x.cur ∧ (v.chan n h).next = x.next ∧
            (dHost d true = false → presents v s.w.nextId .wr (dAddr d true t.x t.y t.z) t.len t.id ∧ v.regs = s.w.regs ∧
              (d.overlap = false → (v.acc s.w.nextId).data = a.data))) ∧
          (a.fault = 0 → t.writing = true → Makes (.dmaTransactionComplete n h t.id) s fun v =>
            v.rd (Addr.chBytes n h) = (s.w.rd (Addr.chBytes n h) + t.len) % 2 ^ 64 ∧
            (∀ e, e ∈ (v.chan n h).txns ↔ e ∈ x.txns ∧ e.id ≠ t.id) ∧ s.w.keeps v [Addr.chBytes n h]) ∧
          (a.fault ≠ 0 → Makes (.dmaTransactionComplete n h t.id) s fun v =>
            (∃ e, v.desc? n h d.uid = some e ∧
              e.fault = some (d.fault.getD (a.fault, a.detail, t.writing, dAddr d t.writing t.x t.y t.z)) ∧
              (d.failAt = none → e.failAt = some pos) ∧
              (∀ q, d.failAt = some q → e.failAt = some (if Chip.posBefore pos q = true then pos else q)) ∧
              (d.fault = none → e.indet = a.indet)) ∧
            (∀ e, e ∈ (v.chan n h).txns ↔ e ∈ x.txns ∧ e.id ≠ t.id) ∧
            v.chState n h = (if current d = true then 2 else s.w.chState n h) ∧ s.w.keeps v [Addr.chStatus n h]))))

/-- Completion, halts, RESUME and SKIP (R322 to R324, R336 to R341). -/
def Obligations.DescriptorsFinishHaltAndResume : Prop :=
  ∀ (s : State) (n h : Nat), s.w.live = true → s.w.coreUp n = true → h < 4 →
    let x := s.w.chan n h
    let after (v : Chip) : Prop :=
      (v.chan n h).cur = x.next ∧ (v.chan n h).next = none ∧ (v.chan n h).fenceHold = false ∧
      v.chState n h = (match x.next with | some e => (if e.fault = none then 1 else 2) | none => 0)
    let sent (v : Chip) (chip : Nat) (home : Place) (P : Msg → Prop) : Prop :=
      (∃ e, (v.chan n h).cur = some e ∧ e.op = some s.w.nextId) ∧ (v.acc s.w.nextId).owner = .dma n h 0 ∧
      v.regs = s.w.regs ∧
      (chip = 255 → ∃ r, v.msgRec? (s.w.nextId + 1) = some r ∧ r.dst = home ∧ P r.msg) ∧
      (chip ≠ 255 → ∃ q, spFind? v.pod.outReqs (s.w.nextId + 1) = some q ∧ q.msg.dstChip = chip ∧ P q.msg)
    let fails (v : Chip) (f : Nat) : Prop :=
      (∃ e, (v.chan n h).cur = some e ∧ e.op = some s.w.nextId) ∧ (v.acc s.w.nextId).owner = .dma n h 0 ∧
      (v.acc s.w.nextId).fault = f ∧ (v.acc s.w.nextId).done = true ∧ v.regs = s.w.regs ∧ v.net = s.w.net
    (∀ d, x.cur = some d → s.w.chState n h = 1 → d.started = true → d.issued = true → d.fault = none →
      (∀ t, t ∈ x.txns → t.desc ≠ d.uid) → (∀ e, x.next = some e → e.uid ≠ d.uid) →
      (d.op = none →
        (dSignals d = true → d.sigDone = false →
          let far := s.w.reachable (bits (dWord d 5) 23 16) = false
          let off := bit (dWord d 5) 9 = false ∧ s.w.isSelf (bits (dWord d 5) 23 16) = true ∧
            s.w.coreUp (bits (dWord d 5) 15 10) = false
          (far → Makes (.dmaCompletionAction n h) s fun v => fails v 0x0B) ∧
          (¬ far → off → Makes (.dmaCompletionAction n h) s fun v => fails v 0x0A) ∧
          (¬ far → ¬ off → Makes (.dmaCompletionAction n h) s fun v =>
            sent v (s.w.resolve (bits (dWord d 5) 23 16)) (if bit (dWord d 5) 9 then .hub else .core (bits (dWord d 5) 15 10))
              (fun m => m.op = .atomicAdd ∧ m.data = toLE 8 (bits (dWord d 5) 47 32) ∧ m.acc = s.w.nextId ∧
                m.addr = (if bit (dWord d 5) 9 then Addr.ccSignal (bits (dWord d 5) 8 0)
                  else Addr.lcntSignal (bits (dWord d 5) 15 10) (bits (dWord d 5) 3 0))))) ∧
        (dSignals d = false ∨ d.sigDone = true → dEvents d = true → d.evtDone = false →
          (s.w.reachable (bits (dWord d 6) 23 16) = false → Makes (.dmaCompletionAction n h) s fun v => fails v 0x0B) ∧
          (s.w.reachable (bits (dWord d 6) 23 16) = true → Makes (.dmaCompletionAction n h) s fun v =>
            sent v (s.w.resolve (bits (dWord d 6) 23 16)) .hub (fun m => m.op = .eventMsg ∧ m.addr = bits (dWord d 6) 11 0 ∧
              m.data = toLE 4 (bits (dWord d 6) 63 32) ∧ m.acc = s.w.nextId))) ∧
        (dSignals d = false ∨ d.sigDone = true → dEvents d = false ∨ d.evtDone = true →
          Gives (.dmaCompletionAction n h) s ((s.w.descFinished n d).promote n h) ∧
          (d.tag = none → Makes (.dmaCompletionAction n h) s fun v => after v ∧ s.w.keeps v [Addr.chStatus n h]) ∧
          (∀ t, d.tag = some t → t.slot < 4 →
            let counts := d.resumed = false ∧ s.w.ctxId n t.slot = t.ctxId ∧ ∃ p, p ∈ (s.w.slot n t.slot).posted ∧ p.id = t.id
            (counts → Makes (.dmaCompletionAction n h) s fun v =>
              after v ∧ s.w.keeps v [Addr.chStatus n h, Addr.ctxStatus n t.slot] ∧
              v.fld (Addr.ctxStatus n t.slot) F.ctxStatus_DMA_OUT =
                s.w.fld (Addr.ctxStatus n t.slot) F.ctxStatus_DMA_OUT - 1 ∧
              (∀ p, p ∈ (v.slot n t.slot).posted ↔ p ∈ (s.w.slot n t.slot).posted ∧ p.id ≠ t.id)) ∧
            (¬ counts → Makes (.dmaCompletionAction n h) s fun v =>
              after v ∧ s.w.keeps v [Addr.chStatus n h] ∧ v.slots = s.w.slots)))) ∧
      (∀ id, d.op = some id → (s.w.acc id).done = true →
        ((s.w.acc id).fault = 0 → Makes (.dmaCompletionAction n h) s fun v =>
          ∃ e, (v.chan n h).cur = some e ∧ e.op = none ∧ e.sigDone = (d.sigDone || dSignals d) ∧
            e.evtDone = !(dSignals d && !d.sigDone) ∧ v = { s.w with dma := v.dma, accs := v.accs }) ∧
        ((s.w.acc id).fault ≠ 0 → Makes (.dmaCompletionAction n h) s fun v =>
          (∃ e, (v.chan n h).cur = some e ∧ e.op = none ∧ e.fault = some ((s.w.acc id).fault, (s.w.acc id).detail, true, 0) ∧
            e.failAt = d.failAt) ∧
          v.chState n h = 2 ∧ s.w.keeps v [Addr.chStatus n h]))) ∧
    (∀ d f, x.cur = some d → d.fault = some f → x.txns = [] → s.w.chState n h ≠ 3 →
      f.1 < 256 → f.2.1 < 2 ^ 32 → (∀ p, d.failAt = some p → p.1 < 2 ^ 16 ∧ p.2.1 < 2 ^ 16 ∧ p.2.2 < 2 ^ 16) →
      (∀ t, d.tag = some t → t.slot < 4 ∧ t.ctxId < 2 ^ 16) → Makes (.dmaHalt n h) s fun v =>
        v.chState n h = 3 ∧ v.fld (Addr.chStatus n h) F.chStatus_CAUSE = f.1 ∧
        v.rd (Addr.chErrAddr n h) = f.2.2.2 % 2 ^ 64 ∧ v.fld (Addr.chErrInfo n h) F.chErrInfo_DETAIL = f.2.1 ∧
        v.flag (Addr.chErrInfo n h) F.chErrInfo_SIDE = f.2.2.1 ∧ v.flag (Addr.chErrInfo n h) F.chErrInfo_INDET = d.indet ∧
        (∀ t, d.tag = some t → v.fld (Addr.chErrInfo n h) F.chErrInfo_SLOT = t.slot ∧
          v.fld (Addr.chErrInfo n h) F.chErrInfo_CTX_ID = t.ctxId) ∧
        (∀ p, d.failAt = some p → v.fld (Addr.chProg n h) F.chProg_XOFF = p.1 ∧ v.fld (Addr.chProg n h) F.chProg_Y = p.2.1 ∧
          v.fld (Addr.chProg n h) F.chProg_Z = p.2.2) ∧
        v.fld (Addr.chProg n h) F.chProg_ACT = b2n d.sigDone + 2 * b2n d.evtDone ∧
        v.rd (Addr.chTag n h) = bits (dWord d 7) 31 0 ∧
        (∀ i, i < 8 → v.rd (Addr.chDesc n h i) = dWord d i % 2 ^ 64) ∧
        s.w.keeps v ([Addr.chStatus n h, Addr.chErrAddr n h, Addr.chErrInfo n h, Addr.chProg n h, Addr.chTag n h] ++
          (List.range 8).map (Addr.chDesc n h) ++ (match d.tag with | some t => [Addr.ctxStatus n t.slot] | none => []))) ∧
    (∀ f, x.cur = none → x.fetchFault = some f → x.txns = [] → s.w.chState n h ≠ 3 → f.1 < 256 → f.2 < 2 ^ 32 →
      Makes (.dmaHalt n h) s fun v =>
        v.chState n h = 3 ∧ v.fld (Addr.chStatus n h) F.chStatus_CAUSE = f.1 ∧
        v.fld (Addr.chErrInfo n h) F.chErrInfo_DETAIL = f.2 ∧ v.rd (Addr.chProg n h) = 0 ∧
        s.w.keeps v [Addr.chStatus n h, Addr.chErrAddr n h, Addr.chErrInfo n h, Addr.chProg n h]) ∧
    (s.w.chState n h = 3 →
      (∀ d, x.cur = some d →
        (Makes (.dmaResume n h) s fun v => v.chState n h = 1 ∧ s.w.keeps v [Addr.chStatus n h] ∧
          ∃ e, (v.chan n h).cur = some e ∧ e.words = d.words ∧ e.started = false ∧ e.fault = none ∧ e.resumed = true ∧
            (e.x, e.y, e.z) = d.failAt.getD (d.x, d.y, d.z)) ∧
        (Makes (.dmaSkip n h) s fun v => after v ∧ s.w.keeps v [Addr.chStatus n h])) ∧
      (x.cur = none → ∀ i, i ∈ [Instr.dmaResume n h, .dmaSkip n h] → Makes i s fun v =>
        v.chState n h = 0 ∧ (v.chan n h).fetchFault = none ∧ s.w.keeps v [Addr.chStatus n h]))

/-- Host translation and reads (R325, R328 to R335, R514; Table DMA-3). -/
def Obligations.HostTranslationsWalkInstallAndInvalidate : Prop :=
  ∀ (s : State) (page : Nat), s.w.live = true →
    let count (v : Chip) (a : Nat) : Prop := v.fld a ⟨31, 0⟩ = min (s.w.fld a ⟨31, 0⟩ + 1) (2 ^ 32 - 1)
    let inDev (a : Nat) : Prop := 0x4000000 ≤ a % 2 ^ 32 ∧ a % 2 ^ 32 < 0x8000000
    let reading (v : Chip) : Prop :=
      (v.acc s.w.nextId).owner = .walk page ∧ (v.acc s.w.nextId).kind = .rd ∧ (v.acc s.w.nextId).len = 8
    (s.w.walkOf? page = none →
      let ids := s.w.xlWaiting page
      (s.w.flag Addr.htCtrl F.htCtrl_BYPASS = true →
        Gives (.translationWalk page) s (ids.foldl (fun w id => w.hostGo id (w.acc id).addr) (s.w.xlServed ids))) ∧
      (s.w.flag Addr.htCtrl F.htCtrl_BYPASS = false → ids = [] ∨ 8 ≤ s.w.ht.walks.length →
        Gives (.translationWalk page) s s.w) ∧
      (s.w.flag Addr.htCtrl F.htCtrl_BYPASS = false → ids ≠ [] → s.w.ht.walks.length < 8 →
        let ends (f : Nat × Nat) : Prop := Makes (.translationWalk page) s fun v =>
          (∃ k, v.walkOf? page = some k ∧ k.fault = some f ∧ k.covered = false) ∧ count v Addr.htMisses ∧
          s.w.keeps v [Addr.htMisses] ∧ v.accs = s.w.accs
        let reads (a : Nat) : Prop := Makes (.translationWalk page) s fun v =>
          (∃ k, v.walkOf? page = some k ∧ k.fault = none ∧ k.lvl = 1 ∧ k.rdAcc = some s.w.nextId) ∧ reading v ∧
          (v.acc s.w.nextId).addr = a ∧ count v Addr.htMisses ∧ s.w.keeps v [Addr.htMisses]
        let a := s.w.fld Addr.htRoot F.htRoot_ADDR * 4096 + Chip.levelIndex page 1 * 8
        (2 ^ 27 ≤ page → ends (0x0C, 0x404)) ∧
        (page < 2 ^ 27 → s.w.flag Addr.htRoot F.htRoot_VALID = false → ends (0x0C, 0x406)) ∧
        (page < 2 ^ 27 → s.w.flag Addr.htRoot F.htRoot_VALID = true → s.w.flag Addr.htRoot F.htRoot_SPACE = true →
          (inDev (a % 2 ^ 40) → ends (0x0D, 0x410)) ∧ (¬ inDev (a % 2 ^ 40) → reads (a % 2 ^ 40 % 2 ^ 32))) ∧
        (page < 2 ^ 27 → s.w.flag Addr.htRoot F.htRoot_VALID = true → s.w.flag Addr.htRoot F.htRoot_SPACE = false →
          (s.w.ownWindow a = true → ends (0x0D, 0x410)) ∧ (s.w.ownWindow a = false → reads a)))) ∧
    (∀ k, s.w.walkOf? page = some k → (∀ id, k.rdAcc = some id → (s.w.acc id).done = false) →
      Gives (.translationWalk page) s s.w) ∧
    (∀ k id, s.w.walkOf? page = some k → k.rdAcc = some id → (s.w.acc id).done = true →
      let e := leNat (s.w.acc id).data
      let reserved := bits e 11 3 ≠ 0 ∨ bits e 63 52 ≠ 0 ∨ (k.lvl ≠ 3 ∧ (bits e 2 1 ≠ 0 ∨ (k.lm = true ∧ bits e 51 40 ≠ 0)))
      let ends (k : Walk) (f : Nat × Nat) : Prop := Makes (.translationWalk page) s fun v =>
        v.walkOf? page = some { k with fault := some f, rdAcc := none } ∧ v.regs = s.w.regs
      ((s.w.acc id).fault ≠ 0 → ends k (0x0C, 0x401)) ∧
      ((s.w.acc id).fault = 0 → bit e 0 = false → ends k (0x0C, 0x402)) ∧
      ((s.w.acc id).fault = 0 → bit e 0 = true → reserved → ends k (0x0C, 0x405)) ∧
      ((s.w.acc id).fault = 0 → bit e 0 = true → ¬ reserved →
        (k.lvl = 3 → Makes (.translationWalk page) s fun v =>
          v.walkOf? page = some { k with leaf := some e, rdAcc := none } ∧ v.regs = s.w.regs) ∧
        (k.lvl ≠ 3 →
          let a := bits e 51 12 * 4096 + Chip.levelIndex page (k.lvl + 1) * 8
          let off := (k.lm = true ∧ inDev (a % 2 ^ 40)) ∨ (k.lm = false ∧ s.w.ownWindow a = true)
          (off → ends { k with lvl := k.lvl + 1 } (0x0D, 0x410)) ∧
          (¬ off → Makes (.translationWalk page) s fun v =>
            v.walkOf? page = some { k with lvl := k.lvl + 1, rdAcc := some s.w.nextId } ∧ reading v ∧
            (v.acc s.w.nextId).addr = (if k.lm = true then a % 2 ^ 40 % 2 ^ 32 else a) ∧ v.regs = s.w.regs)))) ∧
    (∀ k, s.w.walkOf? page = some k →
      let ids := s.w.walkServes k
      let gone := ({ s.w with ht := { s.w.ht with walks := s.w.ht.walks.filter fun x => x.page != page } } : Chip).xlServed ids
      let bad := (gone.bump Addr.htFaults).setFlag Addr.htStatus F.htStatus_WALK_ERR true
      (∀ c d, k.fault = some (c, d) →
        Gives (.translationWalkComplete page) s (ids.foldl (fun w id => w.failAcc id c d) bad)) ∧
      (∀ e, k.fault = none → k.leaf = some e →
        let t : TlbEnt := ⟨page, bits e 51 12, bit e 1, bit e 2⟩
        let tlb := if k.covered = true then s.w.ht.tlb else (t :: s.w.ht.tlb.filter fun x => x.page != page).take 256
        let good : Prop := ∀ id, id ∈ ids → (if (s.w.acc id).kind = .rd then bit e 1 else bit e 2) = true
        (good → Gives (.translationWalkComplete page) s
          (ids.foldl (fun w id => w.hostWith id t) { gone with ht := { gone.ht with tlb := tlb } })) ∧
        (¬ good → Gives (.translationWalkComplete page) s (ids.foldl (fun w id => w.hostWith id t) bad))) ∧
      (k.fault = none → k.leaf = none → Gives (.translationWalkComplete page) s s.w)) ∧
    (∀ k id, s.w.walkOf? page = some k → s.w.walkServes k = [id] → (∃ m j t, (s.w.acc id).owner = .dma m j t) →
      let gone (v : Chip) : Prop := v.walkOf? page = none ∧ id ∉ v.xlWaiting page ∧
        ∀ j, j ≠ id → (j ∈ v.xlWaiting page ↔ j ∈ s.w.xlWaiting page)
      let bad (v : Chip) (code detail : Nat) : Prop :=
        gone v ∧ (v.acc id).fault = code ∧ (v.acc id).detail = detail ∧ (v.acc id).parts = 0 ∧ count v Addr.htFaults ∧
        v.flag Addr.htStatus F.htStatus_WALK_ERR = true ∧ v.ht.tlb = s.w.ht.tlb ∧ s.w.keeps v [Addr.htFaults, Addr.htStatus]
      (∀ c d, k.fault = some (c, d) → Makes (.translationWalkComplete page) s fun v => bad v c d) ∧
      (∀ e, k.fault = none → k.leaf = some e →
        let a := bits e 51 12 * 4096 + (s.w.acc id).addr % 4096
        let n := (s.w.acc id).len
        let g := s.w.pcie.maxRead
        ((s.w.acc id).kind = .rd → bit e 1 = true → s.w.busMaster = true → s.w.ownWindow a = false → 0 < n →
          Makes (.translationWalkComplete page) s fun v =>
            gone v ∧
            (k.covered = false → v.ht.tlb =
              (⟨page, bits e 51 12, bit e 1, bit e 2⟩ :: s.w.ht.tlb.filter fun x => x.page != page).take 256) ∧
            (k.covered = true → v.ht.tlb = s.w.ht.tlb) ∧ (v.acc id).parts = (pieces g (n / g + 2) a n 0).length ∧
            (∃ r, spFind? v.pcie.reads s.w.nextId = some r ∧ r.acc = id ∧ r.pos = 0 ∧ r.len = min n (g - a % g) ∧
              r.left = r.len ∧ r.born = s.w.time)) ∧
        (((s.w.acc id).kind = .rd ∧ bit e 1 = false) ∨ ((s.w.acc id).kind ≠ .rd ∧ bit e 2 = false) →
          Makes (.translationWalkComplete page) s fun v => bad v 0x0C 0x403))) ∧
    (∀ i mode sel, (i = Instr.htInvAll ∧ mode = 1 ∧ sel = fun (_ : Nat) => true) ∨
        (i = .htInvPage ∧ mode = 2 ∧ sel = fun p => p == s.w.fld Addr.htInvAddr F.htInvAddr_PAGE) →
      (s.w.flag Addr.htInv F.htInv_BUSY = false → Makes i s fun v =>
        v.flag Addr.htInv F.htInv_BUSY = true ∧ v.fld Addr.htInv F.htInv_MODE = mode ∧
        v.ht.tlb = s.w.ht.tlb.filter (fun e => !sel e.page) ∧ s.w.keeps v [Addr.htInv] ∧
        (∀ k, k ∈ v.ht.walks → sel k.page = true → k.covered = true)) ∧
      (s.w.flag Addr.htInv F.htInv_BUSY = true → Makes i s fun v =>
        v.flag Addr.htStatus F.htStatus_INV_LOST = true ∧ v.ht = s.w.ht ∧ s.w.keeps v [Addr.htInv, Addr.htStatus])) ∧
    (s.w.flag Addr.htInv F.htInv_BUSY = true → (∀ id a, id ∈ s.w.ht.inv → spFind? s.w.accs id = some a → a.done = true) →
      Makes .htInvComplete s fun v =>
        v.flag Addr.htInv F.htInv_BUSY = false ∧ v.ht.inv = [] ∧ s.w.keeps v [Addr.htInv]) ∧
    (∀ tag r, spFind? s.w.pcie.reads tag = some r → r.sent = true →
      let error (status : Nat) : Nat := if status = 1 then 0x420 else if status = 2 then 0x421 else 0x423
      let last (w : Chip) (code detail : Nat) : Chip := (w.readGone tag).partEnded r.acc code detail
      (∀ status pos d, status ≠ 0 → Gives (.hostReadCompletion tag status pos d) s (last s.w 0x0E (error status))) ∧
      (r.born + 40000000 ≤ s.w.time → Gives (.completionTimeout tag) s (last s.w 0x0E 0x422)) ∧
      (∀ pos d, d = [] ∨ r.len < pos + d.length ∨ r.left < d.length → Gives (.hostReadCompletion tag 0 pos d) s s.w) ∧
      (∀ a, spFind? s.w.accs r.acc = some a →
        (∀ pos d, d ≠ [] → pos + d.length ≤ r.len →
          let w := s.w.setAcc r.acc { a with data := patch a.data (r.pos + pos) d }
          (r.left = d.length → Gives (.hostReadCompletion tag 0 pos d) s (last w 0 0)) ∧
          (d.length < r.left → Gives (.hostReadCompletion tag 0 pos d) s
            { w with pcie := { w.pcie with reads := spInsert w.pcie.reads tag { r with left := r.left - d.length } } })) ∧
        ((∃ m j t, a.owner = .dma m j t) → s.w.busMaster = true →
          let gone (v : Chip) : Prop := spFind? v.pcie.reads tag = none ∧ v.regs = s.w.regs ∧ (v.acc r.acc).parts = a.parts - 1
          let failed (v : Chip) (detail : Nat) : Prop := gone v ∧ (v.acc r.acc).data = a.data ∧
            (a.fault = 0 → (v.acc r.acc).fault = 0x0E ∧ (v.acc r.acc).detail = detail) ∧
            (a.fault ≠ 0 → (v.acc r.acc).fault = a.fault ∧ (v.acc r.acc).detail = a.detail)
          (∀ status pos d, status ≠ 0 → Makes (.hostReadCompletion tag status pos d) s fun v => failed v (error status)) ∧
          (r.born + 40000000 ≤ s.w.time → Makes (.completionTimeout tag) s fun v => failed v 0x422) ∧
          (∀ pos d, d ≠ [] → pos + d.length ≤ r.len → r.left = d.length →
            Makes (.hostReadCompletion tag 0 pos d) s fun v =>
              gone v ∧ (v.acc r.acc).data = patch a.data (r.pos + pos) d ∧ (v.acc r.acc).fault = a.fault))))

/-- The link layer of a port (R378 to R399, R403, R411). -/
def Obligations.LinkReceiversAndTransmittersKeepFlitsInOrder : Prop :=
  ∀ (s : State) (p : Nat), s.w.portLive p = true →
    let x := s.w.lp p
    let up := Chip.isUp (s.w.lState p) = true
    let count (v : Chip) (a : Nat) : Prop := v.fld a ⟨31, 0⟩ = min (s.w.fld a ⟨31, 0⟩ + 1) (2 ^ 32 - 1)
    let only (v : Chip) (y : LinkPort) : Prop := v.lp p = y ∧ v = { s.w with lnk := v.lnk }
    let few := (x.exits.filter fun t => decide (s.w.time < t + 1000000000)).length < 3
    let trains (v : Chip) : Prop := v.lState p = 1 ∧ count v (Addr.lnkTrainings p) ∧
      (v.lp p).tr = { stage := 1, since := s.w.time, resume := true, left := s.w.lState p }
    let replays (v : Chip) (y : LinkPort) (q : Nat) : Prop :=
      v.lp p = { y with replay := some (q, q), repCount := x.repCount + 1 } ∧ count v (Addr.lnkReplays p) ∧
      v.flag (Addr.lnkErr p) F.lnkErr_REPLAY = true ∧ s.w.keeps v [Addr.lnkReplays p, Addr.lnkErr p]
    (∀ units : List (List Nat),
      let lanes := lanesOf (s.w.rxMap p)
      let k := lanes.length
      let rate := s.w.lRate p
      up → x.remapAt = none → x.tr.stage ≠ 4 → k ≠ 0 → units.length = k →
      (∀ u, u ∈ units → u.length = if rate = 2 then 2720 / k else 2720 / k / 2) →
      let c := codewordOf k ((lanes.zip units).map fun u =>
        (scramble (2720 / k) (bitsOf rate u.2) (spGet scrInit x.rxScr u.1)).1)
      (rsDecode c = none → x.bad < 7 → Makes (.codewordReceive p units) s fun v =>
        count v (Addr.lnkFecUncorr p) ∧ v.flag (Addr.lnkErr p) F.lnkErr_FEC_UNCORR = true ∧ (v.lp p).good = 0 ∧
        (v.lp p).bad = x.bad + 1 ∧ (v.lp p).rxIn = x.rxIn ∧ (v.lp p).nakDue = true ∧
        s.w.keeps v [Addr.lnkFecUncorr p, Addr.lnkErr p]) ∧
      (∀ d pos, rsDecode c = some (d, pos) →
        let b := bytesOf (d.take 256)
        Makes (.codewordReceive p units) s fun v =>
          (v.lp p).good = x.good + 1 ∧ (v.lp p).bad = 0 ∧
          (v.lp p).rxIn = x.rxIn ++ [b.take 160, b.drop 160].filter flitGood ∧
          (pos = [] → flitGood (b.take 160) = true → flitGood (b.drop 160) = true → v = { s.w with lnk := v.lnk }) ∧
          (flitGood (b.take 160) = true → flitGood (b.drop 160) = false →
            count v (Addr.lnkCrcErr p) ∧ v.flag (Addr.lnkErr p) F.lnkErr_CRC = true) ∧
          s.w.keeps v ([Addr.lnkFecCorr p, Addr.lnkCrcErr p, Addr.lnkErr p] ++ (List.range 8).map (Addr.laneCorr p)))) ∧
    (∀ units : List (List Nat),
      let w := s.w.switchDone p
      let y := w.lp p
      let lanes := lanesOf (w.rxMap p)
      let n := 2720 / lanes.length
      let rate := w.lRate p
      Chip.isUp (w.lState p) = true ∨ (w.lState p = 1 ∧ 4 ≤ y.tr.stage) → lanes ≠ [] → units.length = lanes.length →
      (∀ u, u ∈ units → u.length = if rate = 2 then n else n / 2) →
      let starts := if y.remapAt ≠ none ∧ y.good = 0 then y.cand ++ [Chip.loadScr (w.rxMap p)] else [y.rxScr]
      let search := y.remapAt ≠ none ∨ y.tr.stage = 4
      let hit := (starts.map (descramble lanes rate n units)).find? fun t => t.2.isSome
      (hit = none → Makes (.codewordReceive p units) s fun v =>
        count v (Addr.lnkFecUncorr p) ∧ v.flag (Addr.lnkErr p) F.lnkErr_FEC_UNCORR = true) ∧
      (∀ t d pos, hit = some t → t.2 = some (d, pos) → Makes (.codewordReceive p units) s fun v =>
        v.fld (Addr.lnkFecCorr p) ⟨31, 0⟩ = min (s.w.fld (Addr.lnkFecCorr p) ⟨31, 0⟩ + pos.length) (2 ^ 32 - 1) ∧
        (¬ search ∨ y.unacked = [] → (v.lp p).good = y.good + 1 ∧ (v.lp p).bad = 0 ∧
          (search → (v.lp p).rxIn = y.rxIn)))) ∧
    (∀ f rest, x.rxIn = f :: rest →
      let h := leNat (f.take 8)
      let pay := (f.drop 8).take 144
      let cret := leNat ((f.drop 158).take 2)
      let ack := leNat ((f.drop 156).take 2)
      let y : LinkPort := { x with rxIn := rest, pFreed := tput x.pFreed (bits cret 1 0) (bits cret 13 2) }
      let q := spGet (fun _ => []) x.held (fVc h)
      (hdrOk h = false → Makes (.flitReceive p) s fun v =>
        v.flag (Addr.lnkErr p) F.lnkErr_PROTO = true ∧
        s.w.keeps v [Addr.lnkErr p, Addr.lnkState p, Addr.lnkTrainings p] ∧
        (up → few → trains v) ∧ (up → ¬ few → v.lState p = 5) ∧
        (s.w.lState p = 1 → v.flag (Addr.lnkErr p) F.lnkErr_TRAIN_FAIL = true)) ∧
      (hdrOk h = true →
        let w := ((s.w.setLp p { x with rxIn := rest }).takeCret p f).useAck p ack
        let z := w.lp p
        let c := leNat (pay.take 1)
        let held := spGet (fun _ => []) z.held (fVc h)
        let old := (z.expect + 4096 - fSeq h) % 4096 ≤ 256
        (fType h = 0 → Gives (.flitReceive p) s w) ∧
        (fType h = 3 → 1 ≤ c → c ≤ 4 → Gives (.flitReceive p) s (w.setLp p { z with ctrlIn := z.ctrlIn ++ [pay.take 16] })) ∧
        (fType h = 3 → c = 0 ∨ 4 < c → Gives (.flitReceive p) s (w.lErr p F.lnkErr_PROTO)) ∧
        (fType h = 1 ∨ fType h = 2 →
          (fSeq h = z.expect → held.length < vcOffer (fVc h) → Gives (.flitReceive p) s (w.setLp p
            { z with expect := (z.expect + 1) % 4096, accepted := true, nakOut := false,
                     held := spPut (fun _ => []) z.held (fVc h) (held ++ [(h, pay)]) })) ∧
          (fSeq h = z.expect → vcOffer (fVc h) ≤ held.length →
            Gives (.flitReceive p) s ((w.lErr p F.lnkErr_CREDIT_ERR).retrain p)) ∧
          (fSeq h ≠ z.expect → old → Gives (.flitReceive p) s w) ∧
          (fSeq h ≠ z.expect → ¬ old → Gives (.flitReceive p) s (w.setLp p { z with nakDue := true })))) ∧
      (hdrOk h = true → x.unacked = [] → x.replay = none → bit ack 13 = false →
        (fType h = 0 → Makes (.flitReceive p) s fun v => only v y) ∧
        (fType h = 3 →
          (1 ≤ leNat (pay.take 1) → leNat (pay.take 1) ≤ 4 → Makes (.flitReceive p) s fun v =>
            only v { y with ctrlIn := x.ctrlIn ++ [pay.take 16] }) ∧
          (leNat (pay.take 1) = 0 ∨ 4 < leNat (pay.take 1) → Makes (.flitReceive p) s fun v =>
            v.lp p = y ∧ v.flag (Addr.lnkErr p) F.lnkErr_PROTO = true ∧ s.w.keeps v [Addr.lnkErr p])) ∧
        (fType h = 1 ∨ fType h = 2 →
          (fSeq h = x.expect →
            (q.length < vcOffer (fVc h) → Makes (.flitReceive p) s fun v =>
              spGet (fun _ => []) (v.lp p).held (fVc h) = q ++ [(h, pay)] ∧
              only v { y with
                expect := (x.expect + 1) % 4096, accepted := true, nakOut := false, held := (v.lp p).held }) ∧
            (vcOffer (fVc h) ≤ q.length → Makes (.flitReceive p) s fun v =>
              v.flag (Addr.lnkErr p) F.lnkErr_CREDIT_ERR = true)) ∧
          (fSeq h ≠ x.expect →
            ((x.expect + 4096 - fSeq h) % 4096 ≤ 256 → Makes (.flitReceive p) s fun v => only v y) ∧
            (256 < (x.expect + 4096 - fSeq h) % 4096 → Makes (.flitReceive p) s fun v =>
              only v { y with nakDue := true })))) ∧
      (hdrOk h = true → fType h = 0 → x.replay = none → bit ack 12 = true →
        (∀ pre g post, bit ack 13 = false → x.unacked = pre ++ g :: post → g.seq = bits ack 11 0 →
          (∀ e, e ∈ pre → e.seq ≠ bits ack 11 0) → Makes (.flitReceive p) s fun v =>
            only v { y with unacked := post, repCount := 0 }) ∧
        (∀ g, bit ack 13 = true → x.unacked = [g] → g.seq = (bits ack 11 0 + 1) % 4096 → x.repCount < 4 →
          Makes (.flitReceive p) s fun v => replays v y g.seq))) ∧
    (∀ f rest, x.unacked = f :: rest → up →
      f.sentAt + max 1 (s.w.cfg (Addr.lnkCfg p) F.lnkCfg_REPLAY_TIMEOUT) * 16 ≤ s.w.time →
      (x.repCount < 4 → Makes (.replayTimeout p) s fun v => replays v x f.seq) ∧
      (4 ≤ x.repCount → few → Makes (.replayTimeout p) s fun v => trains v ∧
        s.w.keeps v [Addr.lnkState p, Addr.lnkTrainings p]) ∧
      (4 ≤ x.repCount → ¬ few → Makes (.replayTimeout p) s fun v => v.lState p = 5 ∧
        s.w.keeps v [Addr.lnkState p, Addr.lnkErr p])) ∧
    (let w := s.w.switchDone p
     w.sends p = true → w.txMap p ≠ 0 →
      let f := w.nextFlit p
      let y := f.2.2
      let nak := y.nakDue && !y.nakOut
      let bytes := mkFlit f.1 f.2.1 ((y.expect + 4095) % 4096 + b2n y.accepted * 2 ^ 12 + b2n nak * 2 ^ 13)
        (y.cret + tget y.freed y.cret * 4)
      let z : LinkPort := { y with cret := (y.cret + 1) % 4, nakDue := false, nakOut := y.nakOut || nak }
      (nak = false →
        (y.half = none → Makes (.flitTransmit p) s fun v =>
          v.lp p = { z with half := some bytes } ∧ v = { w with lnk := v.lnk }) ∧
        (∀ g, y.half = some g → Gives (.flitTransmit p) s ((w.setLp p z).sendCodeword p (g ++ bytes)))) ∧
      (nak = true →
        (y.half = none → Makes (.flitTransmit p) s fun v => v.lp p = { z with half := some bytes } ∧
          count v (Addr.lnkNaksSent p) ∧ s.w.keeps v [Addr.lnkNaksSent p, Addr.lnkState p]) ∧
        (∀ g, y.half = some g → Gives (.flitTransmit p) s
          (((w.setLp p z).bump (Addr.lnkNaksSent p)).sendCodeword p (g ++ bytes))))) ∧
    (up → s.w.txMap p ≠ 0 →
      let ack := (x.expect + 4095) % 4096 + b2n x.accepted * 2 ^ 12
      let cret := x.cret + tget x.freed x.cret * 4
      (x.half = none → x.nakDue = true → x.nakOut = false → Makes (.flitTransmit p) s fun v =>
        count v (Addr.lnkNaksSent p) ∧ (v.lp p).nakDue = false ∧ (v.lp p).nakOut = true ∧
        s.w.keeps v [Addr.lnkNaksSent p]) ∧
      (s.w.ctrlDue p = none → x.idleLeft = 0 → x.replay = none → x.nakDue = false →
        let y : LinkPort := { x with cret := (x.cret + 1) % 4 }
        let idle := mkFlit (flitHdr 0 0 x.nextSeq 0 0 s.w.epoch) [] ack cret
        (x.half = none → x.txq = none → Makes (.flitTransmit p) s fun v => only v { y with half := some idle }) ∧
        (∀ h pay, x.half = none → x.txq = some (h, pay) → Makes (.flitTransmit p) s fun v =>
          let g := h + x.nextSeq * 2 ^ 6
          only v { y with
            half := some (mkFlit g pay ack cret), txq := none, nextSeq := (x.nextSeq + 1) % 4096,
            sent := tput x.sent (fVc g) ((tget x.sent (fVc g) + 1) % 4096),
            unacked := x.unacked ++ [⟨x.nextSeq, g, pay, s.w.time, s.w.time⟩] }) ∧
        (∀ g, x.half = some g → x.txq = none → x.newMap = none → Makes (.flitTransmit p) s fun v =>
          let lanes := lanesOf (s.w.txMap p)
          let k := lanes.length
          let m := symbolsOf (g ++ idle)
          (v.lp p).half = none ∧ v = { s.w with lnk := v.lnk } ∧
          (v.lp p).wire = (List.range k).map fun i => unitsOf (s.w.lRate p) (2720 / k)
            (scramble (2720 / k) (laneBits (m ++ rsParity m) k i) (spGet scrInit x.txScr (lanes.getD i 0))).1))) ∧
    (∀ m rest, x.ctrlIn = m :: rest →
      let code := leNat (m.take 1)
      let ended (v : Chip) : Prop := v.lState p = 2 ∧ (v.lp p).tr = {} ∧ (v.lp p).fails = 0
      (code = 1 →
        (x.initAcked = false ∨ s.w.lState p ≠ 1 ∨ x.tr.stage ≠ 5 → Makes (.creditInit p) s fun v =>
          v.rd (Addr.partnerOffer p) = leNat ((m.drop 2).take 8) ∧ s.w.keeps v [Addr.partnerOffer p] ∧
          v.lp p = { x with ctrlIn := rest, initGot := true, ackDue := x.ackDue + 1 }) ∧
        (x.initAcked = true → s.w.lState p = 1 → x.tr.stage = 5 → Makes (.creditInit p) s fun v =>
          v.rd (Addr.partnerOffer p) = leNat ((m.drop 2).take 8) ∧ ended v ∧
          s.w.keeps v [Addr.partnerOffer p, Addr.lnkState p])) ∧
      (code = 2 →
        (x.initGot = false ∨ s.w.lState p ≠ 1 ∨ x.tr.stage ≠ 5 → Makes (.creditInitAck p) s fun v =>
          only v { x with ctrlIn := rest, initDue := false, initAcked := true }) ∧
        (x.initGot = true → s.w.lState p = 1 → x.tr.stage = 5 → Makes (.creditInitAck p) s fun v =>
          ended v ∧ s.w.keeps v [Addr.lnkState p])) ∧
      (code = 3 →
        let map := leNat ((m.drop 2).take 1)
        (up → map ∈ laneSets → maskIn map (s.w.txMap p) = true → map ≠ s.w.txMap p → Makes (.remap p) s fun v =>
          only v { x with ctrlIn := rest, newMap := some map }) ∧
        (¬ up ∨ map = s.w.txMap p ∨ map ∉ laneSets ∨ maskIn map (s.w.txMap p) = false →
          Makes (.remap p) s fun v => only v { x with ctrlIn := rest })) ∧
      (code = 4 →
        (up → few → Makes (.retrain p) s fun v => trains v ∧ s.w.keeps v [Addr.lnkState p, Addr.lnkTrainings p]) ∧
        (up → ¬ few → Makes (.retrain p) s fun v => v.lState p = 5 ∧ s.w.keeps v [Addr.lnkState p, Addr.lnkErr p]) ∧
        (¬ up → Makes (.retrain p) s fun v => only v { x with ctrlIn := rest })))

/-- Training, lane failure and states of a port (R400 to R412, R430; Tables LNK-8, LNK-9 and LNK-13). -/
def Obligations.PortsTrainRemapAndQuarantine : Prop :=
  ∀ (s : State) (p : Nat), s.w.portLive p = true →
    let x := s.w.lp p
    let state := s.w.lState p
    let up := Chip.isUp state = true
    let off := s.w.flag (Addr.lnkCtrl p) F.lnkCtrl_DISABLE
    let recent := (x.exits.filter fun t => decide (s.w.time < t + 1000000000)).length
    let count (v : Chip) (a : Nat) : Prop := v.fld a ⟨31, 0⟩ = min (s.w.fld a ⟨31, 0⟩ + 1) (2 ^ 32 - 1)
    let only (v : Chip) (y : LinkPort) : Prop := v.lp p = y ∧ v = { s.w with lnk := v.lnk }
    let trains (v : Chip) (left : Nat) : Prop :=
      v.lState p = 1 ∧ count v (Addr.lnkTrainings p) ∧ (v.lp p).listenAt = none ∧
      (v.lp p).tr = { stage := 1, since := s.w.time, resume := left != 0, left := left } ∧
      s.w.keeps v [Addr.lnkState p, Addr.lnkTrainings p]
    let quarantined (v : Chip) : Prop :=
      v.lState p = 5 ∧ v.flag (Addr.lnkErr p) F.lnkErr_QUARANTINED = true ∧ (v.lp p).exits = [] ∧ (v.lp p).fails = 0 ∧
      (v.lp p).quarSince = s.w.time ∧ s.w.keeps v [Addr.lnkState p, Addr.lnkErr p]
    let listens (v : Chip) : Prop :=
      v.lState p = 0 ∧ (v.lp p).tr = {} ∧ (∃ t, (v.lp p).listenAt = some t ∧ s.w.time ≤ t)
    let leaves (i : Instr) : Prop :=
      (recent < 3 → Makes i s fun v => trains v state) ∧ (3 ≤ recent → Makes i s quarantined)
    let failed (i : Instr) : Prop :=
      (x.fails < 2 → Makes i s fun v => listens v ∧ (v.lp p).fails = x.fails + 1 ∧
        v.flag (Addr.lnkErr p) F.lnkErr_TRAIN_FAIL = true ∧ s.w.keeps v [Addr.lnkState p, Addr.lnkErr p]) ∧
      (2 ≤ x.fails → Makes i s quarantined)
    let laneGone (i : Instr) (l : Nat) : Prop := bit (s.w.rxMap p) l = true →
      let bad := putBit x.failed l true
      let next := laneSets.find? fun m => maskIn m (s.w.rxMap p) && Nat.land m bad == 0
      (∀ m, next = some m → Makes i s fun v =>
        v.rxMap p = m ∧ v.flag (Addr.lnkErr p) F.lnkErr_LANE_FAIL = true ∧ count v (Addr.lnkRemaps p) ∧
        (v.lp p).failed = bad ∧ (v.lp p).remapAt = some s.w.time ∧ (v.lp p).remapDue = true ∧ (v.lp p).good = 0 ∧
        v.lState p = (if state = 3 then 4 else state) ∧
        s.w.keeps v [Addr.lnkState p, Addr.lnkErr p, Addr.lnkRemaps p]) ∧
      (next = none → recent < 3 → Makes i s fun v =>
        v.lState p = 1 ∧ v.flag (Addr.lnkErr p) F.lnkErr_LANE_FAIL = true ∧ count v (Addr.lnkTrainings p)) ∧
      (next = none → 3 ≤ recent → Makes i s fun v =>
        v.lState p = 5 ∧ v.flag (Addr.lnkErr p) F.lnkErr_LANE_FAIL = true ∧ v.flag (Addr.lnkErr p) F.lnkErr_QUARANTINED = true)
    (∀ t, x.listenAt = some t → t ≤ s.w.time → state = 0 → off = false →
      Makes (.listenBackoffExpiry p) s fun v => trains v 0) ∧
    (∀ sets l d rest, off = false → state = 0 ∨ state = 1 →
      (sets.filter fun e : Nat × List Byte => setOk e.2 && setByte e.2 5 % 8 == e.1 && bit (s.w.laneEn p) e.1) = (l, d) :: rest →
      let i := Instr.trainingSetReceived p sets
      let w := if state = 0 then s.w.enterTrain p 0 else s.w.switchDone p
      let u := w.recordSets p ((l, d) :: rest) d
      let t := (u.lp p).tr
      let key := (d.drop 6).take 13
      let with_ (t : Training) : Chip := u.setLp p { u.lp p with tr := t }
      let two := 2 ≤ popCount 8 t.heard ∧ 2 ≤ popCount 8 t.partnerOk
      let mixed := ∃ e, e ∈ (l, d) :: rest ∧ (setByte e.2 4 ≠ 2 ∨ (e.2.drop 6).take 13 ≠ key)
      let n := if t.ts2 = key then t.ts2n + 1 else 1
      (t.stage = 1 → two → Gives i s (u.configure p)) ∧ (t.stage = 1 → ¬ two → Gives i s u) ∧
      (t.stage = 2 → mixed → Gives i s (with_ { t with ts2 := [], ts2n := 0 })) ∧
      (t.stage = 2 → ¬ mixed → n < 16 → Gives i s (with_ { t with ts2 := key, ts2n := n })) ∧
      (t.stage = 2 → ¬ mixed → 16 ≤ n → Gives i s
        (with_ { t with ts2 := key, ts2n := n, stage := 3, since := s.w.time, txMap := setByte d 16 })) ∧
      (t.stage ≠ 1 → t.stage ≠ 2 → Gives i s u)) ∧
    (∀ l d, setOk d = true → setByte d 5 % 8 = l → bit (s.w.laneEn p) l = true → off = false →
      let i := Instr.trainingSetReceived p [(l, d)]
      let partner (v : Chip) : Prop := v.rd (Addr.partnerSerial p) = leNat ((d.drop 8).take 8) ∧
        v.rd (Addr.partnerInfo p) = bits (setByte d 5) 6 4
      let regs := [Addr.partnerSerial p, Addr.partnerInfo p]
      (state = 0 → Makes i s fun v =>
        v.lState p = 1 ∧ (v.lp p).tr.stage = 1 ∧ count v (Addr.lnkTrainings p) ∧ partner v ∧
        (v.lp p).tr.heard = (if setByte d 4 = 1 then putBit 0 l true else 0) ∧
        s.w.keeps v ([Addr.lnkState p, Addr.lnkTrainings p] ++ regs)) ∧
      (state = 1 → x.tr.stage = 1 → setByte d 4 ≠ 1 → 2 ≤ popCount 8 x.tr.heard → 2 ≤ popCount 8 (setByte d 7) → ∀ m r,
        (laneSets.find? fun m => maskIn m x.tr.heard && maskIn m (s.w.laneEn p)) = some m →
        ([0, 1, 2].find? fun r => bit (s.w.ownRates p) r && bit (setByte d 6) r) = some r → Makes i s fun v =>
          (v.lp p).tr.stage = 2 ∧ (v.lp p).tr.rxMap = m ∧ (v.lp p).tr.rate = r ∧ (v.lp p).tr.since = s.w.time ∧
          partner v ∧ s.w.keeps v regs) ∧
      (state = 1 → x.tr.stage = 2 → setByte d 4 = 2 → x.tr.ts2 = (d.drop 6).take 13 →
        (x.tr.ts2n < 15 → Makes i s fun v => (v.lp p).tr.stage = 2 ∧ (v.lp p).tr.ts2n = x.tr.ts2n + 1) ∧
        (15 ≤ x.tr.ts2n → Makes i s fun v => (v.lp p).tr.stage = 3 ∧ (v.lp p).tr.txMap = setByte d 16 ∧
          (v.lp p).tr.since = s.w.time ∧ partner v ∧ s.w.keeps v regs)) ∧
      (state = 1 → x.tr.stage = 3 →
        (s.w.time < x.tr.since + switchTicks → Makes i s fun v =>
          (v.lp p).tr.stage = 3 ∧ (v.lp p).tr.since = x.tr.since ∧ partner v ∧ s.w.keeps v regs) ∧
        (x.tr.since + switchTicks ≤ s.w.time → x.tr.rate < 3 → x.tr.txMap < 256 → x.tr.rxMap < 256 → Makes i s fun v =>
          (v.lp p).tr.stage = 4 ∧ v.lRate p = x.tr.rate ∧ v.txMap p = x.tr.txMap ∧ v.rxMap p = x.tr.rxMap ∧ v.lState p = 1 ∧
          (v.lp p).good = 0 ∧ (v.lp p).rxScr = Chip.loadScr x.tr.rxMap ∧ (v.lp p).txScr = Chip.loadScr x.tr.txMap ∧
          s.w.keeps v (Addr.lnkState p :: regs)))) ∧
    (let w := s.w.switchDone p
     let y := w.lp p
     let late := y.tr.since + stageLimit y.tr.stage < s.w.time
     state = 1 →
      (x.tr.stage ≠ 3 ∨ s.w.time < x.tr.since + switchTicks → y = x) ∧
      (x.tr.stage = 3 → x.tr.since + switchTicks ≤ s.w.time → x.tr.rate < 3 → x.tr.txMap < 256 → x.tr.rxMap < 256 →
        y.tr = { x.tr with stage := 4, since := x.tr.since + switchTicks } ∧ w.lRate p = x.tr.rate ∧ w.txMap p = x.tr.txMap ∧
        w.rxMap p = x.tr.rxMap ∧ s.w.keeps w [Addr.lnkState p]) ∧
      (¬ late → Gives (.trainingStageTimeout p) s w) ∧
      (late →
        (y.tr.stage ≠ 4 → failed (.trainingStageTimeout p)) ∧
        (y.tr.stage = 4 → w.commonRate p (y.tr.rate + 1) = none → failed (.trainingStageTimeout p)) ∧
        (∀ r, y.tr.stage = 4 → w.commonRate p (y.tr.rate + 1) = some r → Gives (.trainingStageTimeout p) s
          (w.setLp p { y with tr := { y.tr with stage := 3, since := s.w.time, rate := r } })))) ∧
    (8 ≤ x.good →
      (state = 1 → x.tr.stage = 4 →
        (x.tr.resume = true → x.tr.pResume = true → Makes (.lockAchieved p) s fun v =>
          let y : LinkPort := { x with tr := {}, fails := 0, replay := none, repCount := 0, winAt := s.w.time }
          v.lState p = (if x.tr.left = 2 then 2 else if s.w.fullWidth p = true then 3 else 4) ∧
          (x.unacked = [] → v.lp p = y ∧ s.w.keeps v [Addr.lnkState p]) ∧
          (∀ f rest, x.unacked = f :: rest → v.lp p = { y with replay := some (f.seq, f.seq), repCount := 1 } ∧
            count v (Addr.lnkReplays p) ∧ v.flag (Addr.lnkErr p) F.lnkErr_REPLAY = true ∧
            s.w.keeps v [Addr.lnkState p, Addr.lnkReplays p, Addr.lnkErr p])) ∧
        (x.tr.resume = false ∨ x.tr.pResume = false → Makes (.lockAchieved p) s fun v =>
          (v.lp p).tr = { x.tr with stage := 5, since := s.w.time } ∧ (v.lp p).initDue = true ∧ (v.lp p).unacked = [] ∧
          (v.lp p).held = [] ∧ (v.lp p).expect = 0 ∧ (v.lp p).nextSeq = 0 ∧ v.regs = s.w.regs)) ∧
      (up → x.remapAt ≠ none → Makes (.lockAchieved p) s fun v =>
        only v { x with remapAt := none, remapDue := false, corr := [], winAt := s.w.time })) ∧
    (∀ l, up → laneGone (.lossOfSignal p l) l) ∧
    (up → x.winAt + 1000000 ≤ s.w.time →
      let above := (List.range 8).filter fun l => decide (s.w.cfg (Addr.lnkCfg p) F.lnkCfg_LANE_FAIL_THRESH < tget x.corr l)
      (above = [] → Makes (.laneFailWindow p) s fun v => only v { x with corr := [], winAt := s.w.time }) ∧
      (∀ l, above = [l] → laneGone (.laneFailWindow p) l) ∧
      Gives (.laneFailWindow p) s
        (above.foldl (fun w l => w.laneFailed p l) (s.w.setLp p { x with corr := [], winAt := s.w.time }))) ∧
    (∀ t, up → x.remapAt = some t → t + 2000 ≤ s.w.time → leaves (.remapTimeout p)) ∧
    (state = 5 →
      let h := s.w.cfg (Addr.lnkCfg p) F.lnkCfg_QUAR_HOLD
      (h ≠ 0 → x.quarSince + h * 100000000 ≤ s.w.time → Makes (.quarHoldExpiry p) s fun v =>
        listens v ∧ s.w.keeps v [Addr.lnkState p]) ∧
      (Makes (.lnkReleaseWrite p) s fun v => listens v ∧ s.w.keeps v [Addr.lnkState p])) ∧
    (off = false →
      (state = 0 → Makes (.lnkRetrainWrite p) s fun v => trains v 0) ∧
      (up → recent < 3 → Makes (.lnkRetrainWrite p) s fun v => trains v state ∧ (v.lp p).retrainDue = true) ∧
      (up → 3 ≤ recent → Makes (.lnkRetrainWrite p) s quarantined) ∧
      (¬ up → state ≠ 0 → Gives (.lnkRetrainWrite p) s s.w)) ∧
    (off = true → Gives (.lnkRetrainWrite p) s s.w) ∧
    (let down (v : Chip) : Prop :=
      v.flag (Addr.lnkCtrl p) F.lnkCtrl_DISABLE = true ∧ v.lState p = 0 ∧ (v.lp p).listenAt = none ∧
      s.w.keeps v [Addr.lnkCtrl p, Addr.lnkState p]
     (state = 0 ∨ state = 1 ∨ (up ∧ recent < 3) → Makes (.lnkDisableWrite p true) s down) ∧
     (up → 3 ≤ recent → Makes (.lnkDisableWrite p true) s fun v =>
       v.flag (Addr.lnkCtrl p) F.lnkCtrl_DISABLE = true ∧ v.lState p = 5 ∧
       s.w.keeps v [Addr.lnkCtrl p, Addr.lnkState p, Addr.lnkErr p]) ∧
     (state = 5 → Gives (.lnkDisableWrite p true) s (s.w.setFlag (Addr.lnkCtrl p) F.lnkCtrl_DISABLE true)) ∧
     (off = false ∨ state ≠ 0 →
       Gives (.lnkDisableWrite p false) s (s.w.setFlag (Addr.lnkCtrl p) F.lnkCtrl_DISABLE false)) ∧
     (off = true → state = 0 → Makes (.lnkDisableWrite p false) s fun v =>
       v.flag (Addr.lnkCtrl p) F.lnkCtrl_DISABLE = false ∧ (∃ t, (v.lp p).listenAt = some t ∧ s.w.time ≤ t) ∧
       s.w.keeps v [Addr.lnkCtrl p]))

/-- Transactions of the Opbihan link (R395, R417 to R429, R436, R437). -/
def Obligations.TransactionsAreJudgedPerformedAnsweredAndForwarded : Prop :=
  ∀ (s : State) (p vc h : Nat) (pay : List Byte) (m : Msg), s.w.portLive p = true → s.w.frontFlit p vc = some (h, pay) →
    let x := s.w.lp p
    let count (v : Chip) (a : Nat) : Prop := v.fld a ⟨31, 0⟩ = min (s.w.fld a ⟨31, 0⟩ + 1) (2 ^ 32 - 1)
    let freed (v : Chip) : Prop := ∃ asm, v.lp p =
      { x with
        held := spPut (fun _ => []) x.held vc ((spGet (fun _ => []) x.held vc).drop 1),
        freed := tput x.freed vc ((tget x.freed vc + 1) % 4096), asm := asm }
    let refused (v : Chip) (op : Op) (status detail : Nat) (data : List Byte) (dup : Bool) : Prop := freed v ∧
      ∃ r, v.msgRec? s.w.nextId = some r ∧ r.stage = .linkQ ∧
        r.dst = .port (if m.loc = true then p else (s.w.route? m.srcChip).getD p) ∧
        r.msg = { m with
          op := op, dstChip := m.srcChip, srcChip := m.dstChip, status := status, addr := detail, base := m.addr, data := data,
          arg := 0, dup := dup }
    let again (v : Chip) (k : Nat) (o : OutReq) : Prop :=
      spFind? v.pod.outReqs k = some { msg := { o.msg with epoch := s.w.epoch }, epoch := s.w.epoch, sent := o.sent + 1 } ∧
      ∃ r, v.msgRec? s.w.nextId = some r ∧ r.msg = { o.msg with epoch := s.w.epoch } ∧
        r.dst = .port (if o.msg.loc = true then o.msg.dstChip - 256 else (s.w.route? o.msg.dstChip).getD 8)
    let head := msgOf vc (payWord0 pay) (payWord1 pay) (fEpoch h) (payData h pay)
    let last := bit (payWord0 pay) 10
    (s.w.flitHere h pay = true →
      let free := s.w.freeFlit p vc
      let w := free.cutAsm p vc
      let runs (i : Instr) (judge : Chip → Option Chip) (perform : Chip → Chip) : Prop :=
        (∀ v, judge w = some v → Gives i s v) ∧
        (judge w = none → last = true → Gives i s (perform (w.beginPerform m))) ∧
        (judge w = none → last = false → Gives i s ((w.beginPerform m).setAsm p vc (some m)))
      let goesOn (i : Instr) (a : Msg) (perform : Chip → Msg → Chip) : Prop :=
        match contOf a vc (payWord0 pay) (payWord1 pay) (fEpoch h) (payData h pay) with
        | none => Gives i s (w.podProto)
        | some b =>
          (b.data.length = a.data.length → Gives i s free) ∧
          (b.data.length ≠ a.data.length → last = true → Gives i s (perform (free.setAsm p vc none) b)) ∧
          (b.data.length ≠ a.data.length → last = false → Gives i s (free.setAsm p vc (some b)))
      ∀ core mark unc tag,
        let arrival := Instr.transactionArrival p vc core mark
        let response := Instr.responseArrival p vc unc tag
        (fType h = 1 → head = none → Gives arrival s w.podProto) ∧
        (fType h = 1 → head = some m →
          (arrivalKind m = 0 → runs arrival (fun w => w.judgeRequest p m) (fun w => w.performRequest p core mark m)) ∧
          (arrivalKind m = 1 → runs response (fun w => if 0x0F < m.status then some w.podProto else none)
            (fun w => w.takeReply p unc tag m))) ∧
        (fType h ≠ 1 → spFind? x.asm vc = none → Gives arrival s free) ∧
        (∀ a, fType h ≠ 1 → spFind? x.asm vc = some a →
          (arrivalKind a = 0 → goesOn arrival a (fun w b => w.performRequest p core mark b)) ∧
          (arrivalKind a = 1 → goesOn response a (fun w b => w.takeReply p unc tag b)))) ∧
    (s.w.flitHere h pay = true → fType h = 1 →
      (∀ core mark, head = none → Makes (.transactionArrival p vc core mark) s fun v =>
        freed v ∧ v.flag Addr.podErr F.podErr_PROTO = true ∧ s.w.keeps v [Addr.podErr]) ∧
      (head = some m → last = true → arrivalKind m = 0 → ∀ core mark,
        let i := Instr.transactionArrival p vc core mark
        let plain := epochFree m = false ∧ m.op ≠ .timeSync ∧ m.op ≠ .podMgmt
        let ready := s.w.flag Addr.stwStatus F.stwStatus_READY = true
        (m.op = .timeSync ∨ (m.op = .podMgmt ∧ s.w.flag Addr.podCtrl F.podCtrl_MGMT_OPEN = true) → Makes i s fun v =>
          freed v ∧ v.pod.mgmtIn = s.w.pod.mgmtIn ++ [(p, { m with dstChip := 255 })] ∧ v.regs = s.w.regs) ∧
        (plain → ¬ ready → Makes i s fun v =>
          refused v .nakNotReady 0 s.w.nrHint [] false ∧ count v Addr.podNrSent ∧ s.w.keeps v [Addr.podNrSent]) ∧
        (plain → ready → m.loc = false →
          (m.epoch ≠ s.w.epoch → newerEpoch s.w.epoch m.epoch = true → Makes i s fun v =>
            refused v .epochStale 0 s.w.epoch [] false ∧ count v Addr.podStaleSent ∧ s.w.keeps v [Addr.podStaleSent]) ∧
          (m.epoch ≠ s.w.epoch → newerEpoch s.w.epoch m.epoch = false → Makes i s fun v =>
            refused v .nakNotReady 0 1 [] false ∧ count v Addr.podNrSent ∧ s.w.keeps v [Addr.podNrSent]) ∧
          (m.epoch = s.w.epoch → spFind? x.asm vc = none →
            let past := (spGet (fun _ => []) s.w.pod.filter m.srcChip).find? fun o => o.tid == m.tid
            (∀ o, m.filt = true → past = some o → Makes i s fun v =>
              refused v o.op o.status o.detail o.data true ∧ count v Addr.podDupAnswered ∧
              s.w.keeps v [Addr.podDupAnswered]) ∧
            (m.filt = true → past = none → (m.srcChip, m.tid) ∈ s.w.pod.performing → Makes i s fun v =>
              freed v ∧ v = { s.w with lnk := v.lnk }) ∧
            (m.filt = false ∨ (past = none ∧ (m.srcChip, m.tid) ∉ s.w.pod.performing) → Chip.outside m = false →
              Makes i s fun v =>
                freed v ∧ v.regs = s.w.regs ∧ (m.filt = true → (m.srcChip, m.tid) ∈ v.pod.performing) ∧
                ∃ r, v.msgRec? s.w.nextId = some r ∧ r.dst = Chip.placeOf m core mark ∧ r.src = .port p ∧
                  r.stage = arriveStage m r.dst ∧ r.msg = { m with
                    dstChip := 255, arg := (if m.op = .snoopInv then mark else m.arg), uncached := mark == 1,
                    fillTag := mark })))) ∧
      (head = some m → last = true → arrivalKind m = 1 → ∀ unc tag,
        (0x0F < m.status → Makes (.responseArrival p vc unc tag) s fun v =>
          freed v ∧ v.flag Addr.podErr F.podErr_PROTO = true ∧ s.w.keeps v [Addr.podErr]) ∧
        (m.status ≤ 0x0F → spFind? x.asm vc = none → s.w.matchReq p m = none →
          Makes (.responseArrival p vc unc tag) s fun v => freed v ∧ v = { s.w with lnk := v.lnk }) ∧
        (∀ k o, m.status ≤ 0x0F → s.w.matchReq p m = some (k, o) → (∀ q, q ∈ s.w.pod.outReqs → q.2.sent ≠ 0) →
          Makes (.responseArrival p vc unc tag) s fun v =>
            freed v ∧ spFind? v.pod.outReqs k = none ∧ tget v.pod.backoff o.msg.dstChip = 0 ∧ v.regs = s.w.regs ∧
            ∃ r, v.msgRec? s.w.nextId = some r ∧ r.dst = (if 8 ≤ m.srcUnit then .hub else .core m.srcCore) ∧
              r.msg = { m with dstChip := 255, acc := o.msg.acc, pos := o.msg.pos, uncached := unc, fillTag := tag })) ∧
      (head = some m → last = true → vc = 1 → s.w.matchReq p m = none →
        (arrivalKind m = 2 → Makes (.nakNotReady p) s fun v =>
          freed v ∧ count v Addr.podNrReceived ∧ s.w.keeps v [Addr.podNrReceived]) ∧
        (arrivalKind m = 3 → Makes (.epochStale p) s fun v =>
          freed v ∧ count v Addr.podStaleReceived ∧ s.w.keeps v [Addr.podStaleReceived])) ∧
      (head = some m → last = true → vc = 1 → ∀ k o, s.w.matchReq p m = some (k, o) →
        (arrivalKind m = 2 → Makes (.nakNotReady p) s fun v =>
          let b0 := tget s.w.pod.backoff o.msg.dstChip
          let b := if b0 = 0 then 16 else min 16384 (2 * b0)
          freed v ∧ count v Addr.podNrReceived ∧ tget v.pod.backoff o.msg.dstChip = b ∧
          spFind? v.pod.outReqs k = some { o with retryAt := some (s.w.time + max (bits m.addr 15 0) b * 1000) } ∧
          s.w.keeps v [Addr.podNrReceived]) ∧
        (arrivalKind m = 3 →
          (newerEpoch s.w.epoch o.epoch = false → Makes (.epochStale p) s fun v =>
            freed v ∧ count v Addr.podStaleReceived ∧ spFind? v.pod.outReqs k = some { o with stale := true } ∧
            tget v.pod.backoff o.msg.dstChip = 0 ∧ s.w.keeps v [Addr.podStaleReceived]) ∧
          (newerEpoch s.w.epoch o.epoch = true → Makes (.epochStale p) s fun v =>
            freed v ∧ count v Addr.podStaleReceived ∧ count v Addr.podResent ∧ again v k o ∧
            s.w.keeps v [Addr.podStaleReceived, Addr.podResent])))) ∧
    (∀ k o t, spFind? s.w.pod.outReqs k = some o → o.retryAt = some t → t ≤ s.w.time → Makes (.notReadyRetry k) s fun v =>
      again v k o ∧ v.regs = s.w.regs) ∧
    (s.w.flitHere h pay = false →
      (fType h = 1 → head = none → Gives (.flitForward p vc) s (s.w.freeFlit p vc).podProto) ∧
      (∀ v, fType h = 1 → head = some m → epochFree m = false → (s.w.freeFlit p vc).epochCheck p m = some v →
        Gives (.flitForward p vc) s v) ∧
      (fType h = 1 → head = some m → (epochFree m = true ∨ m.epoch = s.w.epoch) →
        let hops := fRoute h / 256 % 16 + 1
        let q := s.w.route? (fRoute h % 256)
        (∀ out, q = some out → hops ≤ 15 → Makes (.flitForward p vc) s fun v =>
          freed v ∧ v.regs = s.w.regs ∧ ∃ r, v.msgRec? s.w.nextId = some r ∧ r.msg = m ∧ r.src = .port p ∧
            r.dst = .port out ∧ r.cls = vc ∧ r.stage = .linkQ ∧ r.hops = hops ∧ r.arrived = 1 ∧
            (last = true → r.total = 1)) ∧
        (q = none ∨ 15 < hops → epochFree m = true → Gives (.flitForward p vc) s (s.w.freeFlit p vc)) ∧
        (q = none ∨ 15 < hops → epochFree m = false → Makes (.flitForward p vc) s fun v =>
          refused v .epochStale 0 s.w.epoch [] false ∧ count v Addr.podRouteErr ∧ s.w.keeps v [Addr.podRouteErr])) ∧
      (fType h ≠ 1 → s.w.forwarding? p vc = none → Gives (.flitForward p vc) s (s.w.freeFlit p vc)) ∧
      (∀ id r, fType h ≠ 1 → s.w.forwarding? p vc = some (id, r) →
        match contOf r.msg vc (payWord0 pay) (payWord1 pay) (fEpoch h) (payData h pay) with
        | none => Makes (.flitForward p vc) s fun v =>
            freed v ∧ v.flag Addr.podErr F.podErr_PROTO = true ∧ v.msgRec? id = none ∧ s.w.keeps v [Addr.podErr]
        | some b => if b.data.length = r.msg.data.length then Gives (.flitForward p vc) s (s.w.freeFlit p vc)
          else Makes (.flitForward p vc) s fun v => freed v ∧ v.regs = s.w.regs ∧ v.msgRec? id = some { r with
            msg := b, arrived := r.arrived + 1, total := if last = true then r.arrived + 1 else r.total })) ∧
    Gives (.flitForward 8 vc) s s.w.ownUnroutable

/-- Numbers and routes of an epoch (R422, R433, R440). -/
def Obligations.EpochNumbersAreDistinctAndRoutesFollowTheirClasses : Prop :=
  (∀ (own last : Table Nat) (chips : List (Nat × Nat)) (root : Nat), (chips.map fun c => c.1).Nodup →
    (∀ a n, spFind? own a = some n → n < 255 ∧ ∀ b, spFind? own b = some n → b = a) →
    let nums := assignNumbers own last chips root
    (nums.map fun x => x.1).Nodup ∧ (nums.map fun x => x.2).Nodup ∧
    (∀ x, x ∈ nums → x.2 < 255 ∧ ∃ c, c ∈ chips ∧ c.1 = x.1) ∧
    (∀ c n, c ∈ chips → spFind? own c.1 = some n → (c.1, n) ∈ nums)) ∧
  (∀ (t : List RepChip) (a d p k : Nat), a ≠ d → classRoute t a d = some (p, k) →
    let ordered (ports : List Nat) : Prop := (ports.map portCls).Pairwise fun i j => i ≤ j
    k ≤ 15 ∧ (∃ ports, LinkPath t a d (p :: ports) ∧ ordered (p :: ports) ∧ ports.length + 1 = k) ∧
    (∀ ports, LinkPath t a d ports → ordered ports → ports.length ≤ 15 → k ≤ ports.length))

/-- Pod formation and timebase synchronisation (R431 to R434, R437 to R442; Table POD-4, Table POD-8). -/
def Obligations.PodFormationElectsReportsAndAdopts : Prop :=
  ∀ (s : State) (p : Nat), s.w.mgmtOpen = true →
    let pod := s.w.pod
    let first (f : Msg → Bool) (m : Msg) : Prop := pod.mgmtIn.find? (fun q => q.1 == p && f q.2) = some (p, m)
    let mgmt (code : Nat) (m : Msg) : Prop := first (fun m => m.op == .podMgmt && leNat (m.data.take 1) == code) m
    let sync (arg : Nat) (m : Msg) : Prop := first (fun m => m.op == .timeSync && m.arg == arg) m
    let rest (m : Msg) := pod.mgmtIn.erase (p, m)
    let taking (m : Msg) : Chip := { s.w with pod := { pod with mgmtIn := rest m } }
    let sends (v : Chip) (q : Nat) (op : Op) (g : Mgmt) : Prop := ∃ r, v.msgRec? (s.w.nextId + 1) = some r ∧
      r.dst = .port q ∧ r.stage = .linkQ ∧ r.msg.op = op ∧ r.msg.loc = true ∧ r.msg.mgmt = some g
    let toAll (v : Chip) (c : Cand) (par : Nat) : Prop := ∀ q, q < 8 → Chip.isUp (s.w.lState q) = true →
      ∃ k o, spFind? v.pod.outReqs k = some o ∧ o.msg.dstChip = 256 + q ∧ o.msg.mgmt = some (.candidate c ownSerial par)
    (∀ m c serial parent, mgmt 1 m →
      let i := Instr.candidate p c serial parent
      let st := s.w.cfg Addr.podState F.podState_STATE
      let new : Neigh := ⟨c, serial, parent⟩
      let w := ({ s.w with pod := { pod with
        mgmtIn := rest m, neigh := spInsert pod.neigh p new, reported := pod.reported && spFind? pod.neigh p == some new } } :
        Chip).elect
      (w.better p c = false → Gives i s w) ∧
      (w.better p c = true → ownSerial < c.serial → Gives i s (w.setCand ⟨c.round, ownSerial, 0⟩ none)) ∧
      (w.better p c = true → c.serial ≤ ownSerial → Gives i s (w.setCand ⟨c.round, c.serial, c.dist + 1⟩ (some p))) ∧
      (st ≠ 0 ∨ pod.cand ≠ none → Makes i s fun v =>
        v.pod.mgmtIn = rest m ∧ spFind? v.pod.neigh p = some new ∧
        v.cfg Addr.podState F.podState_STATE = (if st = 0 then 1 else st) ∧ s.w.keeps v [Addr.podState, Addr.podCfgState] ∧
        (s.w.better p c = false → v.pod.cand = pod.cand ∧ v.net = s.w.net) ∧
        (s.w.better p c = true →
          let own := ownSerial < c.serial
          let mine : Cand := if own then ⟨c.round, ownSerial, 0⟩ else ⟨c.round, c.serial, c.dist + 1⟩
          v.pod.cand = some mine ∧ v.pod.candPort = (if own then none else some p) ∧ v.pod.candSince = s.w.time ∧
          v.pod.declared = false ∧ v.pod.reported = false ∧
          toAll v mine (if own then 0 else s.w.rd (Addr.partnerSerial p))))) ∧
    (let lost := ∃ q, pod.candPort = some q ∧ Chip.isUp (s.w.lState q) = false
     let own (e : Nat) : Cand := ⟨e, ownSerial, 0⟩
     (pod.cand = none → ¬ lost → Makes .candidatePeriodicSend s fun v =>
       v.pod.cand = some (own s.w.epoch) ∧ v.pod.candSince = s.w.time ∧ v.pod.lastCand = s.w.time ∧
       v.pod.candPort = none ∧ v.regs = s.w.regs ∧ toAll v (own s.w.epoch) 0) ∧
     (∀ c, pod.cand = some c → pod.lastCand + 1000000 ≤ s.w.time → ¬ lost → Makes .candidatePeriodicSend s fun v =>
       v.pod.cand = some c ∧ v.pod.candSince = pod.candSince ∧ v.pod.lastCand = s.w.time ∧ v.regs = s.w.regs ∧
       toAll v c (match pod.candPort with | some q => s.w.rd (Addr.partnerSerial q) | none => 0)) ∧
     (lost → pod.cand = none ∨ pod.lastCand + 1000000 ≤ s.w.time → Makes .candidatePeriodicSend s fun v =>
       v.pod.cand = some (own ((s.w.epoch + 1) % 256)) ∧ v.pod.candPort = none ∧ v.pod.candSince = s.w.time ∧
       v.regs = s.w.regs ∧ toAll v (own ((s.w.epoch + 1) % 256)) 0)) ∧
    (∀ c, pod.cand = some c → c.serial = ownSerial → pod.declared = false → pod.candSince + 20000000 ≤ s.w.time →
      let w : Chip := { s.w with pod := { pod with declared := true } }
      let all := ∀ q, q ∈ s.w.childPorts → ∃ r, r ∈ pod.reports ∧ r.1 = q
      (¬ all → Gives .rootDeclare s w) ∧ (all → Gives .rootDeclare s w.startEpoch) ∧
      (s.w.upPorts = [] → s.w.childPorts = [] → pod.reports = [] → s.w.chipNum? = none → Makes .rootDeclare s fun v =>
        v.pod = { pod with declared := true } ∧ v.cfg Addr.podState F.podState_STATE = 0 ∧
        s.w.keeps v [Addr.podState, Addr.podCfgState])) ∧
    (∀ q, pod.candPort = some q → pod.reported = false → pod.candSince + 10000000 ≤ s.w.time →
      Chip.isUp (s.w.lState q) = true → (∀ k, k ∈ s.w.childPorts → ∃ r, r ∈ pod.reports ∧ r.1 = k) →
      Makes .reportSend s fun v => v.pod.reported = true ∧ sends v q .podMgmt (.report s.w.topology) ∧ v.regs = s.w.regs) ∧
    (∀ m chips, mgmt 2 m →
      let w : Chip := { s.w with pod := { pod with
        mgmtIn := rest m, reports := spInsert pod.reports p chips, reported := false } }
      (spFind? pod.reports p = some chips → Gives (.report p chips) s (taking m)) ∧
      (spFind? pod.reports p ≠ some chips → pod.declared = false → Gives (.report p chips) s w) ∧
      (spFind? pod.reports p ≠ some chips → pod.declared = true → Gives (.report p chips) s w.rootReady)) ∧
    (∀ m e, mgmt 3 m →
      (∀ q, e.dest ≠ ownSerial → s.w.downPort? e.dest = some q → Makes (.newEpoch p e) s fun v =>
        v.pod.mgmtIn = rest m ∧ sends v q .podMgmt (.newEpoch e) ∧ v.regs = s.w.regs) ∧
      (e.dest ≠ ownSerial → s.w.downPort? e.dest = none → Gives (.newEpoch p e) s (taking m)) ∧
      (let same := s.w.epoch = e.epoch % 256 ∧ s.w.rd Addr.rootSerial = e.rootSerial ∧ pod.members = numTable e.members
       e.dest = ownSerial →
        (same → Gives (.newEpoch p e) s (taking m)) ∧ (¬ same → Gives (.newEpoch p e) s ((taking m).adopt e)) ∧
        (¬ same → e.rootSerial < 2 ^ 64 → (∀ x, x ∈ e.members → x.2 < 255) →
          (∀ r, r ∈ e.routes → r.1 < 255 ∧ r.2.1 < 8 ∧ r.2.2 < 16) → Makes (.newEpoch p e) s fun v =>
            v.epoch = e.epoch % 256 ∧ v.chipNum? = spFind? e.members ownSerial ∧ v.cfgRd Addr.rootSerial = e.rootSerial ∧
            v.cfg Addr.podState F.podState_STATE =
              (if e.members = [] then 0 else if (spFind? e.members ownSerial).isSome then 2 else 3) ∧
            (∀ d, d < 255 → (v.isMember d = true ↔ ∃ x, x ∈ e.members ∧ x.2 = d)) ∧
            (∀ d, d < 255 → v.route? d = (e.routes.find? fun r => r.1 == d).map fun r => r.2.1) ∧
            v.pod.members = numTable e.members ∧ v.pod.joined = (spFind? e.members ownSerial).isSome))) ∧
    (∀ m ep, mgmt 4 m →
      let w : Chip := { s.w with pod := { pod with mgmtIn := rest m, acks := p :: pod.acks } }
      let all := ∀ k, k ∈ s.w.childPorts → k = p ∨ k ∈ pod.acks
      (ep ≠ s.w.epoch ∨ p ∈ pod.acks → Gives (.epochAck p ep) s (taking m)) ∧
      (ep = s.w.epoch → p ∉ pod.acks →
        (pod.ackSent = true ∨ ¬ all → Gives (.epochAck p ep) s w) ∧
        (pod.ackSent = false → all → s.w.parentPort? = none →
          Gives (.epochAck p ep) s { w with pod := { w.pod with ackSent := true } }) ∧
        (∀ q, pod.ackSent = false → all → s.w.parentPort? = some q → Makes (.epochAck p ep) s fun v =>
          v.pod.mgmtIn = rest m ∧ v.pod.acks = p :: pod.acks ∧ v.pod.ackSent = true ∧
          sends v q .podMgmt (.epochAck s.w.epoch) ∧ v.regs = s.w.regs))) ∧
    (s.w.cfg Addr.podState F.podState_ROOT = 1 → p < 8 →
      (∀ m ev st partner, mgmt 5 m → Gives (.linkEvent p ev st partner) s ((taking m).rootEvent p ev st partner)) ∧
      (∀ m serial, mgmt 6 m →
        let without (r : Nat × List RepChip) : Nat × List RepChip :=
          (r.1, (r.2.filter fun c => c.serial != serial).map fun c =>
            { c with links := c.links.filter fun l => l.partner != serial })
        Gives (.leave p serial) s
          ({ s.w with pod := { pod with mgmtIn := rest m, reports := pod.reports.map without } } : Chip).startEpoch)) ∧
    (s.w.cfg Addr.podState F.podState_ROOT ≠ 1 → p < 8 →
      (s.w.parentPort? = none →
        (∀ m ev st partner, mgmt 5 m → Gives (.linkEvent p ev st partner) s (taking m)) ∧
        (∀ m serial, mgmt 6 m → Gives (.leave p serial) s (taking m))) ∧
      (∀ q, s.w.parentPort? = some q →
        (∀ m ev st partner, mgmt 5 m → Makes (.linkEvent p ev st partner) s fun v =>
          v.pod.mgmtIn = rest m ∧ sends v q .podMgmt (.linkEvent ev st partner) ∧ v.regs = s.w.regs) ∧
        (∀ m serial, mgmt 6 m → Makes (.leave p serial) s fun v =>
          v.pod.mgmtIn = rest m ∧ sends v q .podMgmt (.leave serial) ∧ v.regs = s.w.regs))) ∧
    (∀ q, s.w.parentPort? = some q → s.w.cfg Addr.podState F.podState_STATE = 2 → pod.syncAt + 1000000 ≤ s.w.time →
      Makes .timeSyncTimer s fun v =>
        v.pod.syncAt = s.w.time ∧ sends v q .timeSync (.timeRequest s.w.time) ∧ v.regs = s.w.regs) ∧
    (∀ k st partner evs ev st' partner', pod.linkEvs = (k, st, partner) :: evs →
      let w : Chip := { s.w with pod := { pod with linkEvs := evs } }
      Gives (.linkEvent 8 ev st' partner') s (w.rootEvent 8 k st partner) ∧
      (Chip.isUp st = true → (∀ x, x ∈ pod.members → x.1 ≠ partner) → Gives (.linkEvent 8 ev st' partner') s w)) ∧
    (∀ m t1, sync 0 m → Makes (.timeSyncRequest p t1) s fun v =>
      v.pod.mgmtIn = rest m ∧ sends v p .timeSync (.timeReply t1 s.w.time s.w.time) ∧ v.regs = s.w.regs) ∧
    (∀ (m : Msg) (t1 t2 t3 : Nat), sync 1 m →
      let fwd : Int := codewordTenths (s.w.txMap p) (s.w.lRate p)
      let back : Int := codewordTenths (s.w.rxMap p) (s.w.lRate p)
      let off : Int := (10 * (((t2 : Int) - t1) - ((s.w.time : Int) - t3)) - 2 * (fwd - back)) / 20
      Makes (.timeSyncReply p t1 t2 t3) s fun v =>
        v.pod.mgmtIn = rest m ∧ v.fld Addr.tbOffset F.tbOffset_NS = wrapInt 32 off ∧
        (v.flag Addr.podState F.podState_TB_LOCKED = true ↔ -4 ≤ off ∧ off ≤ 4) ∧
        tget v.pod.backoff (256 + p) = 0 ∧ s.w.keeps v [Addr.tbOffset, Addr.podState])

/-- Mailbox channels and the steward's exceptions (R451 to R459, R467 to R469, R475, R476, R479). -/
def Obligations.MailboxChannelsAcceptStartAnswerAndTimeOut : Prop :=
  ∀ (s : State) (c : Nat), c < 8 →
    let count (v : Chip) (a : Nat) : Prop := v.fld a ⟨31, 0⟩ = min (s.w.fld a ⟨31, 0⟩ + 1) (2 ^ 32 - 1)
    let answered (v : Chip) (rsp : List Nat) : Prop :=
      v.mbState c = 3 ∧ ∀ i, i < 8 → v.rd (Addr.mbRsp c i) = rsp.getD i 0 % 2 ^ 64
    let rspRegs := (List.range 8).map (Addr.mbRsp c)
    (∀ origin, s.w.live = true →
      (s.w.ready = false → Makes (.mailboxDoorbell c origin) s fun v => count v Addr.earlyDrop ∧ s.w.keeps v [Addr.earlyDrop]) ∧
      (s.w.ready = true → s.w.mbState c = 0 ∨ s.w.mbState c = 3 → Makes (.mailboxDoorbell c origin) s fun v =>
        v.mbState c = 1 ∧ v.fld (Addr.mbState c) F.mbState_ORIGIN = origin % 3 ∧ count v (Addr.mbDoorbells c) ∧
        spFind? v.stw.latched c = some ((List.range 8).map fun i => s.w.rd (Addr.mbReq c i)) ∧
        s.w.keeps v [Addr.mbState c, Addr.mbDoorbells c]) ∧
      (s.w.ready = true → s.w.mbState c = 1 ∨ s.w.mbState c = 2 → Makes (.mailboxDoorbell c origin) s fun v =>
        v.flag (Addr.mbState c) F.mbState_DB_LOST = true ∧ v.mbState c = s.w.mbState c ∧
        s.w.keeps v [Addr.mbState c])) ∧
    (∀ rest req, s.w.ready = true → s.w.postedChans = c :: rest → spFind? s.w.stw.latched c = some req →
      let m : MbxCmd := { req := req, born := s.w.time, stamp := s.w.nextId }
      let m : MbxCmd := { m with obj := s.w.choose m }
      let dup (k : List Nat) : Prop := spFind? s.w.stw.kept c = some k ∧ bits (k.headD 0) 31 16 = rf m 0 31 16
      let barred := ∃ p, p ∈ s.w.stw.cmds ∧ p.1 ≠ c ∧ (Chip.holdsAll p.2 = true ∨ (Chip.holdsAll m = true ∧ ∀ k, ¬ dup k))
      (barred → Gives .mailboxCommandStart s s.w) ∧
      (¬ barred → (∀ k, ¬ dup k) → Makes .mailboxCommandStart s fun v =>
        v.mbState c = 2 ∧ v.stw.last = c ∧ spFind? v.stw.latched c = none ∧ v.stw.kept = s.w.stw.kept ∧
        v.cmd? c = some { m with result := (s.w.startStatus c m).map fun x => (x, s.w.refusedWords m x) } ∧
        s.w.keeps v [Addr.mbState c]) ∧
      (∀ k, ¬ barred → dup k → Makes .mailboxCommandStart s fun v =>
        answered v ((k.headD 0 % 2 ^ 48 + 2 ^ 48) :: k.drop 1) ∧ v.stw.last = c ∧ v.stw.cmds = s.w.stw.cmds ∧
        spFind? v.stw.latched c = none ∧ s.w.keeps v (Addr.mbState c :: rspRegs))) ∧
    (∀ m st words, s.w.ready = true → s.w.cmd? c = some m → m.result = some (st, words) →
      let live : Bool := st == 0 && (cmdCode m == 1 || cmdCode m == 2)
      Makes (.mailboxCommandDone c) s fun v =>
        let rsp := Chip.rspOf m st (if live then words.dropLast ++ [s.w.time] else words)
        answered v rsp ∧ v.cmd? c = none ∧ spFind? v.stw.kept c = some rsp ∧
        v.fld (Addr.mbState c) F.mbState_LAST_SEQ = bits (rsp.headD 0) 31 16 ∧
        v.flag (Addr.mbState c) F.mbState_LAST_VALID = true ∧ s.w.keeps v (Addr.mbState c :: rspRegs)) ∧
    (∀ code m r, s.w.inProgress c code m → fwRow? code = some r → m.born + r.limit * 1000000 ≤ s.w.time →
      (code = 0x10 → Makes (.mailboxCommandTimeout c) s fun v =>
        v.ends c 8 [m.mark + Nat.xor m.obj 0xFFFFFFFF * 2 ^ 32] ∧ v.regs = s.w.regs) ∧
      (code ≠ 0x10 → code ≠ 0xC1 → (code = 0x32 → m.phase = 0) → Makes (.mailboxCommandTimeout c) s fun v =>
        v.ends c 8 [] ∧ v.regs = s.w.regs ∧ v.jrnl = s.w.jrnl) ∧
      (code = 0xC1 → Gives (.mailboxCommandTimeout c) s (s.w.journalErased.fwEnd c 8 []) ∧
        Makes (.mailboxCommandTimeout c) s fun v => v.ends c 8 [] ∧ v.regs = s.w.regs ∧ v.jrnl.erasing = none) ∧
      (code = 0x32 → m.phase ≠ 0 →
        let q := rQueue m
        let old := m.phase = 7 ∧ s.w.cfgPending (.queue q) = true
        let w := (s.w.dropCommit (.queue q) m).fwEnd c 8 []
        Gives (.mailboxCommandTimeout c) s (queueHoldRelease q w) ∧
        (q < 16384 → s.w.que.held = [] → s.w.que.wait = [] → Makes (.mailboxCommandTimeout c) s fun v =>
          v.ends c 8 [] ∧ v.flag (Addr.qCtrl q) F.qCtrl_HOLD = false ∧ v.committed = s.w.committed ∧
          (old → v.cfgPending (.queue q) = false ∧ v.flag (Addr.qCfgState q) F.bgCfgState_DIRTY = true ∧
            s.w.keeps v [Addr.qCtrl q, Addr.qCfgState q]) ∧
          (¬ old → s.w.keeps v [Addr.qCtrl q])))) ∧
    (∀ cause sp dump, s.w.stewardRuns = true → cause < 256 → Makes (.stewardException cause sp dump) s fun v =>
      v.fld Addr.stwHalt F.stwHalt_CAUSE = cause ∧ v.rd Addr.stwHaltTime = s.w.time % 2 ^ 64 ∧ v.phase = 5 ∧
      v.flag Addr.stwStatus F.stwStatus_READY = false ∧
      (sp = true → v.stw.emerg = s.w.stw.emerg ∧ s.w.keeps v [Addr.stwHalt, Addr.stwHaltTime, Addr.stwStatus] ∧
        let o : Occ :=
          { kind := 7, code := cause, time := s.w.time, data := toLE 8 (v.rd Addr.stwHalt) ++ toLE 8 s.w.time }
        v.jrnl = (s.w.journalAppend o).jrnl) ∧
      (sp = false → v.flag Addr.stwHalt F.stwHalt_EMERG = true ∧ v.jrnl = s.w.jrnl ∧
        v.stw.emerg = some (padTo 256 (BitVec.ofNat 8 cause :: dump)) ∧
        s.w.keeps v [Addr.stwHalt, Addr.stwHaltTime, Addr.stwStatus]))

/-- The commands on the chip as a whole (R482, R500 to R505; Tables FWC-2, FWC-10, FWC-11). -/
def Obligations.ChipCommandsReportAndConfigureTheChip : Prop :=
  ∀ (s : State) (c : Nat) (m : MbxCmd),
    let on (code : Nat) : Prop := s.w.inProgress c code m
    let pure (v : Chip) : Prop := v = { s.w with accs := v.accs, stw := v.stw }
    let more (i : Instr) (p : Nat) : Prop :=
      let e := s.w.qE (s.w.bulkOut c)
      (m.phase = p → s.w.fwWaits c = true → Gives i s s.w) ∧
      (∀ f, m.phase = p → s.w.fwWaits c = false → s.w.fwFault c = some f → Makes i s fun v =>
        v.ends c 9 [f.1 + f.2 % 2 ^ 32 * 2 ^ 32] ∧ v.regs = s.w.regs) ∧
      (m.phase = p → s.w.fwDone c → e < m.data.length → Makes i s fun v =>
        v.cmd? c = some { m with mark := m.mark + e, data := m.data.drop e })
    (on 0x01 → Makes (.getInfo c) s fun v => pure v ∧ v.ends c 0
      [ownSerial, s.w.rd Addr.stwVersion % 2 ^ 40 + 0xB0 * 2 ^ 40 + b2n Config.industrial * 2 ^ 48,
       64 + 4 * 2 ^ 8 + 16384 * 2 ^ 16 + 512 * 2 ^ 32,
       s.w.fld Addr.stwStatus F.stwStatus_BOOT_SRC + s.w.fld Addr.stwStatus F.stwStatus_SLOT * 2 ^ 8 +
         ((s.w.stw.image.map fun i => i.count).getD 0) % 2 ^ 32 * 2 ^ 32,
       s.w.time]) ∧
    (on 0x02 → Makes (.getStatus c) s fun v => pure v ∧ ∃ words, v.ends c 0 words ∧ words.length = 6 ∧
      bits (words.getD 0 0) 7 0 = s.w.phase ∧ bits (words.getD 0 0) 23 16 = s.w.chipNum?.getD 0xFF ∧
      bits (words.getD 0 0) 31 24 = s.w.epoch ∧ words.getD 1 0 = s.w.rd Addr.corePwr ∧
      bits (words.getD 2 0) 15 0 = s.w.railMv 0 % 2 ^ 16 ∧ bits (words.getD 2 0) 31 16 = s.w.railMv 1 % 2 ^ 16 ∧
      bits (words.getD 3 0) 31 0 = s.w.jrnl.next % 2 ^ 32 ∧ words.getD 5 0 = s.w.time ∧
      (∀ p, p < 8 → bits (words.getD 4 0) (4 * p + 3) (4 * p) = s.w.lState p)) ∧
    (on 0x03 → s.w.pstate = 2 →
      (s.w.wakeBarred = true → Gives (.resetChip c) s s.w) ∧ (s.w.wakeBarred = false → Gives (.resetChip c) s s.w.beginWake)) ∧
    (on 0x03 → s.w.pstate = 3 → Gives (.resetChip c) s s.w) ∧
    (on 0x03 → s.w.pstate ≠ 2 → s.w.pstate ≠ 3 →
      Gives (.resetChip c) s ((s.w.keepRsp c (Chip.rspOf m 0 [])).chipReset 3) ∧ Makes (.resetChip c) s fun v =>
      v.phase = 3 ∧ v.stw.cmds = [] ∧ v.stw.latched = [] ∧ spFind? v.stw.kept c = some (Chip.rspOf m 0 []) ∧ v.time = s.w.time ∧
      v.slots = [] ∧ v.accs = [] ∧ v.net = {} ∧ v.dma = [] ∧ v.que = {} ∧ v.coh = [] ∧ v.evt = {} ∧
      v.jrnl.entries = s.w.jrnl.entries) ∧
    (on 0xA0 →
      let u := rf m 1 4 0
      (m.phase = 0 → s.w.cfgPending .iris = false → Makes (.monitorConfig c) s fun v =>
        v.inPhase c 1 ∧ v.cfgPending .iris = true ∧ v.rd (Addr.irisSelect u) = maskReg (Addr.irisSelect u) (reqw m 2) ∧
        v.rd (Addr.irisCfg u) = maskReg (Addr.irisCfg u) (rf m 1 8 8 + rf m 1 23 16 * 2 ^ 8 + rf m 1 24 24 * 2 ^ 16 +
          rf m 1 29 25 * 2 ^ 17 + s.w.fld (Addr.irisCfg u) F.irisCfg_ALARM_EN * 2 ^ 24) ∧
        v.committed = s.w.committed ∧ s.w.keeps v [Addr.irisCfg u, Addr.irisSelect u, Addr.irisCfgState]) ∧
      (m.phase ≤ 1 → s.w.cfgPending .iris = true → Gives (.monitorConfig c) s s.w) ∧
      (m.phase = 1 → s.w.cfgPending .iris = false → Makes (.monitorConfig c) s fun v =>
        v.ends c 0 [s.w.fld Addr.irisCfgState F.irisCfgState_GEN] ∧ pure v)) ∧
    (on 0xA1 →
      let us := (List.range 32).filter fun u => rb m 1 u
      let u := us.headD 0
      let bout := rb m 0 41
      let short := bout = true ∧ rf m 2 23 0 < 168 * us.length
      let busy := s.w.flag Addr.irisSnap F.irisSnap_BUSY
      (m.phase = 0 → short → Makes (.monitorRead c) s fun v => v.ends c 4 [] ∧ pure v) ∧
      (∀ x, m.phase = 0 → ¬ short → s.w.bulkStatus c m 0 (rf m 2 23 0) = some x → Makes (.monitorRead c) s fun v =>
        v.ends c x [] ∧ pure v) ∧
      (m.phase = 0 → ¬ short → s.w.bulkStatus c m 0 (rf m 2 23 0) = none → busy = true →
        Gives (.monitorRead c) s (s.w.fwPhase c m 1)) ∧
      (m.phase = 1 ∨ m.phase = 2 → busy = true → Gives (.monitorRead c) s s.w) ∧
      ((m.phase = 0 ∧ ¬ short ∧ s.w.bulkStatus c m 0 (rf m 2 23 0) = none) ∨ m.phase = 1 → busy = false →
        Makes (.monitorRead c) s fun v =>
          v.inPhase c 2 ∧ v.flag Addr.irisSnap F.irisSnap_BUSY = true ∧
          v.fld Addr.irisSnap F.irisSnap_UNITS = rf m 1 31 0 ∧ s.w.keeps v [Addr.irisSnap]) ∧
      (m.phase = 2 → bout = false → busy = false → Makes (.monitorRead c) s fun v => pure v ∧
        v.ends c 0 [s.w.rd (Addr.irisMin u), s.w.rd (Addr.irisMax u), s.w.rd (Addr.irisCount u), s.w.rd (Addr.irisSum u),
          s.w.rd Addr.irisSnapTime]) ∧
      (let ended (w : Chip) (m : MbxCmd) : Chip := w.fwEnd c 0 [m.mark, 0, 0, 0, m.obj]
       let m' : MbxCmd := { m with phase := 3, obj := s.w.rd Addr.irisSnapTime, data := us.flatMap s.w.irisRecord }
       bout = true →
        (m.phase = 2 → busy = false → Gives (.monitorRead c) s (s.w.fwOutput c m' 3 ended)) ∧
        (m.phase = 2 → busy = false → us ≠ [] → Makes (.monitorRead c) s fun v =>
          v.cmd? c = some { m' with phase := 4 } ∧ ∀ x, x ∈ us → (s.w.irisRecord x).length = 168) ∧
        (2 < m.phase → Gives (.monitorRead c) s (s.w.fwOutput c m 3 ended)) ∧
        (m.phase = 4 → s.w.fwDone c → m.data.length ≤ s.w.qE (s.w.bulkOut c) → Makes (.monitorRead c) s fun v =>
          v.ends c 0 [m.mark + m.data.length, 0, 0, 0, m.obj]) ∧
        more (.monitorRead c) 4)) ∧
    (on 0xC0 →
      let max := rf m 1 55 32
      let es := (s.w.jrnl.entries.filter fun e =>
        decide (s.w.jrnl.oldest ≤ e.1) && decide (rf m 1 31 0 ≤ e.1 % 2 ^ 32)).take (max / 64)
      (∀ x, m.phase = 0 → s.w.bulkStatus c m 0 max = some x → Makes (.faultLogRead c) s fun v => v.ends c x [] ∧ pure v) ∧
      (m.phase = 0 → s.w.bulkStatus c m 0 max = none → es = [] → Makes (.faultLogRead c) s fun v => pure v ∧
        v.ends c 0 [s.w.jrnl.oldest % 2 ^ 32 + s.w.jrnl.next % 2 ^ 32 * 2 ^ 32, s.w.stw.overwritten % 2 ^ 32 * 2 ^ 32, 0]) ∧
      (m.phase = 0 → s.w.bulkStatus c m 0 max = none → es ≠ [] → Makes (.faultLogRead c) s fun v =>
        ∃ m', v.cmd? c = some m' ∧ m'.phase = 3 ∧ m'.result = none ∧
          m'.data = es.flatMap fun e => journalBytes e.1 e.2) ∧
      (1 < m.phase → Gives (.faultLogRead c) s (s.w.fwOutput c m 2 fun w m => w.fwEnd c 0 m.aux)) ∧
      (m.phase = 3 → s.w.fwDone c → m.data.length ≤ s.w.qE (s.w.bulkOut c) → Makes (.faultLogRead c) s fun v =>
        v.ends c 0 m.aux) ∧
      more (.faultLogRead c) 3) ∧
    (on 0xC1 →
      (m.phase = 0 → Makes (.faultLogClear c) s fun v => v.inPhase c 1 ∧ v.stw.overwritten = 0 ∧ v.regs = s.w.regs ∧
        v.jrnl = { s.w.jrnl with entries := [], oldest := s.w.jrnl.next, erasing := some [] }) ∧
      (m.phase ≠ 0 → Makes (.faultLogClear c) s fun v => v.jrnl = s.w.journalErased.jrnl ∧ v.jrnl.erasing = none ∧
        v.ends c 0 [v.jrnl.next % 2 ^ 32] ∧ v.stw.overwritten = s.w.journalErased.stw.overwritten ∧ v.regs = s.w.regs)) ∧
    (on 0xF0 → rf m 1 31 0 ≤ 60000 → Makes (.watchdogSet c) s fun v =>
      let p := rf m 1 31 0
      v.ends c 0 [v.wdLeft] ∧ v.flag Addr.wdCfg F.wdCfg_HOST_FEED = rb m 1 32 ∧
      v.fld Addr.wdCfg F.wdCfg_PERIOD_MS = (if p = 0 then s.w.fld Addr.wdCfg F.wdCfg_PERIOD_MS else p) ∧
      v.wd.fedAt = (if rb m 1 33 = true then s.w.time else s.w.wd.fedAt) ∧ s.w.keeps v [Addr.wdCfg]) ∧
    (on 0xD0 →
      let p := rf m 1 1 0
      (∀ x, m.phase = 0 → s.w.audioState m = some x → Makes (.audioConfig c) s fun v => v.ends c x [] ∧ pure v) ∧
      (m.phase = 0 → s.w.audioState m = none → s.w.cfgPending .host = true →
        Gives (.audioConfig c) s (s.w.fwPhase c m 1)) ∧
      (m.phase = 1 ∨ m.phase = 2 → s.w.cfgPending .host = true → Gives (.audioConfig c) s s.w) ∧
      ((m.phase = 0 ∧ s.w.audioState m = none) ∨ m.phase = 1 → s.w.cfgPending .host = false → p < 3 →
        Makes (.audioConfig c) s fun v =>
        v.inPhase c 2 ∧ v.cfgPending .host = true ∧ v.committed = s.w.committed ∧
        v.rd (Addr.audCfg0 p) = maskReg (Addr.audCfg0 p) (reqw m 2) ∧
        v.rd (Addr.audCfg0 p + 8) = maskReg (Addr.audCfg0 p + 8) (reqw m 3) ∧
        v.rd (Addr.audCfg0 p + 16) = maskReg (Addr.audCfg0 p + 16) (reqw m 4) ∧
        v.rd (Addr.audCtrl p) = maskReg (Addr.audCtrl p) (rf m 1 8 8)) ∧
      (m.phase = 2 → s.w.cfgPending .host = false → Makes (.audioConfig c) s fun v =>
        v.ends c 0 [s.w.fld Addr.hostCfgState F.hostCfgState_GEN] ∧ pure v)) ∧
    (on 0xE0 →
      let off := rf m 1 17 0
      let slot := 1 - s.w.stw.bootSlot % 2
      let d := m.data ++ s.w.fwData c
      let d := s.w.stw.update.getD [] ++ d.take (rf m 1 49 32)
      let words := [d.length + slot * 2 ^ 32]
      let count := ((s.w.stw.image.map fun i => i.count).getD 0) + 1
      let q := s.w.bulkIn c
      let gap := off ≠ 0 ∧ ∀ d, s.w.stw.update = some d → d.length ≠ off
      (m.phase = 0 → gap → Makes (.firmwareUpdate c) s fun v => v.ends c 3 [] ∧ pure v) ∧
      (∀ x, m.phase = 0 → ¬ gap → s.w.bulkStatus c m (rf m 1 49 32) 0 = some x → Makes (.firmwareUpdate c) s fun v =>
        v.ends c x [] ∧ pure v) ∧
      (m.phase = 0 → ¬ gap → s.w.bulkStatus c m (rf m 1 49 32) 0 = none →
        let w := s.w.fwPhase c m 1
        let erased : Chip := { w with stw := { w.stw with update := some [], flashOut := (slot, []) :: w.stw.flashOut } }
        let reads (w : Chip) : Chip := (w.fwRing c q (s.w.qCons q) .rd []).setCmd c { m with phase := 2, mark := 1 }
        (off = 0 → Gives (.firmwareUpdate c) s (reads erased)) ∧ (off ≠ 0 → Gives (.firmwareUpdate c) s (reads w))) ∧
      (m.phase = 2 → s.w.fwWaits c = true → Gives (.firmwareUpdate c) s s.w) ∧
      (∀ f, m.phase = 2 → s.w.fwWaits c = false → s.w.fwFault c = some f → Makes (.firmwareUpdate c) s fun v =>
        v.ends c 9 [f.1 + f.2 % 2 ^ 32 * 2 ^ 32] ∧ v.stw.update = s.w.stw.update ∧ v.stw.flashOut = s.w.stw.flashOut ∧
        v.regs = s.w.regs) ∧
      (m.phase = 2 → s.w.fwDone c → (m.data ++ s.w.fwData c).length < rf m 1 49 32 →
        Gives (.firmwareUpdate c) s (((s.w.dropAccs (.fw c)).fwRing c q (s.w.qCons q + m.mark) .rd []).setCmd c
          { m with data := m.data ++ s.w.fwData c, mark := m.mark + 1 })) ∧
      (m.phase = 2 → s.w.fwDone c → rf m 1 49 32 ≤ (m.data ++ s.w.fwData c).length →
        (rb m 1 63 = false → Makes (.firmwareUpdate c) s fun v =>
          v.ends c 0 words ∧ v.stw.update = some d ∧
          v.stw.flashOut = (slot, List.replicate 32 0xFF ++ d.drop 32) :: s.w.stw.flashOut) ∧
        (rb m 1 63 = true → updateHeader d count = none → Makes (.firmwareUpdate c) s fun v =>
          v.ends c 3 [] ∧ v.stw.flashOut = s.w.stw.flashOut) ∧
        (∀ h, rb m 1 63 = true → updateHeader d count = some h → Makes (.firmwareUpdate c) s fun v =>
          v.ends c 0 words ∧ v.stw.update = none ∧ v.stw.flashOut = (slot, h ++ d.drop 32) :: s.w.stw.flashOut)))

/-- Commands on images and contexts (R483 to R486; Tables FWC-3, FWC-4). -/
def Obligations.ImageAndContextCommandsWorkThroughTheirCore : Prop :=
  ∀ (s : State) (c : Nat) (m : MbxCmd),
    let on (code : Nat) : Prop := s.w.inProgress c code m
    let pure (v : Chip) : Prop := v = { s.w with accs := v.accs, stw := v.stw }
    let n := rCore m
    let slot := rSlot m
    let a (v : Chip) : Acc := v.acc s.w.nextId
    let lm (v : Chip) (kind : AccKind) (reqr off len : Nat) : Prop :=
      (a v).owner = .fw c ∧ (a v).home = n ∧ (a v).reqr = reqr ∧ (a v).kind = kind ∧ (a v).addr = lmAddr n off ∧ (a v).len = len
    let failed (i : Instr) (words : List Nat) : Prop := s.w.fwWaits c = false → s.w.fwFault c ≠ none →
      Makes i s fun v => v.ends c 9 words ∧ pure v
    let faulted (i : Instr) : Prop := ∀ f, s.w.fwWaits c = false → s.w.fwFault c = some f → Makes i s fun v =>
      v.ends c 9 [f.1 + f.2 % 2 ^ 32 * 2 ^ 32] ∧ pure v
    let waits (i : Instr) : Prop := s.w.fwWaits c = true → Gives i s s.w
    let read := s.w.dropAccs (.fw c)
    let seq (i : Instr) (op p : Nat) : Prop := s.w.coreUp n = true → m.phase = p →
      (s.w.flag (Addr.seqOp n) F.seqOp_BUSY = true → Gives i s s.w) ∧
      (s.w.flag (Addr.seqOp n) F.seqOp_BUSY = false → Gives i s ((s.w.seqGo n op slot).fwPhase c m (p + 1)))
    let result (i : Instr) (p : Nat) : Prop := s.w.coreUp n = true → s.w.flag (Addr.seqOp n) F.seqOp_BUSY = false →
      m.phase = p + 1 → Makes i s fun v =>
        let r := s.w.fld (Addr.seqOp n) F.seqOp_RESULT
        v.ends c (if r = 0 then 0 else 3) [s.w.ctxWord n slot r] ∧ pure v
    let down (i : Instr) (p : Nat) : Prop :=
      (s.w.coreUp n = false → m.phase = p ∨ m.phase = p + 1 → Makes i s fun v => v.ends c 9 [0x0A] ∧ pure v) ∧
      (s.w.coreUp n = true → s.w.flag (Addr.seqOp n) F.seqOp_BUSY = true → m.phase = p + 1 → Gives i s s.w)
    let noBulk := s.w.bulkWrong c m
    (on 0x10 →
      let bytes := reqw m 2
      let i := Instr.loadImage c
      let d := (s.w.fwData c).take (bytes - m.mark)
      (∀ x, m.phase = 0 → s.w.bulkStatus c m bytes 0 = some x → Makes i s fun v => v.ends c x [] ∧ pure v) ∧
      (m.phase = 0 → s.w.bulkStatus c m bytes 0 = none → (Makes i s fun v => v.inPhase c 2) ∧
        Gives i s ((s.w.fwPhase c m 1).loadNext c { m with phase := 1 })) ∧
      (m.phase = 2 ∨ m.phase = 3 → waits i) ∧
      (m.phase = 2 → s.w.fwDone c → s.w.coreUp n = false → Makes i s fun v =>
        v.ends c 9 [m.mark + Nat.xor m.obj 0xFFFFFFFF * 2 ^ 32] ∧ v.regs = s.w.regs) ∧
      (m.phase = 2 → s.w.fwDone c → s.w.coreUp n = true → Makes i s fun v =>
        lm v .wr 8 (rf m 1 27 8 + m.mark) d.length ∧ (a v).data = d ∧ v.inPhase c 3 ∧ v.regs = s.w.regs) ∧
      (m.phase = 3 → s.w.fwDone c →
        let m' : MbxCmd := { m with mark := m.mark + m.data.length, obj := crcOn m.obj m.data, data := [] }
        let q := s.w.bulkIn c
        (m'.mark < bytes → (Makes i s fun v => v.inPhase c 2) ∧ Gives i s (read.loadNext c m')) ∧
        (bytes ≤ m'.mark → rf m 1 33 32 = 0 →
          let w := doorbellWrite .dbCons q ((s.w.qCons q + m.aux.headD 0) % 2 ^ 32) .steward read
          Gives i s (w.fwEnd c 0 [imageWord m' m'.mark])) ∧
        (bytes ≤ m'.mark → rf m 1 33 32 ≠ 0 → Gives i s (read.fwEnd c 0 [imageWord m' m'.mark])) ∧
        (bytes ≤ m'.mark → Makes i s fun v =>
          v.ends c 0 [m.mark + m.data.length + Nat.xor (crcOn m.obj m.data) 0xFFFFFFFF * 2 ^ 32])) ∧
      (m.phase = 2 ∨ m.phase = 3 → failed i [m.mark + Nat.xor m.obj 0xFFFFFFFF * 2 ^ 32])) ∧
    (on 0x11 →
      let bytes := reqw m 2
      let i := Instr.verifyImage c
      let crc := Nat.xor (crcOn m.obj (s.w.fwData c)) 0xFFFFFFFF
      let off := rf m 1 27 8 + m.mark
      (m.phase = 0 → s.w.coreUp n = true → Makes i s fun v =>
        lm v .rd 7 off (min (bytes - m.mark) (64 - off % 64)) ∧ v.inPhase c 1 ∧ v.regs = s.w.regs) ∧
      (m.phase = 1 → waits i ∧ faulted i) ∧
      (m.phase = 1 → s.w.fwDone c → m.mark + (s.w.fwData c).length < bytes →
        let m' : MbxCmd := { m with mark := m.mark + (s.w.fwData c).length, obj := crcOn m.obj (s.w.fwData c) }
        let off := rf m 1 27 8 + m'.mark
        (s.w.coreUp n = true → Makes i s fun v => lm v .rd 7 off (min (bytes - m'.mark) (64 - off % 64)) ∧
          v.cmd? c = some m' ∧ v.regs = s.w.regs) ∧
        (s.w.coreUp n = false → Makes i s fun v => v.ends c 9 [0x0A] ∧ pure v)) ∧
      (m.phase = 1 → s.w.fwDone c → bytes ≤ m.mark + (s.w.fwData c).length → Makes i s fun v =>
        v.ends c 0 [(if crc = reqw m 3 then 1 else 0) + crc * 2 ^ 32] ∧ pure v) ∧
      (m.phase = 0 → s.w.coreUp n = false → Makes i s fun v => v.ends c 9 [0x0A] ∧ pure v)) ∧
    (on 0x21 → seq (.contextStart c) 1 0 ∧ result (.contextStart c) 0 ∧ down (.contextStart c) 0) ∧
    (on 0x22 → seq (.contextStop c) 2 0 ∧ result (.contextStop c) 0 ∧ down (.contextStop c) 0) ∧
    (on 0x23 →
      let i := Instr.contextSave c
      seq i 3 0 ∧ down i 0 ∧ (rb m 1 16 = false ∨ s.w.fld (Addr.seqOp n) F.seqOp_RESULT ≠ 0 → result i 0) ∧
      (rb m 1 16 = true → m.phase = 1 → s.w.coreUp n = true → s.w.flag (Addr.seqOp n) F.seqOp_BUSY = false →
        s.w.fld (Addr.seqOp n) F.seqOp_RESULT = 0 → Makes i s fun v =>
          lm v .rd 7 (s.w.fld (Addr.ctxCsa n slot) F.ctxCsa_CSA) 512 ∧ v.inPhase c 2 ∧ v.regs = s.w.regs) ∧
      (m.phase = 2 → s.w.fwDone c → (Makes i s fun v => v.inPhase c 3) ∧
        Gives i s ((read.fwFarAll c (rb m 1 17) .wr (s.w.fwData c) 16 (reqw m 2) 512 0).fwPhase c m 3)) ∧
      (m.phase = 3 → s.w.fwDone c → Makes i s fun v => v.ends c 0 [s.w.ctxWord n slot 0] ∧ pure v) ∧
      (m.phase = 2 ∨ m.phase = 3 → waits i ∧ faulted i)) ∧
    (on 0x20 →
      let i := Instr.contextCreate c
      let taken := ∃ k, k < 4 ∧ k ≠ slot ∧ s.w.slotState n k ≠ slEmpty ∧ s.w.ctxId n k = rf m 1 31 16
      let q := rf m 1 61 48
      let unbound := rb m 1 34 = true ∧ slot < 4 ∧ ¬ (s.w.qType q = 1 ∧ s.w.qBind q = n + slot * 64)
      let bad := (rb m 1 10 = false ∧ s.w.slotState n slot ≠ slEmpty) ∨ taken ∨ unbound
      (m.phase = 0 → bad → Makes i s fun v =>
        v.ends c 3 [s.w.ctxWord n (if slot < 4 then slot else 0) 0] ∧ pure v) ∧
      (m.phase = 2 → waits i ∧ faulted i) ∧
      (m.phase = 0 → ¬ bad →
        (4 ≤ slot → Makes i s fun v => v.ends c 4 [] ∧ pure v) ∧
        (slot < 4 → noBulk = true → Makes i s fun v => v.ends c 3 [s.w.ctxWord n slot 0] ∧ pure v) ∧
        (slot < 4 → noBulk = false → Makes i s fun v =>
          lm v .wr 8 (rf m 2 39 20) 512 ∧ (a v).data = newImage m ∧ v.inPhase c 2 ∧ v.regs = s.w.regs)) ∧
      (m.phase = 2 → s.w.fwDone c → Makes i s fun v =>
        v.rd (Addr.seqOpAddr n) = rf m 2 39 20 ∧ v.inPhase c 3 ∧ s.w.keeps v [Addr.seqOpAddr n]) ∧
      seq i 4 3 ∧ result i 3 ∧ down i 3) ∧
    (on 0x24 →
      let i := Instr.contextRestore c
      (m.phase = 0 → 4 ≤ slot → Makes i s fun v => v.ends c 4 [] ∧ pure v) ∧
      (m.phase = 0 → slot < 4 → noBulk = true → Makes i s fun v => v.ends c 3 [s.w.ctxWord n slot 0] ∧ pure v) ∧
      (m.phase = 0 → slot < 4 → noBulk = false → rf m 1 17 16 = 0 → Makes i s fun v =>
        v.rd (Addr.seqOpAddr n) = reqw m 2 % 2 ^ 20 ∧ v.inPhase c 4 ∧ s.w.keeps v [Addr.seqOpAddr n]) ∧
      (m.phase = 0 → slot < 4 → noBulk = false → rf m 1 17 16 ≠ 0 → (Makes i s fun v => v.inPhase c 2) ∧
        Gives i s (((s.w.fwPhase c m 1).fwFarAll c (rf m 1 17 16 == 2) .rd [] 16 (reqw m 2) 512 0).fwPhase c m 2)) ∧
      (m.phase = 2 ∨ m.phase = 3 → waits i ∧ faulted i) ∧
      (m.phase = 2 → s.w.fwDone c → s.w.coreUp n = false → Makes i s fun v => v.ends c 9 [0x0A] ∧ pure v) ∧
      (m.phase = 2 → s.w.fwDone c → s.w.coreUp n = true → Makes i s fun v =>
        lm v .wr 8 (rf m 3 19 0) 512 ∧ (a v).data = s.w.fwData c ∧ v.inPhase c 3 ∧ v.regs = s.w.regs) ∧
      (m.phase = 3 → s.w.fwDone c → Makes i s fun v =>
        v.rd (Addr.seqOpAddr n) = rf m 3 19 0 ∧ v.inPhase c 4 ∧ s.w.keeps v [Addr.seqOpAddr n]) ∧
      seq i 4 4 ∧ result i 4 ∧ down i 4) ∧
    (on 0x25 → Makes (.contextQuery c) s fun v => pure v ∧ ∃ words, v.ends c 0 words ∧ words.length = 5 ∧
      bits (words.getD 0 0) 11 8 = s.w.slotState n slot ∧ bits (words.getD 0 0) 47 32 = s.w.ctxId n slot ∧
      bits (words.getD 1 0) 19 0 = s.w.cp n slot ∧
      bits (words.getD 1 0) 59 20 = s.w.fld (Addr.ctxFsp n slot) F.ctxFsp_FSP ∧
      bits (words.getD 0 0) 51 48 = s.w.blockCode n slot ∧ bits (words.getD 0 0) 55 52 = s.w.waitKind n slot ∧
      words.getD 2 0 = s.w.rd (Addr.ctxWaitArg n slot) ∧ words.getD 3 0 = s.w.rd (Addr.ctxWaitTarget n slot)) ∧
    (on 0xB0 →
      let i := Instr.deadlinePolicy c
      let st := s.w.slotState n slot
      let inUse := st = slActive ∨ st = slWaiting ∨ st = slSaving
      (inUse → Makes i s fun v => v.ends c 3 [s.w.ctxWord n slot 0] ∧ pure v) ∧
      (¬ inUse → Makes i s fun v =>
        v.ends c 0 [s.w.ctxWord n slot 0] ∧ v.fld (Addr.ctxSched n slot) F.ctxSched_POLICY = rf m 1 16 16 ∧
        v.fld (Addr.ctxWdLimit n slot) F.ctxWdLimit_WD_LIMIT = (if rb m 1 17 = true then rf m 1 63 32 else
          s.w.fld (Addr.ctxWdLimit n slot) F.ctxWdLimit_WD_LIMIT) ∧
        (let f := F.ctxSched_POLICY
         let kept := spInsert s.w.stw.record (Addr.ctxSched n slot) (putBits 0 f.hi f.lo (rf m 1 16 16))
         v.stw.record = if rb m 1 17 = true then spInsert kept (Addr.ctxWdLimit n slot) (rf m 1 63 32) else kept) ∧
        s.w.keeps v [Addr.ctxSched n slot, Addr.ctxWdLimit n slot]))

/-- Commands on queues, banks, synchronisation and events (R487 to R492; Tables FWC-5, FWC-6). -/
def Obligations.QueueBankSyncAndEventCommandsStageCommitAndEnd : Prop :=
  ∀ (s : State) (c : Nat) (m : MbxCmd),
    let on (code : Nat) : Prop := s.w.inProgress c code m
    let pure (v : Chip) : Prop := v = { s.w with accs := v.accs, stw := v.stw }
    let staged (v : Chip) (blk : CfgBlock) (as : List (Nat × Nat)) (p : Nat) : Prop :=
      v.cfgPending blk = true ∧ v.inPhase c p ∧ v.committed = s.w.committed ∧
      (∀ x, x ∈ as → v.rd x.1 = maskReg x.1 x.2 % 2 ^ 64) ∧ s.w.keeps v (cfgStateAddr blk :: as.map fun x => x.1)
    let free (blk : CfgBlock) : Prop := s.w.cfgPending blk = false
    let faulted (i : Instr) : Prop := ∀ f, s.w.fwWaits c = false → s.w.fwFault c = some f → Makes i s fun v =>
      v.ends c 9 [f.1 + f.2 % 2 ^ 32 * 2 ^ 32] ∧ pure v
    let waits (i : Instr) : Prop := s.w.fwWaits c = true → Gives i s s.w
    let read := s.w.dropAccs (.fw c)
    let m1 : MbxCmd := { m with phase := 1 }
    let w1 := s.w.fwPhase c m 1
    let q := rQueue m
    let hold (v : Chip) (b : Bool) : Prop := v.flag (Addr.qCtrl q) F.qCtrl_HOLD = b ∧ s.w.keeps v [Addr.qCtrl q]
    let alone := s.w.que.held = [] ∧ s.w.que.wait = []
    let gs := maskGroups m
    (on 0x30 →
      let i := Instr.queueCreate c
      let cf := reqw m 3
      let t := bits cf 2 0
      let clash := 1 ≤ t ∧ t ≤ 3 ∧ ∃ p, p ∈ s.w.qListed ∧ p ≠ q ∧ s.w.cfg (Addr.qQcfg p) F.qQcfg_TYPE = t ∧
        s.w.qBind p = bits cf 47 32 ∧ s.w.descBad p = false
      let fits := t = 0 ∨ s.w.ringPlaced (bit cf 16) (reqw m 2) (2 ^ bits cf 12 8 * (16 * 2 ^ bits cf 5 4)) = true
      (m.phase = 0 → clash ∨ ¬ fits → Makes i s fun v => v.ends c 3 [] ∧ pure v) ∧
      (m.phase = 0 → ¬ clash → fits →
        (16384 ≤ q ∨ s.w.cfg (Addr.qQcfg q) F.qQcfg_TYPE ≠ 0 → Makes i s fun v => v.ends c 4 [] ∧ pure v) ∧
        (q < 16384 → s.w.cfg (Addr.qQcfg q) F.qQcfg_TYPE = 0 → s.w.bulkWrong c m = true → Makes i s fun v =>
          v.ends c 3 [] ∧ pure v) ∧
        (q < 16384 → s.w.cfg (Addr.qQcfg q) F.qQcfg_TYPE = 0 → s.w.bulkWrong c m = false → ¬ free (.queue q) → Gives i s w1)) ∧
      ((m.phase = 0 ∧ ¬ clash ∧ fits ∧ s.w.bulkWrong c m = false ∧ s.w.cfg (Addr.qQcfg q) F.qQcfg_TYPE = 0) ∨ m.phase = 1 → q < 16384 →
        free (.queue q) → Makes i s fun v =>
          staged v (.queue q) [(Addr.qRingAddr q, reqw m 2), (Addr.qQcfg q, cf), (Addr.qThr q, reqw m 4)] 2) ∧
      (m.phase = 2 → free (.queue q) → Makes i s fun v => v.ends c 0 [q] ∧ pure v) ∧
      (m.phase = 1 ∨ m.phase = 2 → ¬ free (.queue q) → Gives i s s.w)) ∧
    (on 0x31 → q < 16384 →
      let i := Instr.queueDestroy c
      (m.phase = 0 → s.w.queueBusy q = true → Makes i s fun v => v.ends c 3 [] ∧ pure v) ∧
      (m.phase = 0 → s.w.queueBusy q = false → Makes i s fun v => hold v true ∧ v.inPhase c 2) ∧
      (m.phase = 2 → s.w.qQuiet q = false ∨ ¬ free (.queue q) → Gives i s s.w) ∧
      (m.phase = 3 → ¬ free (.queue q) → Gives i s s.w) ∧
      (m.phase = 2 → s.w.qQuiet q = true → free (.queue q) → Makes i s fun v =>
        v.cmd? c = some { m with phase := 3, mark := s.w.qDepth q } ∧
        staged v (.queue q) [(Addr.qQcfg q, putBits (putBits (s.w.cfgRd (Addr.qQcfg q)) 2 0 0) 47 32 0)] 3) ∧
      (m.phase = 3 → free (.queue q) → Gives i s ((queueHoldRelease q s.w).fwEnd c 0 [q + m.mark * 2 ^ 32])) ∧
      (m.phase = 3 → free (.queue q) → alone → Makes i s fun v =>
        hold v false ∧ v.ends c 0 [q + m.mark * 2 ^ 32])) ∧
    (on 0x32 → q < 16384 →
      let i := Instr.queueResize c
      let log := reqw m 3
      let cf := putBits (s.w.cfgRd (Addr.qQcfg q)) 12 8 log
      let live := m.aux.getD 1 0
      let at_ := (m.aux.headD 0 + m.mark) % 2 ^ 32
      let host : Bool := s.w.cfg (Addr.qQcfg q) F.qQcfg_SPACE == 1
      let old := s.w.ringBase host (s.w.cfg (Addr.qRingAddr q) F.qRingAddr_ADDR)
      let new := s.w.ringBase host (reqw m 2)
      let e := s.w.qE q
      let bad := s.w.cfg (Addr.qQcfg q) F.qQcfg_TYPE = 0 ∨ (new < old + s.w.qN q * e ∧ old < new + 2 ^ log * e) ∨
        descWrong (reqw m 2) cf = true ∨ s.w.ringPlaced host (reqw m 2) (2 ^ log * e) = false
      (m.phase = 0 → bad → Makes i s fun v => v.ends c 3 [] ∧ pure v) ∧
      ((m.phase = 0 ∧ ¬ bad) ∨ m.phase = 1 → Makes i s fun v => hold v true ∧ v.inPhase c 2) ∧
      (m.phase = 2 → s.w.qQuiet q = false → Gives i s s.w) ∧
      (m.phase = 2 → s.w.qQuiet q = true →
        (2 ^ log < s.w.qDepth q → Gives i s ((queueHoldRelease q s.w).fwEnd c 4 [])) ∧
        (2 ^ log < s.w.qDepth q → alone → Makes i s fun v => hold v false ∧ v.ends c 4 []) ∧
        (s.w.qDepth q ≤ 2 ^ log → Gives i s
          (s.w.setCmd c { m with phase := 3, aux := [s.w.qCons q, s.w.qDepth q] }))) ∧
      (m.phase = 3 → m.mark < live → (Makes i s fun v => v.inPhase c 4) ∧
        Gives i s ((s.w.fwRing c q at_ .rd []).fwPhase c m 4)) ∧
      (m.phase = 3 → live ≤ m.mark → Gives i s (s.w.fwPhase c m 6)) ∧
      (m.phase = 4 ∨ m.phase = 5 → waits i ∧ faulted i) ∧
      (m.phase = 4 → s.w.fwDone c → (Makes i s fun v => v.inPhase c 5) ∧
        Gives i s ((read.fwFar c host .wr (reqw m 2 + at_ % 2 ^ log * e) e (s.w.fwData c)).fwPhase c m 5)) ∧
      (m.phase = 6 ∨ m.phase = 7 → ¬ free (.queue q) → Gives i s s.w) ∧
      (m.phase = 5 → s.w.fwDone c → Makes i s fun v => pure v ∧
        v.cmd? c = some { m with phase := 3, mark := m.mark + 1 }) ∧
      (m.phase = 6 → free (.queue q) → Makes i s fun v =>
        staged v (.queue q) [(Addr.qRingAddr q, reqw m 2), (Addr.qQcfg q, cf)] 7) ∧
      (m.phase = 7 → free (.queue q) → Gives i s ((queueHoldRelease q s.w).fwEnd c 0 [q + m.mark * 2 ^ 32])) ∧
      (m.phase = 7 → free (.queue q) → alone → Makes i s fun v => hold v false ∧ v.ends c 0 [q + m.mark * 2 ^ 32])) ∧
    (on 0x40 →
      let i := Instr.memConfig c
      let n := rCore m
      let rlc := rf m 1 33 32
      let mode (g : Nat) : Nat := b2n (rb m 1 (16 + g)) + b2n (rb m 1 (24 + g)) * 2
      let fin (v : Chip) : Prop := pure v ∧
        v.ends c 0 [s.w.recordedModes n + s.w.fld (Addr.bgCfgState n) F.bgCfgState_GEN * 2 ^ 16]
      let stage (w : Chip) : Chip := gs.foldl (fun (w : Chip) g =>
        (w.stageReg (.bank n) (Addr.bgMode n g) (mode g)).setRecord (Addr.bgMode n g) (mode g)) w
      let next (u : Chip) : Prop := Gives i s (u.fwPhase c m 3)
      (m.phase = 0 → gs = [] → rlc = 0 → Makes i s fin) ∧
      (m.phase = 0 → gs ≠ [] → free (.bank n) → Gives i s (((stage s.w).commit (.bank n)).fwPhase c m 1)) ∧
      (m.phase = 0 → gs ≠ [] → s.w.coreUp n = true → free (.bank n) → Makes i s fun v =>
        staged v (.bank n) (gs.map fun g => (Addr.bgMode n g, mode g)) 1 ∧
        ∀ g, g ∈ gs → v.recordOf (Addr.bgMode n g) = mode g) ∧
      (m.phase = 0 ∨ m.phase = 1 → gs ≠ [] → ¬ free (.bank n) → Gives i s s.w) ∧
      (m.phase = 3 → s.w.flag (Addr.sfStatus n) F.sfStatus_SWEEP = true ∨
        (2 ≤ rlc ∧ s.w.flag (Addr.rlcStatus n) F.rlcStatus_FLUSHING = true) → Gives i s s.w) ∧
      ((m.phase = 0 ∧ gs = [] ∧ rlc ≠ 0) ∨ (m.phase = 1 ∧ free (.bank n)) →
        (rlc = 0 → next s.w) ∧ (rlc = 2 → next ((rlcDisable n s.w).setRecord (Addr.rlcCtrl n) 0)) ∧
        (rlc = 3 → next (rlcFlush n s.w)) ∧
        (rlc = 1 → next ((s.w.setFlag (Addr.rlcCtrl n) F.rlcCtrl_ENABLE true).setRecord (Addr.rlcCtrl n) 1)) ∧
        (rlc = 1 → Makes i s fun v => v.inPhase c 3 ∧ v.flag (Addr.rlcCtrl n) F.rlcCtrl_ENABLE = true ∧
          s.w.keeps v [Addr.rlcCtrl n])) ∧
      (m.phase = 3 → s.w.flag (Addr.sfStatus n) F.sfStatus_SWEEP = false →
        (rlc < 2 ∨ s.w.flag (Addr.rlcStatus n) F.rlcStatus_FLUSHING = false) → Makes i s fin)) ∧
    (on 0x41 →
      let i := Instr.slotTableSet c
      let n := rCore m
      let wheel (g : Nat) : Nat := bits (reqw m (2 + g / 2)) (32 * (g % 2) + 31) (32 * (g % 2))
      let r (g : Nat) : Nat := s.w.recordOf (Addr.bgWheel n g)
      let fin (v : Chip) : Prop := pure v ∧
        v.ends c 0 [s.w.fld (Addr.bgCfgState n) F.bgCfgState_GEN, r 0 + r 1 * 2 ^ 32, r 2 + r 3 * 2 ^ 32]
      let stage (w : Chip) : Chip := gs.foldl (fun (w : Chip) g =>
        (w.stageReg (.bank n) (Addr.bgWheel n g) (wheel g)).setRecord (Addr.bgWheel n g) (wheel g)) w
      (gs = [] → Makes i s fin) ∧
      (m.phase = 0 → gs ≠ [] → free (.bank n) → Gives i s (((stage s.w).commit (.bank n)).fwPhase c m 1)) ∧
      (m.phase ≤ 1 → gs ≠ [] → ¬ free (.bank n) → Gives i s s.w) ∧
      (m.phase = 0 → gs ≠ [] → s.w.coreUp n = true → free (.bank n) → Makes i s fun v =>
        staged v (.bank n) (gs.map fun g => (Addr.bgWheel n g, wheel g)) 1 ∧
        ∀ g, g ∈ gs → v.recordOf (Addr.bgWheel n g) = wheel g) ∧
      (m.phase = 1 → gs ≠ [] → free (.bank n) → Makes i s fin)) ∧
    (on 0x50 →
      let i := Instr.syncConfig c
      let k := rf m 1 24 16
      let plain := rb m 1 33 = false ∧ rb m 1 34 = false ∧ rb m 1 35 = false
      let ended (u : Chip) : Chip := u.fwEnd c 0 [u.fld (Addr.ccValue k) F.ccValue_VALUE, u.view (Addr.ccStatus k)]
      (rb m 1 0 = true → plain → rb m 1 32 = false → Gives i s (ended s.w)) ∧
      (rb m 1 0 = true → plain → rb m 1 32 = true → Gives i s (ended (counterValueWrite k false (rf m 2 47 0) s.w))) ∧
      (rb m 1 0 = true → rb m 1 32 = false → rb m 1 33 = true → rb m 1 34 = false → rb m 1 35 = false →
        Gives i s (ended (counterValueWrite k true (reqw m 3) s.w))) ∧
      (rb m 1 0 = true →
        let cfg := reqw m 3
        let p := bits cfg 24 16
        let partner := putBits (putBit cfg 2 (!bit cfg 2)) 24 16 k
        let u := if rb m 1 32 = true then counterValueWrite k false (rf m 2 47 0) s.w else s.w
        let u := if rb m 1 33 = true ∧ rb m 1 34 = false then counterValueWrite k true cfg u else u
        let u := if rb m 1 34 = true then
            (counterValueWrite k true cfg (u.setReg (Addr.ccCfg p) (maskReg (Addr.ccCfg p) partner))).testRegs p
          else u
        Gives i s (ended (if rb m 1 35 = true then u.setReg (Addr.ccStatus k) 0 else u))) ∧
      (rb m 1 0 = false → k < 16 → Makes i s fun v =>
        let a := Addr.ctxLc (rf m 1 13 8) (k / 4) (k % 4)
        let mode := reqw m 3 % 2
        v.fld a F.ctxLc_VALUE = (if rb m 1 32 = true then rf m 2 47 0 else s.w.fld a F.ctxLc_VALUE) ∧
        v.fld a F.ctxLc_MODE = (if rb m 1 33 = true then mode else s.w.fld a F.ctxLc_MODE) ∧
        v.fld a F.ctxLc_SAT = (if rb m 1 35 = true then 0 else s.w.fld a F.ctxLc_SAT) ∧
        v.stw.record = (if rb m 1 33 = true then
          spInsert s.w.stw.record a (putBits 0 F.ctxLc_MODE.hi F.ctxLc_MODE.lo mode) else s.w.stw.record) ∧
        v.ends c 0 [v.fld a F.ctxLc_VALUE, v.fld a F.ctxLc_SAT])) ∧
    (on 0x51 → ∀ kids,
      let i := Instr.barrierConfig c kids
      let b := rf m 1 13 8
      (rb m 1 0 = false →
        let u := s.w.maskWrite false b (reqw m 2)
        Gives i s (u.fwEnd c 0 [u.rd (Addr.bloomMask b), u.view (Addr.bloomState b)])) ∧
      (rb m 1 0 = true →
        let u := ((s.w.setKids b kids).maskWrite true b (reqw m 2)).setRecord (Addr.asterMask b) (reqw m 2)
        let u := if rb m 1 16 = true then u.setFlag (Addr.asterState b) F.asterState_ABORTED false else u
        Gives i s (u.fwEnd c 0 [u.rd (Addr.asterMask b), u.view (Addr.asterState b)]))) ∧
    (on 0x60 →
      let i := Instr.eventRoute c
      let k := rf m 1 11 0
      let op := rf m 1 21 20
      let fin (u : Chip) : Chip :=
        u.fwEnd c 0 [u.view (Addr.srcState k) + u.fld Addr.evtCfgState F.evtCfgState_GEN * 2 ^ 32]
      (m.phase = 0 → rb m 1 24 = false → rb m 1 25 = false →
        (op = 0 → Gives i s (fin w1)) ∧
        (op = 1 → Gives i s (fin (evtMaskWrite (k / 64) true (2 ^ (k % 64)) w1))) ∧
        (op = 2 → Gives i s (fin (evtMaskWrite (k / 64) false (2 ^ (k % 64)) w1)))) ∧
      let setC := rb m 1 24
      let setR := rb m 1 25
      let comp : Bool := if setC then rb m 1 19 else s.w.flag (Addr.srcCfg k) F.srcCfg_COMP
      let route := if setR then reqw m 2 else s.w.rd (Addr.srcRoute k)
      let sets := setC = true ∨ setR = true
      let wrong := routeBad (!comp) route = true
      let stage (w : Chip) : Chip :=
        let w := if op = 1 then evtMaskWrite (k / 64) true (2 ^ (k % 64)) w else w
        let w := if setC then w.stageReg .events (Addr.srcCfg k) (rf m 1 18 16 + rf m 1 19 19 * 8) else w
        if setR then w.stageReg .events (Addr.srcRoute k) (reqw m 2) else w
      (m.phase = 0 → sets → wrong → Makes i s fun v => v.ends c 3 [] ∧ pure v) ∧
      (m.phase = 0 → sets → ¬ wrong → ¬ free .events → Gives i s w1) ∧
      (m.phase = 1 ∨ m.phase = 2 → sets → ¬ free .events → Gives i s s.w) ∧
      (m.phase = 0 → sets → ¬ wrong → free .events → Gives i s (((stage w1).commit .events).fwPhase c m1 2)) ∧
      (m.phase = 1 → sets → free .events → Gives i s (((stage s.w).commit .events).fwPhase c m 2)) ∧
      (m.phase = 0 → setC = true → setR = true → op ≠ 1 → ¬ wrong →
        free .events → Makes i s fun v => staged v .events
          [(Addr.srcCfg k, rf m 1 18 16 + rf m 1 19 19 * 8), (Addr.srcRoute k, reqw m 2)] 2) ∧
      (m.phase = 2 → sets → free .events → op ≠ 2 → Gives i s (fin s.w)) ∧
      (m.phase = 2 → sets → free .events → op = 2 →
        Gives i s (fin (evtMaskWrite (k / 64) false (2 ^ (k % 64)) s.w)))) ∧
    (on 0x61 →
      let i := Instr.eventModerate c
      let fin (v : Chip) : Prop := pure v ∧ v.ends c 0 [s.w.fld Addr.evtCfgState F.evtCfgState_GEN]
      let sets := rb m 1 12 = true ∨ rb m 1 24 = true
      let stage (w : Chip) : Chip :=
        let w := if rb m 1 12 then w.stageReg .events (Addr.tgtCfg (rf m 1 8 0)) (reqw m 2) else w
        if rb m 1 24 then w.stageReg .events (Addr.evtHoldoff (rf m 1 21 16)) (rf m 3 23 0) else w
      (¬ sets → Makes i s fin) ∧
      (m.phase = 0 → sets → free .events → Gives i s (((stage s.w).commit .events).fwPhase c m 1)) ∧
      (m.phase = 0 → rb m 1 12 = true → rb m 1 24 = true → rf m 1 8 0 ≤ 128 → free .events → Makes i s fun v =>
        staged v .events [(Addr.tgtCfg (rf m 1 8 0), reqw m 2), (Addr.evtHoldoff (rf m 1 21 16), rf m 3 23 0)] 1) ∧
      (m.phase ≤ 1 → sets → ¬ free .events → Gives i s s.w) ∧
      (m.phase = 1 → sets → free .events → Makes i s fin))

/-- Commands on host translation, the pod and links (R493 to R496; Tables FWC-7, FWC-8). -/
def Obligations.HostMapPodAndLinkCommandsDoTheirPart : Prop :=
  ∀ (s : State) (c : Nat) (m : MbxCmd),
    let on (code : Nat) : Prop := s.w.inProgress c code m
    let pure (v : Chip) : Prop := v = { s.w with accs := v.accs, stw := v.stw }
    let podWord := s.w.rd Addr.podState % 2 ^ 32
    let faulted (i : Instr) : Prop := ∀ f, s.w.fwWaits c = false → s.w.fwFault c = some f → Makes i s fun v =>
      v.ends c 9 [f.1 + f.2 % 2 ^ 32 * 2 ^ 32] ∧ pure v
    let waits (i : Instr) : Prop := s.w.fwWaits c = true → Gives i s s.w
    let read := s.w.dropAccs (.fw c)
    let w1 := s.w.fwPhase c m 1
    (on 0x70 →
      let i := Instr.hostMap c
      let base := reqw m 2
      let n := reqw m 4
      (rf m 1 1 0 = 1 →
        let lm := rb m 1 16
        let bad := s.w.stw.maps ≠ [] ∨ (lm = true ∧ s.w.htAreaOk base n = false) ∨ s.w.bulkWrong c m = true
        let zero (u : Chip) (m : MbxCmd) : Chip :=
          (u.htWrite c lm (base + m.mark * 4096) (List.replicate 4096 0)).setCmd c { m with phase := 2 }
        (m.phase = 0 → bad → Makes i s fun v => v.ends c 3 [] ∧ pure v) ∧
        (m.phase = 0 → ¬ bad → (Makes i s fun v => v.inPhase c 2) ∧ Gives i s (zero w1 m)) ∧
        (m.phase = 2 → waits i ∧ faulted i) ∧
        (m.phase = 2 → s.w.fwDone c → m.mark + 1 < n → (Makes i s fun v => v.inPhase c 2) ∧
          Gives i s (zero read { m with mark := m.mark + 1 })) ∧
        (m.phase = 2 → s.w.fwDone c → n ≤ m.mark + 1 → Makes i s fun v =>
          v.ends c 0 [1] ∧ v.rd Addr.htRoot = (1 + b2n (rb m 1 16) * 2 + base % 2 ^ 52) % 2 ^ 64 ∧
          v.flag Addr.htCtrl F.htCtrl_BYPASS = rb m 1 10 ∧ v.stw.area = some ⟨rb m 1 16, base, n, [(0, 1, 0)]⟩ ∧
          s.w.keeps v [Addr.htRoot, Addr.htCtrl])) ∧
      (rf m 1 1 0 = 0 →
        let ps := (List.range n).map fun i => base / 4096 + i
        let mapped := ∃ x, x ∈ s.w.stw.maps ∧ base / 4096 ≤ x.page ∧ x.page < base / 4096 + n
        (m.phase = 0 → mapped → Makes i s fun v => v.ends c 3 [] ∧ pure v) ∧
        (m.phase = 0 → ¬ mapped → s.w.stw.area = none → Makes i s fun v =>
          (n = 0 → s.w.bulkWrong c m = true → v.ends c 3 []) ∧ (n = 0 → s.w.bulkWrong c m = false → v.ends c 0 [0]) ∧
          (n ≠ 0 → v.ends c 4 []) ∧ pure v) ∧
        (∀ a, m.phase = 0 → ¬ mapped → s.w.stw.area = some a →
          let new := a.missing ps
          let g := a.grow new
          let frame (p : Nat) : Nat := (reqw m 3 / 4096 + (p - base / 4096)) % 2 ^ 40
          let leaf (p : Nat) : List Nat := [g.entry 3 p, 1 + rf m 1 8 8 * 2 + rf m 1 9 9 * 4 + frame p * 4096]
          let link (t : Nat × Nat) : List Nat :=
            [g.entry (t.1 - 1) (pageOfTable t), 1 + (g.base + (g.table? t.1 t.2).getD 0 * 4096)]
          let aux := ps.flatMap leaf ++ (new.filter fun t => t.1 == 3).flatMap link ++
            (new.filter fun t => t.1 == 2).flatMap link
          let maps := ps.map fun (p : Nat) => ({ page := p, frame := frame p, rd := rb m 1 8, wr := rb m 1 9 } : HtMap)
          (a.pages < a.tables.length + new.length → Makes i s fun v => v.ends c 4 [] ∧ pure v) ∧
          (a.tables.length + new.length ≤ a.pages → s.w.bulkWrong c m = true → Makes i s fun v => v.ends c 3 [] ∧ pure v) ∧
          (a.tables.length + new.length ≤ a.pages → s.w.bulkWrong c m = false →
            let u : Chip := { w1 with stw := { w1.stw with area := some g, maps := w1.stw.maps ++ maps } }
            (n = 0 → Gives i s (u.fwEnd c 0 [g.tables.length])) ∧
            (n ≠ 0 → Gives i s ((u.htWrite c g.lm (aux.headD 0) (toLE 8 (aux.getD 1 0))).setCmd c
              { m with phase := 3, aux := aux.drop 2 })))) ∧
        (∀ a, m.phase = 3 → s.w.stw.area = some a → waits i ∧ faulted i) ∧
        (∀ a, m.phase = 3 → s.w.stw.area = some a → s.w.fwDone c →
          (m.aux = [] → Makes i s fun v => v.ends c 0 [a.tables.length] ∧ pure v) ∧
          (∀ x y r, m.aux = x :: y :: r → Makes i s fun v =>
            v.cmd? c = some { m with aux := r }) ∧
          (∀ x y r, m.aux = x :: y :: r →
            Gives i s ((read.htWrite c a.lm x (toLE 8 y)).setCmd c { m with aux := r }))))) ∧
    (on 0x71 →
      let i := Instr.hostUnmap c
      let lo := reqw m 1 / 4096
      let hit (x : HtMap) : Bool := decide (lo ≤ x.page) && decide (x.page < lo + reqw m 2)
      let ps := (s.w.stw.maps.filter hit).map fun x => x.page
      let left := (s.w.stw.maps.filter fun x => !hit x).map fun x => x.page
      (s.w.stw.area = none → Makes i s fun v => v.ends c 0 [0] ∧ pure v) ∧
      (∀ a, s.w.stw.area = some a →
        let gone := (a.emptied left).filter fun t => ps.any fun p => (if t.2.1 = 2 then p / 512 / 512 else p / 512) == t.2.2
        let clear (lvl : Nat) : List Nat :=
          (gone.filter fun t => t.2.1 == lvl).flatMap fun t => [a.entry (lvl - 1) (pageOfTable t.2), 0]
        let aux := (ps.flatMap fun p => [a.entry 3 p, 0]) ++ clear 3 ++ clear 2
        (m.phase = 0 → ps ≠ [] → Gives i s ((s.w.htWrite c a.lm (aux.headD 0) (toLE 8 0)).setCmd c
          { m with phase := 2, aux := aux.drop 2 })) ∧
        (m.phase = 2 → waits i ∧ faulted i) ∧
        (∀ x y r, m.phase = 2 → s.w.fwDone c → m.aux = x :: y :: r →
          Gives i s ((read.htWrite c a.lm x (toLE 8 y)).setCmd c { m with aux := r })) ∧
        (let cleared := (m.phase = 0 ∧ ps = []) ∨ (m.phase = 2 ∧ s.w.fwDone c ∧ m.aux = [])
         (cleared → s.w.flag Addr.htInv F.htInv_BUSY = true → Makes i s fun v => v.inPhase c 3 ∧ pure v) ∧
         (cleared ∨ m.phase = 3 → s.w.flag Addr.htInv F.htInv_BUSY = false →
          (m.mark = 0 → 16 < ps.length → Makes i s fun v =>
            v.fld Addr.htInv F.htInv_MODE = 1 ∧ v.flag Addr.htInv F.htInv_BUSY = true ∧ v.ht.tlb = [] ∧
            (∃ m', v.cmd? c = some m' ∧ m'.phase = 3 ∧ m'.mark = 1) ∧ s.w.keeps v [Addr.htInv]) ∧
          (m.mark < ps.length → ps.length ≤ 16 → Makes i s fun v =>
            v.fld Addr.htInvAddr F.htInvAddr_PAGE = ps.getD m.mark 0 % 2 ^ 27 ∧ v.fld Addr.htInv F.htInv_MODE = 2 ∧
            v.flag Addr.htInv F.htInv_BUSY = true ∧ (∀ e, e ∈ v.ht.tlb → e.page ≠ ps.getD m.mark 0) ∧
            (∃ m', v.cmd? c = some m' ∧ m'.phase = 3 ∧ m'.mark = m.mark + 1) ∧
            s.w.keeps v [Addr.htInvAddr, Addr.htInv]) ∧
          ((ps.length ≤ 16 ∧ ps.length ≤ m.mark) ∨ (16 < ps.length ∧ m.mark ≠ 0) → Makes i s fun v =>
            v.ends c 0 [ps.length] ∧ v.stw.maps = s.w.stw.maps.filter (fun x => !hit x) ∧
            v.stw.area = some { a with tables := a.tables.filter fun t => !gone.contains t } ∧ pure v)))) ∧
      (s.w.stw.area ≠ none → m.phase = 3 → s.w.flag Addr.htInv F.htInv_BUSY = false → ps.length ≤ 16 →
        (m.mark < ps.length → Makes i s fun v =>
          v.fld Addr.htInvAddr F.htInvAddr_PAGE = ps.getD m.mark 0 % 2 ^ 27 ∧ v.fld Addr.htInv F.htInv_MODE = 2 ∧
          v.flag Addr.htInv F.htInv_BUSY = true ∧ (∀ e, e ∈ v.ht.tlb → e.page ≠ ps.getD m.mark 0) ∧
          v.cmd? c = some { m with mark := m.mark + 1 } ∧ s.w.keeps v [Addr.htInvAddr, Addr.htInv]) ∧
        (ps.length ≤ m.mark → Makes i s fun v =>
          v.ends c 0 [ps.length] ∧ v.stw.maps = s.w.stw.maps.filter (fun x => !hit x) ∧ pure v)) ∧
      (s.w.stw.area ≠ none → m.phase = 3 → s.w.flag Addr.htInv F.htInv_BUSY = true → Gives i s (s.w.fwPhase c m 3))) ∧
    (on 0x80 →
      let i := Instr.podStatus c
      let bout := rb m 0 41
      let recs := s.w.memberRecords
      let e := s.w.qE (s.w.bulkOut c)
      let short := bout = true ∧ rf m 1 23 0 < recs.length
      let answered (v : Chip) : Prop := ∃ words, v.ends c 0 words ∧ words.length = 7 ∧
        words.getD 0 0 = podWord ∧ words.getD 1 0 = s.w.rd Addr.rootSerial ∧
        (∀ k, k < 4 → words.getD (2 + k) 0 = s.w.rd (Addr.member k)) ∧
        (∀ p, p < 8 → bits (words.getD 6 0) (4 * p + 3) (4 * p) = s.w.lState p)
      (m.phase = 0 → short → Makes i s fun v => v.ends c 4 [] ∧ pure v) ∧
      (∀ x, m.phase = 0 → ¬ short → s.w.bulkStatus c m 0 (rf m 1 23 0) = some x → Makes i s fun v =>
        v.ends c x [] ∧ pure v) ∧
      (m.phase = 0 → ¬ short → s.w.bulkStatus c m 0 (rf m 1 23 0) = none →
        (bout = false ∨ recs = [] → Makes i s fun v => pure v ∧ answered v) ∧
        (bout = true → recs ≠ [] → Makes i s fun v => v.cmd? c = some { m with phase := 3, data := recs })) ∧
      (bout = true → m.phase = 3 → waits i ∧ faulted i) ∧
      (bout = true → m.phase = 3 → s.w.fwDone c → e < m.data.length → Makes i s fun v =>
        v.cmd? c = some { m with mark := m.mark + e, data := m.data.drop e }) ∧
      (bout = true → m.phase = 3 → s.w.fwDone c → m.data.length ≤ e → Makes i s fun v => ∃ words, v.ends c 0 words ∧
        words.length = 7 ∧ words.getD 0 0 = v.rd Addr.podState % 2 ^ 32)) ∧
    (on 0x81 →
      let i := Instr.podJoin c
      (let u := (s.w.setDisable (portsOf (rf m 1 7 0)) false).fwPhase c m 1
       let joining := rb m 1 8 = true ∧ u.fld Addr.podState F.podState_STATE ≠ 2
       (m.phase = 0 → joining → Gives i s u) ∧
       (m.phase = 0 → ¬ joining → Gives i s (u.fwEnd c 0 [u.rd Addr.podState % 2 ^ 32]))) ∧
      (m.phase = 0 → s.w.switchedOn = true → rb m 1 8 = false → Makes i s fun v =>
        v.ends c 0 [podWord] ∧ ∀ p, p < 8 → bit (rf m 1 7 0) p = true → v.flag (Addr.lnkCtrl p) F.lnkCtrl_DISABLE = false) ∧
      (m.phase = 1 → rb m 1 8 = true → s.w.fld Addr.podState F.podState_STATE ≠ 2 → Gives i s s.w) ∧
      (m.phase = 1 → rb m 1 8 = false ∨ s.w.fld Addr.podState F.podState_STATE = 2 → Makes i s fun v =>
        v.ends c 0 [podWord] ∧ pure v)) ∧
    (on 0x82 →
      let i := Instr.podLeave c
      let parted (u : Chip) : Prop :=
        let alone := u.fld Addr.podState F.podState_STATE = 0
        (¬ alone → u.upPorts ≠ [] → Gives i s u) ∧
        (alone → Gives i s (u.fwEnd c 0 [u.rd Addr.podState % 2 ^ 32])) ∧
        (¬ alone → u.upPorts = [] → Gives i s (u.becomeAlone.fwEnd c 0 [u.becomeAlone.rd Addr.podState % 2 ^ 32]))
      (m.phase = 0 → s.w.parentPort? = none → Gives i s w1) ∧
      (m.phase = 1 → s.w.leaveGone = true →
        parted ((s.w.setDisable (portsOf (if rf m 1 7 0 = 0 then 0xFF else rf m 1 7 0)) true).fwPhase c m 2)) ∧
      (m.phase = 2 → parted s.w) ∧
      (∀ p, m.phase = 0 → s.w.parentPort? = some p → Makes i s fun v =>
        v.inPhase c 1 ∧ v.regs = s.w.regs ∧ ∃ r, v.msgRec? (s.w.nextId + 1) = some r ∧ r.dst = .port p ∧
          r.msg.mgmt = some (.leave ownSerial)) ∧
      (m.phase = 1 → s.w.leaveGone = false → Gives i s s.w) ∧
      (m.phase = 1 → s.w.leaveGone = true → s.w.switchedOn = true → rf m 1 7 0 = 0 →
        s.w.fld Addr.podState F.podState_STATE = 0 → s.w.upPorts = [] → Makes i s fun v =>
          v.ends c 0 [podWord] ∧ ∀ p, p < 8 → v.flag (Addr.lnkCtrl p) F.lnkCtrl_DISABLE = true) ∧
      (m.phase = 2 → s.w.fld Addr.podState F.podState_STATE = 0 → Makes i s fun v => v.ends c 0 [podWord] ∧ pure v)) ∧
    (on 0x83 →
      let i := Instr.linkConfig c
      let p := rf m 1 2 0
      let ended (u : Chip) : Chip := u.fwEnd c 0 [u.rd (Addr.lnkState p) % 2 ^ 32]
      let state := rf m 1 12 11
      let plain := rb m 1 8 = false ∧ rb m 1 10 = false ∧ rb m 1 9 = false
      (plain → state = 0 → Gives i s (ended s.w)) ∧
      (plain → state = 1 → Gives i s (ended (s.w.setDisable [p] true))) ∧
      (plain → state = 2 → Gives i s (ended (s.w.setDisable [p] false))) ∧
      (rb m 1 8 = false ∨ (m.phase = 1 ∧ s.w.cfgPending (.link p) = false) →
        let u := if state = 1 then s.w.setDisable [p] true else if state = 2 then s.w.setDisable [p] false else s.w
        let u := if rb m 1 10 = true then lnkReleaseWrite p u else u
        Gives i s (ended (if rb m 1 9 = true then lnkRetrainWrite p u else u))) ∧
      (rb m 1 8 = true → m.phase ≤ 1 → s.w.cfgPending (.link p) = true → Gives i s s.w) ∧
      (rb m 1 8 = true → m.phase = 0 → s.w.cfgPending (.link p) = false →
        let v := maskReg (Addr.lnkCfg p) (reqw m 2)
        let u := (s.w.stageReg (.link p) (Addr.lnkCfg p) (reqw m 2)).setRecord (Addr.lnkCfg p) v
        Gives i s ((u.commit (.link p)).fwPhase c m 1)) ∧
      (rb m 1 8 = true → m.phase = 0 → s.w.cfgPending (.link p) = false → s.w.switchedOn = true → Makes i s fun v =>
        v.rd (Addr.lnkCfg p) = maskReg (Addr.lnkCfg p) (reqw m 2) % 2 ^ 64 ∧ v.cfgPending (.link p) = true ∧ v.inPhase c 1 ∧
        v.recordOf (Addr.lnkCfg p) = maskReg (Addr.lnkCfg p) (reqw m 2) ∧
        s.w.keeps v [Addr.lnkCfg p, Addr.lnkCfgState p]) ∧
      (rb m 1 8 = true → m.phase = 1 → s.w.cfgPending (.link p) = false → rb m 1 10 = false → rb m 1 9 = false →
        state = 0 → Gives i s (ended s.w)))

/-- Power control and REFCLK (R497, R552, R555 to R560, R575). -/
def Obligations.SpeedVoltageTemperatureAndTimeFollowTheirRules : Prop :=
  ∀ (s : State), s.w.live = true →
    let v0 := Addr.vcoreStatus
    let iris := (List.range 32).map Addr.irisStatus
    (∀ core sepal low, core.length = 16 → sepal.length = 2 → Makes (.speedIndexUpdate core sepal low) s fun v =>
      let c := if s.w.switchedOn = true then core.foldl min 255 else 0
      let p := sepal.foldl min 255
      v.fld Addr.spx F.spx_CORE = c ∧ v.fld Addr.spx F.spx_SEPAL = p ∧
      v.fld Addr.spxFloor F.spxFloor_CORE = min c (s.w.fld Addr.spxFloor F.spxFloor_CORE) ∧
      v.fld Addr.spxFloor F.spxFloor_SEPAL = min p (s.w.fld Addr.spxFloor F.spxFloor_SEPAL) ∧
      (s.w.switchedOn = true → v.pwr.spxMin = some (min c (s.w.pwr.spxMin.getD 255))) ∧
      s.w.keeps v ([Addr.spx, Addr.spxFloor] ++ iris)) ∧
    (s.w.stewardRuns = true → s.w.fld v0 F.vcoreStatus_ADAPT = 1 → s.w.pstate = 0 →
      (s.w.time < s.w.pwr.stepAt + 1000000 → Gives .adaptiveStep s s.w) ∧
      (s.w.pwr.stepAt + 1000000 ≤ s.w.time → Makes .adaptiveStep s fun v =>
        let x := s.w.pwr.spxMin.getD (s.w.fld Addr.spx F.spx_CORE)
        let t := s.w.fld v0 F.vcoreStatus_SPX_TARGET
        let r := s.w.fld v0 F.vcoreStatus_REQ_MV
        let moved := if x < t then r + 5 else if t + 8 < x then r - 5 else r
        v.fld v0 F.vcoreStatus_REQ_MV = max 450 (min moved (s.w.fld v0 F.vcoreStatus_CEILING_MV)) ∧
        v.fld v0 F.vcoreStatus_CEILING_MV = s.w.fld v0 F.vcoreStatus_CEILING_MV ∧ v.pwr.spxMin = none ∧
        v.pwr.stepAt = s.w.time ∧ s.w.keeps v [v0])) ∧
    (∀ temps : List Int, temps.length = 8 → (∀ t, t ∈ temps → -32768 ≤ t ∧ t < 32768) →
      Makes (.thermalSample temps) s fun v =>
        v.tjMax ∈ temps ∧ (∀ t, t ∈ temps → t ≤ v.tjMax) ∧ temps.getD (v.fld Addr.tj F.tj_SENSOR) 0 = v.tjMax ∧
        signed 16 (v.fld Addr.tjPeak F.tjPeak_PEAK) = max v.tjMax (signed 16 (s.w.fld Addr.tjPeak F.tjPeak_PEAK)) ∧
        s.w.keeps v ([Addr.tj, Addr.tjPeak] ++ iris)) ∧
    (s.w.stewardRuns = true →
      let c := s.w.fld v0 F.vcoreStatus_CEILING_MV
      let becomes (x : Nat) : Prop := Makes .thermalCeilingStep s fun v =>
        v.fld v0 F.vcoreStatus_CEILING_MV = x ∧ v.fld v0 F.vcoreStatus_REQ_MV = s.w.fld v0 F.vcoreStatus_REQ_MV ∧
        v.pwr.ceilAt = s.w.time ∧ s.w.keeps v [v0]
      ((s.w.thermLimit : Int) ≤ s.w.tjMax → s.w.time < s.w.pwr.ceilAt + 1000000 → Gives .thermalCeilingStep s s.w) ∧
      (s.w.tjMax ≤ (s.w.thermLimit : Int) - 5 → s.w.time < s.w.pwr.ceilAt + 10000000 → Gives .thermalCeilingStep s s.w) ∧
      ((s.w.thermLimit : Int) ≤ s.w.tjMax → s.w.pwr.ceilAt + 1000000 ≤ s.w.time → becomes (max 450 (c - 10))) ∧
      (s.w.tjMax ≤ (s.w.thermLimit : Int) - 5 → s.w.pwr.ceilAt + 10000000 ≤ s.w.time → becomes (min 900 (c + 10))) ∧
      (s.w.tjMax < (s.w.thermLimit : Int) → (s.w.thermLimit : Int) - 5 < s.w.tjMax → Gives .thermalCeilingStep s s.w)) ∧
    (s.w.stewardRuns = true →
      let w := s.w.commitApply .power 0
      let vc := w.vcoreTarget
      let vs := w.fld v0 F.vcoreStatus_VSEPAL_MV
      let send (u : Chip) (r v old : Nat) : Chip :=
        { u with io := { u.io with pmbQ := u.io.pmbQ ++ [{ rail := r, cmd := 0x21, value := v, old := old }] } }
      let u : Chip := if w.pstate = 0 ∧ vc ≠ w.pwr.sentVcore then
        { send w 0 vc w.pwr.sentVcore with pwr := { w.pwr with sentVcore := vc } } else w
      Gives .regulatorUpdate s (if vs ≠ u.pwr.sentVsepal then
        { send u 1 vs u.pwr.sentVsepal with pwr := { u.pwr with sentVsepal := vs } } else u)) ∧
    (s.w.stewardRuns = true → s.w.cfgPending .power = false →
      let vc := s.w.vcoreTarget
      let vs := s.w.fld v0 F.vcoreStatus_VSEPAL_MV
      (vc = s.w.pwr.sentVcore → vs = s.w.pwr.sentVsepal → Gives .regulatorUpdate s s.w) ∧
      (vc ≠ s.w.pwr.sentVcore → vs = s.w.pwr.sentVsepal → s.w.pstate = 0 → Makes .regulatorUpdate s fun v =>
        v.pwr = { s.w.pwr with sentVcore := vc } ∧ v.regs = s.w.regs ∧
        v.io.pmbQ = s.w.io.pmbQ ++ [{ rail := 0, cmd := 0x21, value := vc, old := s.w.pwr.sentVcore }])) ∧
    (∀ c m, s.w.inProgress c 0x90 m →
      let mv := rf m 1 15 0
      let ms := rf m 1 31 16
      (m.phase = 0 → mv < 1024 → ms < 1024 → Makes (.powerSet c) s fun v =>
        v.cmd? c = some { m with phase := 1, mark := s.w.time } ∧
        v.pwr = (if rb m 1 32 = true then { s.w.pwr with spxMin := none, stepAt := s.w.time } else s.w.pwr) ∧
        v.inPhase c 1 ∧ v.fld v0 F.vcoreStatus_ADAPT = b2n (rb m 1 32) ∧
        v.fld v0 F.vcoreStatus_REQ_MV = (if mv = 0 then s.w.fld v0 F.vcoreStatus_REQ_MV else mv) ∧
        v.fld v0 F.vcoreStatus_VSEPAL_MV = (if ms = 0 then s.w.fld v0 F.vcoreStatus_VSEPAL_MV else ms) ∧
        (rb m 1 32 = true → v.fld v0 F.vcoreStatus_SPX_TARGET = rf m 1 47 40) ∧ s.w.keeps v [v0]) ∧
      let stepped := if rb m 1 32 = true then m.mark < s.w.pwr.stepAt else mv = 0 ∨ s.w.railNear 0 mv = true
      let reached := stepped ∧ (ms = 0 ∨ s.w.railNear 1 ms = true)
      (m.phase = 1 → ¬ reached → Gives (.powerSet c) s s.w) ∧
      (m.phase = 1 → reached →
        Makes (.powerSet c) s fun v => v.regs = s.w.regs ∧ v.ends c 0
          [s.w.railMv 0 % 2 ^ 16 + s.w.railMv 1 % 2 ^ 16 * 2 ^ 16 + s.w.fld Addr.spx F.spx_CORE * 2 ^ 32])) ∧
    (Makes .spxFloorRearm s fun v => v.rd Addr.spxFloor = 0xFFFF ∧ s.w.keeps v [Addr.spxFloor]) ∧
    (Makes .tjPeakRearm s fun v => v.rd Addr.tjPeak = 0x8000 ∧ s.w.keeps v [Addr.tjPeak]) ∧
    (Makes .refclkLoss s fun v =>
      v.flag Addr.tbStatus F.tbStatus_LOCKED = false ∧ v.flag Addr.tbStatus F.tbStatus_HOLDOVER = true ∧
      v.flag Addr.tbStatus F.tbStatus_REF_LOST = true ∧
      (s.w.switchedOn = true → v.flag Addr.podState F.podState_TB_LOCKED = false) ∧
      s.w.keeps v [Addr.tbStatus, Addr.podState]) ∧
    (s.w.flag Addr.tbStatus F.tbStatus_HOLDOVER = true → Makes .holdoverEnd s fun v =>
      v.flag Addr.tbStatus F.tbStatus_HOLDOVER = false ∧ v.flag Addr.tbStatus F.tbStatus_LOCKED = true ∧
      s.w.keeps v [Addr.tbStatus])

/-- Sleep, wake and core power (R87, R112, R132, R498, R499, R561 to R568; Table PWR-3). -/
def Obligations.SleepIsEnteredForcedAndLeft : Prop :=
  ∀ (s : State), s.w.live = true →
    let en (v : Chip) : Nat := v.fld Addr.pwrState F.pwrState_VCORE_EN
    let ok (v : Chip) : Nat := v.fld Addr.pwrState F.pwrState_VCORE_OK
    let count (v : Chip) (a : Nat) : Prop := v.fld a ⟨31, 0⟩ = min (s.w.fld a ⟨31, 0⟩ + 1) (2 ^ 32 - 1)
    let dark (v : Chip) : Prop :=
      v.rd Addr.corePwr = 1 ∧ v.lnk = [] ∧ v.pod = {} ∧ v.goingDown = [] ∧
      (∀ n c, 1 ≤ n → n < 64 → c < 4 → v.slotState n c = 0) ∧ v.fld Addr.spx F.spx_CORE = 0
    let asleep (v : Chip) (forced : Bool) : Prop :=
      v.pstate = 2 ∧ en v = 0 ∧ v.flag Addr.pwrState F.pwrState_FORCED = forced ∧ count v Addr.sleepCount ∧
      v.rd Addr.lastSleepTime = s.w.time % 2 ^ 64
    let forcedBy (i : Instr) (f : Fld) : Prop := Makes i s fun v =>
      v.flag Addr.pwrStatus f = true ∧ asleep v true ∧ (s.w.pstate ≤ 1 → dark v)
    (115 ≤ s.w.tjMax →
      (s.w.pstate ≠ 2 → forcedBy .thermalTrip F.pwrStatus_TRIPPED) ∧
      (s.w.pstate = 2 → Makes .thermalTrip s fun v =>
        v.flag Addr.pwrStatus F.pwrStatus_TRIPPED = true ∧ v.pwr.tripHold = true ∧ s.w.keeps v [Addr.pwrStatus])) ∧
    (s.w.pstate ≤ 1 ∨ (s.w.pstate = 3 ∧ s.w.pwr.stages ≠ 0) → forcedBy .brownout F.pwrStatus_BROWNOUT) ∧
    (s.w.stewardRuns = true → s.w.pstate = 2 → s.w.evt.wakeReq = true → s.w.pwr.awakeVsepal < 1024 →
      (s.w.pwr.tripHold = true → 100 < s.w.tjMax → Makes .wakeAccept s fun v =>
        v.flag Addr.pwrStatus F.pwrStatus_WAKE_REFUSED = true ∧ v.evt.wakeReq = false ∧ s.w.keeps v [Addr.pwrStatus]) ∧
      (s.w.pwr.tripHold = false ∨ s.w.tjMax ≤ 100 → Makes .wakeAccept s fun v =>
        v.pstate = 3 ∧ en v = 1 ∧ v.fld Addr.vcoreStatus F.vcoreStatus_VSEPAL_MV = s.w.pwr.awakeVsepal ∧
        v.pwr.wakeAt = s.w.time ∧ v.pwr.stages = 0 ∧ v.pwr.zeroed = false ∧ v.evt.wakeReq = false ∧
        s.w.keeps v [Addr.pwrState, Addr.vcoreStatus])) ∧
    (s.w.pstate = 3 →
      (Makes .vcoreOk s fun v => ok v = 1 ∧ v.pstate = 3 ∧ v.flag Addr.railOk F.railOk_VCORE = true ∧
        s.w.keeps v [Addr.pwrState, Addr.railOk]) ∧
      (ok s.w = 0 → s.w.pwr.wakeAt + 20000 ≤ s.w.time → Makes .vcoreOkTimeout s fun v =>
        v.pstate = 2 ∧ en v = 0 ∧ v.flag Addr.pwrStatus F.pwrStatus_VCORE_LOST = true ∧
        v.rd Addr.lastSleepTime = s.w.time % 2 ^ 64 ∧
        s.w.keeps v [Addr.pwrState, Addr.pwrStatus, Addr.lastSleepTime]) ∧
      (ok s.w = 1 → s.w.pwr.stages < 9 → Makes .powerGateStage s fun v =>
        v = { s.w with pwr := { s.w.pwr with stages := s.w.pwr.stages + 1 } }) ∧
      (s.w.pwr.stages = 9 → s.w.pwr.zeroed = false → ∃ mem, exec .wakeLmZeroComplete s =
          .next { s with mem := mem, w := { s.w.cleanEcc cores1 with pwr := { s.w.pwr with zeroed := true } } } ∧
        (∀ x, x ∈ (s.w.cleanEcc cores1).lm.ecc ↔ x ∈ s.w.lm.ecc ∧ (x.1 / 0x20000 = 0 ∨ 64 ≤ x.1 / 0x20000)) ∧
        ∀ a, memByte mem a = if 0x100000 ≤ a ∧ a < 0x4000000 then 0 else memByte s.mem a) ∧
      (s.w.stewardRuns = true → s.w.pwr.zeroed = true → Makes .wakeRestoreComplete s fun v =>
        v.pstate = 0 ∧ v.rd Addr.corePwr = 2 ^ 64 - 1 ∧ count v Addr.wakeCount ∧
        v.rd Addr.lastWakeTime = s.w.time % 2 ^ 64 ∧
        v.flag Addr.podCtrl F.podCtrl_MGMT_OPEN = s.w.flag Addr.stwStatus F.stwStatus_READY)) ∧
    (∀ t, s.w.pwr.drainAt = some t → s.w.pstate = 1 → t + 100000 ≤ s.w.time → Makes .sleepDrainTimeout s fun v =>
      v.pwr.drained = true ∧ v.regs = s.w.regs ∧ (∀ n c, 1 ≤ n → n < 64 → c < 4 → v.slot n c = {})) ∧
    (∀ c m, s.w.inProgress c 0x91 m →
      (m.phase = 0 → s.w.pstate = 2 → Makes (.sleepEnter c) s fun v =>
        v.ends c 0 [s.w.rd Addr.lastSleepTime] ∧ v.regs = s.w.regs) ∧
      (m.phase = 0 → s.w.pstate ≤ 1 → Makes (.sleepEnter c) s fun v =>
        v.pstate = 1 ∧ v.inPhase c 1 ∧ s.w.keeps v [Addr.pwrState]) ∧
      (m.phase = 0 → s.w.pstate = 3 → Gives (.sleepEnter c) s s.w) ∧
      (m.phase = 1 → s.w.leaveGone = false → Gives (.sleepEnter c) s s.w) ∧
      (m.phase = 1 → s.w.leaveGone = true → Makes (.sleepEnter c) s fun v =>
        v.goingDown = cores1 ∧ v.pwr.drainAt = some s.w.time ∧ v.pwr.drained = false ∧ v.inPhase c 2) ∧
      (m.phase = 2 → s.w.pwr.drained = true ∨ s.w.coresQuiet cores1 = true → Makes (.sleepEnter c) s fun v => v.inPhase c 3) ∧
      (m.phase = 2 → s.w.pwr.drained = false → s.w.coresQuiet cores1 = false → Gives (.sleepEnter c) s s.w) ∧
      let served := s.w.pwr.drained = true ∨ s.w.allServed cores1 = true
      (m.phase = 3 → s.w.flushedAndSwept (0 :: cores1) cores1 = false ∨ ¬ served → Gives (.sleepEnter c) s s.w) ∧
      (m.phase = 3 → s.w.flushedAndSwept (0 :: cores1) cores1 = true → served → Makes (.sleepEnter c) s fun v =>
        asleep v false ∧ dark v ∧ v.ends c 0 [s.w.time])) ∧
    (∀ c m, s.w.inProgress c 0x92 m →
      let mask := reqw m 1
      (rb m 2 0 = true → ∃ mem v, exec (.corePower c) s = .next { s with mem := mem, w := v } ∧
        v.rd Addr.corePwr = Nat.lor (s.w.rd Addr.corePwr) mask % 2 ^ 64 ∧ v.ends c 0 [v.rd Addr.corePwr] ∧
        ∀ a, memByte mem a = if a < 0x4000000 ∧ bit mask (a / 0x100000) = true ∧ s.w.coreUp (a / 0x100000) = false then 0
          else memByte s.mem a) ∧
      (rb m 2 0 = false →
        let ns := (coresOf mask).filter fun n => s.w.coreUp n
        (∀ n i, m.phase = 0 → n ∈ ns → i < 4 → s.w.slotState n i ≠ slEmpty ∨ s.w.chState n i ≠ 0 →
          Makes (.corePower c) s fun v => v.ends c 3 [] ∧ v.regs = s.w.regs) ∧
        (m.phase = 0 → (∀ n i, n ∈ ns → i < 4 → s.w.slotState n i = slEmpty ∧ s.w.chState n i = 0) →
          Makes (.corePower c) s fun v => v.inPhase c 2 ∧ v.goingDown = s.w.goingDown ++ ns) ∧
        (m.phase = 2 → s.w.flushedAndSwept ns ns = false ∨ s.w.allServed ns = false → Gives (.corePower c) s s.w) ∧
        (m.phase = 2 → s.w.flushedAndSwept ns ns = true → s.w.allServed ns = true → Makes (.corePower c) s fun v =>
          (∀ n, n < 64 → (v.coreUp n = true ↔ s.w.coreUp n = true ∧ bit mask n = false)) ∧
          v.ends c 0 [v.rd Addr.corePwr])))

/-- The PCIe endpoint as a completer (R506 to R515). -/
def Obligations.TheEndpointCompletesAccessesAndSignalsVectors : Prop :=
  ∀ (s : State), s.w.live = true →
    let p := s.w.pcie
    let up := p.linkUp = true ∧ s.w.pins.perstN = true ∧ s.w.portClear false = true
    let tx (v : Chip) (t : HostTx) : Prop := v.pcie.tx = t :: p.tx
    let word (i : Nat) : Nat := spGet (fun k => if k % 4 = 3 then 1 else 0) p.vectors i
    let put (u : Chip) (i x : Nat) : Chip := { u with pcie := { u.pcie with
      vectors := spPut (fun k => if k % 4 = 3 then 1 else 0) u.pcie.vectors i
        (if i % 4 = 0 then x / 4 * 4 else if i % 4 = 3 then x % 2 else x) } }
    (s.w.portClear false = false → ∀ w off len x d en, Gives (.window0Access w off len x) s s.w ∧
      Gives (.lmApertureAccess w off d en) s s.w ∧ Gives (.podApertureAccess w off d) s s.w) ∧
    (up → p.mse = false →
      (∀ w off len x, off + len ≤ 0x10000 → Gives (.window0Access w off len x) s (s.w.transmit (.unsupported 0 off))) ∧
      (∀ w off d en, 1 ≤ d.length → off % 4096 + d.length ≤ 4096 → off < 0x4000000 →
        Gives (.lmApertureAccess w off d en) s (s.w.transmit (.unsupported 4 off)))) ∧
    (up → p.mse = true →
      (∀ off len x, 0x8000 ≤ off → off < 0xA000 → off + len ≤ 0x10000 →
        let fits := (len = 4 ∨ len = 8) ∧ off % len = 0
        let k := (off - 0x8000) / 4
        let i (w : Bool) := Instr.window0Access w off len x
        let reads (v : Nat) : Prop := Gives (i false) s (s.w.transmit (.completion 0 off (toLE len v)))
        let pend := ((List.range 64).map fun i => b2n (spGet (fun _ => false) p.pba i) * 2 ^ i).sum
        (¬ fits → Gives (i true) s (s.w.decHit 3 .pcie true (0x4240000 + off)) ∧
          Gives (i false) s ((s.w.decHit 3 .pcie false (0x4240000 + off)).transmit (.completion 0 off (toLE len 0)))) ∧
        (fits → off < 0x8400 → reads (word k + word (k + 1) * 2 ^ 32) ∧
          (len = 4 → Gives (i true) s ((put s.w k (x % 2 ^ 32)).flushVec (k / 4))) ∧
          (len = 8 → Gives (i true) s
            ((put (put s.w k (x % 2 ^ 32)) (k + 1) (x / 2 ^ 32 % 2 ^ 32)).flushVec (k / 4)))) ∧
        (fits → 0x9000 ≤ off → off < 0x9008 → reads (pend / 2 ^ (8 * (off % 8)))) ∧
        (fits → 0x8400 ≤ off → Gives (i true) s s.w ∧ (off < 0x9000 ∨ 0x9008 ≤ off → reads 0))) ∧
      (∀ off len x, off < 0x8000 ∨ 0xA000 ≤ off → off + len ≤ 0x10000 →
        let r := s.w.devAccess .pcie (0x4240000 + off) len false x
        Gives (.window0Access false off len x) s (r.2.transmit (.completion 0 off (toLE len r.1))) ∧
        Gives (.window0Access true off len x) s (s.w.devAccess .pcie (0x4240000 + off) len true x).2) ∧
      (∀ k x, k < 256 →
        (Makes (.window0Access false (0x8000 + 4 * k) 4 x) s fun v =>
          tx v (.completion 0 (0x8000 + 4 * k) (toLE 4 (word k + word (k + 1) * 2 ^ 32))) ∧ v.regs = s.w.regs) ∧
        (x < 2 ^ 32 → spGet (fun _ => false) p.pba (k / 4) = false →
          Makes (.window0Access true (0x8000 + 4 * k) 4 x) s fun v =>
            spGet (fun k => if k % 4 = 3 then 1 else 0) v.pcie.vectors k =
              (if k % 4 = 0 then x / 4 * 4 else if k % 4 = 3 then x % 2 else x) ∧
            v = { s.w with pcie := { p with vectors := v.pcie.vectors } })) ∧
      (∀ off d, 1 ≤ d.length → off % 4096 + d.length ≤ 4096 → off < 0x4000000 →
        let n := off / 0x100000
        let r : HostReq := { qspi := false, window := 4, off := off, addr := off, write := false, left := 1 }
        (∀ w en, Gives (.lmApertureAccess w off d en) s (s.w.hostLm { r with write := w, left := 0 } d en)) ∧
        (s.w.coreUp n = true → Makes (.lmApertureAccess false off d []) s fun v =>
          spFind? v.io.hostReqs s.w.nextId = some { r with data := List.replicate d.length 0 } ∧ v.regs = s.w.regs ∧
          let a := v.acc (s.w.nextId + 1)
          a.owner = .host s.w.nextId ∧ a.kind = .rd ∧ a.reqr = 7 ∧ a.home = n ∧ a.addr = lmAddr n (off % 0x100000) ∧
          a.len = d.length) ∧
        (s.w.coreUp n = true → Makes (.lmApertureAccess true off d (List.replicate d.length true)) s fun v =>
          spFind? v.io.hostReqs s.w.nextId = some { r with write := true } ∧ v.regs = s.w.regs ∧
          let a := v.acc (s.w.nextId + 1)
          a.owner = .host s.w.nextId ∧ a.kind = .wr ∧ a.reqr = 8 ∧ a.home = n ∧ a.addr = lmAddr n (off % 0x100000) ∧
          a.data = d) ∧
        (s.w.coreUp n = false → ∀ en, Makes (.lmApertureAccess true off d en) s fun v =>
          v.pcie = p ∧ v.flag Addr.hostStatus F.hostStatus_ACCESS_ERR = true ∧
          s.w.keeps v [Addr.hostStatus, Addr.hostErrLog]) ∧
        (s.w.coreUp n = false → Makes (.lmApertureAccess false off d []) s fun v =>
          tx v (.abort 4 off) ∧ v.flag Addr.hostStatus F.hostStatus_ACCESS_ERR = true ∧
          s.w.keeps v [Addr.hostStatus, Addr.hostErrLog])) ∧
      (∀ off d, 1 ≤ d.length → off % 4096 + d.length ≤ 4096 → off < 2 ^ 32 →
        let chip := s.w.fld Addr.apt F.apt_CHIP
        let win := off + 2 ^ 32
        let x := s.w.devAccess .pcie off d.length false (leNat d)
        let r (w : Bool) : HostReq := { qspi := false, window := 4, off := win, addr := off, write := w, left := 1,
                                        data := if w then [] else List.replicate d.length 0 }
        let kind (w : Bool) : AccKind := if w then .wr else .rd
        let ps := if s.w.isSelf chip = true then pieces 64 (d.length / 64 + 2) off d.length 0 else [(off, d.length, 0)]
        (off < 0x4000000 → ∀ w, Gives (.podApertureAccess w off d) s (ps.foldl (fun (u : Chip) (q : Nat × Nat × Nat) =>
          u.hubAccess (.host s.w.nextId) 12 0 chip q.1 (kind w) q.2.1 (slice d q.2.2 q.2.1))
          (s.w.openReq { r w with left := ps.length }))) ∧
        (0x8000000 ≤ off → Gives (.podApertureAccess true off d) s (s.w.decHit 2 .pcie true off)) ∧
        (0x4000000 ≤ off → off < 0x8000000 → s.w.isSelf chip = true →
          Gives (.podApertureAccess true off d) s (s.w.devAccess .pcie off d.length true (leNat d)).2) ∧
        (0x4000000 ≤ off → off < 0x8000000 → s.w.isSelf chip = false → ∀ w,
          (s.w.reachable chip = false → Gives (.podApertureAccess w off d) s (s.w.hostDone { r w with fault := 0x0B })) ∧
          (s.w.reachable chip = true →
            let id := s.w.nextId + 1
            let a : Acc := { owner := .host s.w.nextId, remote := true, kind := kind w, chip := chip, addr := off,
                             len := d.length, data := if w then d else List.replicate d.length 0, parts := 1,
                             born := s.w.time }
            Gives (.podApertureAccess w off d) s ((((s.w.openReq (r w)).setAcc id a).bumpId).send .hub .hub 1
              { op := if w then .write else .read, dstChip := chip, srcUnit := 12, addr := off, len := d.length,
                data := if w then d else [], acc := id, uncached := true }))) ∧
        (0x8000000 ≤ off → Makes (.podApertureAccess false off d) s fun v =>
          tx v (.completion 4 win (toLE d.length 0)) ∧ v.flag Addr.decStatus F.decStatus_RSVD_ACCESS = true) ∧
        (0x4000000 ≤ off → off < 0x8000000 → s.w.isSelf chip = true →
          Gives (.podApertureAccess false off d) s (x.2.transmit (.completion 4 win (toLE d.length x.1)))) ∧
        (0x4000000 ≤ off → off < 0x8000000 → s.w.isSelf chip = false → s.w.reachable chip = false →
          Makes (.podApertureAccess false off d) s fun v =>
            tx v (.abort 4 win) ∧ v.flag Addr.hostStatus F.hostStatus_ACCESS_ERR = true) ∧
        (off < 0x4000000 → s.w.isSelf chip = true → off % 64 + d.length ≤ 64 → s.w.issueFault chip off = 0 → Makes (.podApertureAccess true off d) s fun v =>
          let a := v.acc (s.w.nextId + 1)
          a.owner = .host s.w.nextId ∧ a.remote = true ∧ a.kind = .wr ∧ a.chip = s.w.resolve chip ∧ a.addr = off ∧ a.data = d ∧
          a.parts = 1)) ∧
      (∀ k, k < 64 → Gives (.msiXUnmask k) s ((put s.w (4 * k + 3) 0).flushVec k)) ∧
      (∀ k, k < 64 → p.funcMask = false →
        (spGet (fun _ => false) p.pba k = true → s.w.tgtInt (k + 65) = true → s.w.busMaster = true → p.msixEn = true →
          Makes (.msiXUnmask k) s fun v => tx v (.msix k) ∧ v.vecMasked k = false ∧
            spGet (fun _ => false) v.pcie.pba k = false ∧ v.regs = s.w.regs) ∧
        (spGet (fun _ => false) p.pba k = false → Makes (.msiXUnmask k) s fun v =>
          v.vecMasked k = false ∧ v.pcie = { p with vectors := v.pcie.vectors } ∧ v.regs = s.w.regs))) ∧
    (p.linkUp = true → Gives .pcieD3hotEntry s { s.w with pcie := { p with d3 := true } }) ∧
    (let fresh (v : Chip) : Prop := v.pcie = { tx := p.tx, pba := v.pcie.pba } ∧
       (∀ k, k < 64 → (spGet (fun _ => false) v.pcie.pba k = true ↔
         s.w.tgtInt (k + 65) = true ∧ s.w.cfg (Addr.tgtCfg (k + 65)) F.tgtCfg_IRQ = 0)) ∧
       (∀ k, v.vecMasked k = true) ∧ s.w.keeps v [Addr.hostStatus]
     let low : Chip := { s.w with pins := { s.w.pins with perstN := false } }
     (s.w.pins.perstN = true →
       Gives .perstNAssert s (low.setFlag Addr.hostStatus F.hostStatus_PERST true).endpointReset) ∧
     (p.linkUp = true → Gives .pcieLinkDown s (s.w.setFlag Addr.hostStatus F.hostStatus_LINK_DOWN true).endpointReset) ∧
     (s.w.pins.perstN = true → p.reads = [] → Makes .perstNAssert s fun v =>
       v.pins = { s.w.pins with perstN := false } ∧ v.flag Addr.hostStatus F.hostStatus_PERST = true ∧ fresh v) ∧
     (p.linkUp = true → p.reads = [] → Makes .pcieLinkDown s fun v =>
       v.flag Addr.hostStatus F.hostStatus_LINK_DOWN = true ∧ v.pins = s.w.pins ∧ fresh v)) ∧
    (∀ speed width, p.linkUp = false → 1 ≤ speed → speed ≤ 5 → width ∈ [1, 2, 4, 8] →
      Gives (.pcieLinkUp speed width) s { s.w with
        pins := { s.w.pins with perstN := true }, pcie := { p with linkUp := true, speed := speed, width := width } }) ∧
    (∀ x, p.linkUp = true → s.w.pins.perstN = true →
      let b := x % 2 == 1
      let sets (k : Nat) (q : Pcie) : Prop :=
        Gives (.pcieConfigWrite k x) s ({ s.w with pcie := q } : Chip).flushVecs ∧
        (p.pba = [] → Gives (.pcieConfigWrite k x) s { s.w with pcie := q })
      (x ≤ 2 → sets 8 { p with maxPayload := 128 * 2 ^ x }) ∧ (x ≤ 5 → sets 9 { p with maxRead := 128 * 2 ^ x }) ∧
      sets 0 { p with bme := b } ∧ sets 1 { p with mse := b } ∧ sets 2 { p with funcMask := b } ∧ sets 3 { p with d3 := false } ∧
      sets 4 { p with msixEn := b } ∧ (x < 2 ^ 64 → sets 5 { p with bar0 := some (x / 2 ^ 16 * 2 ^ 16) } ∧
        sets 6 { p with bar2 := some (x / 2 ^ 26 * 2 ^ 26) } ∧ sets 7 { p with bar4 := some (x / 2 ^ 33 * 2 ^ 33) }))

/-- The QSPI target (R516 to R522, Table HIO-3). -/
def Obligations.QspiFramesReadWriteAndReportStatus : Prop :=
  ∀ (s : State), s.w.live = true →
    let out (v : Chip) : List Byte := v.io.qtOut
    let err (v : Chip) : Prop := v.flag Addr.qtStatus F.qtStatus_ERR = true
    (s.w.qtClear = false → ∀ a n late d, Gives (.qspiRead a n late) s s.w ∧ Gives (.qspiWrite a d) s s.w) ∧
    (∀ tag id a r, spFind? s.w.io.hostReqs tag = some r → r.qspi = true → r.write = false → r.left = 1 → r.late = [] →
      let v := s.w.hostPart tag id a
      (a.fault = 0 → out v = patch r.data (a.addr - r.addr) a.data ∧ v.regs = s.w.regs) ∧
      (a.fault ≠ 0 → out v = r.data ∧ err v ∧ s.w.keeps v [Addr.qtStatus, Addr.qtErrLog]) ∧
      spFind? v.io.hostReqs tag = none ∧ spFind? v.accs id = none) ∧
    (s.w.qtClear = true → ∀ a n, a < 2 ^ 32 → 0 < n →
      let h := a / 0x100000
      (∀ late,
        let k := min n (0x4000000 - a)
        let ps := pieces 8 (k / 8 + 2) a k 0
        let left := (ps.filter fun q => s.w.coreUp (q.1 / 0x100000)).length
        let r : HostReq := { qspi := true, window := 0, off := 0, addr := a, write := false, late := late, left := left }
        let x := qtFetch (n - k) (qtLm s.w.bumpId s.w.nextId r ps) (a + k) (n - k)
        let r : HostReq := { r with data := List.replicate k 0xFF ++ x.1 }
        (left = 0 → Gives (.qspiRead a n late) s (x.2.qtDone r)) ∧
        (left ≠ 0 → Gives (.qspiRead a n late) s
          { x.2 with io := { x.2.io with hostReqs := spInsert x.2.io.hostReqs s.w.nextId r } })) ∧
      (a < 0x4000000 → a % 8 + n ≤ 8 → s.w.coreUp h = true → ∀ late, Makes (.qspiRead a n late) s fun v =>
        spFind? v.io.hostReqs s.w.nextId = some { qspi := true, window := 0, off := 0, addr := a, write := false,
                                                  left := 1, late := late, data := List.replicate n 0xFF } ∧
        (let x := v.acc (s.w.nextId + 1)
         x.owner = .host s.w.nextId ∧ x.home = h ∧ x.reqr = 7 ∧ x.kind = .rd ∧ x.addr = lmAddr h (a % 0x100000) ∧ x.len = n) ∧
        out v = out s.w ∧ v.regs = s.w.regs) ∧
      (0x8000000 ≤ a → Makes (.qspiRead a n [0]) s fun v =>
        out v = List.replicate n 0xFF ∧ v.flag Addr.qtStatus F.qtStatus_UNDERRUN = true ∧ err v ∧
        s.w.keeps v [Addr.qtStatus, Addr.qtErrLog]) ∧
      (a < 0x4000000 → a % 8 + n ≤ 8 → s.w.coreUp h = false → Makes (.qspiRead a n []) s fun v =>
        out v = List.replicate n 0xFF ∧ err v ∧ s.w.keeps v [Addr.qtStatus, Addr.qtErrLog]) ∧
      (0x4000000 ≤ a → a < 0x8000000 → a % 4 = 0 → s.w.flag Addr.qtCfg F.qtCfg_WIDE = false →
        Makes (.qspiRead a 4 []) s fun v =>
          let x := s.w.bumpId.devAccess .qspi a 4 false 0
          out v = toLE 4 x.1 ∧ v.regs = x.2.regs) ∧
      (0x8000000 ≤ a → Makes (.qspiRead a n []) s fun v =>
        out v = List.replicate n 0xFF ∧ err v ∧ s.w.keeps v [Addr.qtStatus, Addr.qtErrLog]) ∧
      (∀ d : List Byte, d.length = n →
        (let lm := d.take (0x4000000 - a)
         let b := a + lm.length
         let dev := (d.drop lm.length).take (0x8000000 - b)
         let u := qtStore (dev.length + 1) (qtLmWrites 64 s.w a lm) b dev
         (dev.length + lm.length = n → Gives (.qspiWrite a d) s u) ∧
         (dev.length + lm.length < n → Gives (.qspiWrite a d) s (u.hostErr
           { qspi := true, window := 0, off := 0, addr := b + dev.length, write := true, left := 0 } 2))) ∧
        (0x4000000 ≤ a → a < 0x8000000 → a % 4 = 0 → n = 4 →
          Gives (.qspiWrite a d) s (s.w.devAccess .qspi a 4 true (leNat d)).2) ∧
        (a < 0x4000000 → a % 0x100000 + n ≤ 0x100000 → s.w.coreUp h = true → Makes (.qspiWrite a d) s fun v =>
          spFind? v.io.hostReqs s.w.nextId =
            some { qspi := true, window := 0, off := 0, addr := a, write := true, left := 1 } ∧
          (v.acc (s.w.nextId + 1)).owner = .host s.w.nextId ∧ (v.acc (s.w.nextId + 1)).reqr = 8 ∧
          (v.acc (s.w.nextId + 1)).addr = lmAddr h (a % 0x100000) ∧ (v.acc (s.w.nextId + 1)).data = d ∧ v.regs = s.w.regs) ∧
        (0x8000000 ≤ a → Makes (.qspiWrite a d) s fun v => err v ∧ s.w.keeps v [Addr.qtStatus, Addr.qtErrLog]))) ∧
    (Makes .qspiReadStatus s fun v => v = { s.w with io := v.io } ∧ ∃ b : Byte, out v = [b] ∧
      (bit b.toNat 0 = true ↔ ∃ r, r ∈ s.w.io.hostReqs ∧ r.2.qspi = true ∧ r.2.write = true) ∧
      bit b.toNat 1 = s.w.flag Addr.qtStatus F.qtStatus_UNDERRUN ∧ bit b.toNat 2 = s.w.flag Addr.qtStatus F.qtStatus_ERR ∧
      bit b.toNat 3 = s.w.irqLow ∧ bit b.toNat 4 = s.w.flag Addr.stwStatus F.stwStatus_READY) ∧
    (∀ x, (x = 1 ∨ x = 2 ∨ x = 4 → Makes (.qspiSetLines x) s fun v =>
        v.fld Addr.qtCfg F.qtCfg_LINES = x ∧ s.w.keeps v [Addr.qtCfg]) ∧
      (x ≠ 1 → x ≠ 2 → x ≠ 4 → Makes (.qspiSetLines x) s fun v =>
        v.flag Addr.qtStatus F.qtStatus_CMD_ERR = true ∧ s.w.keeps v [Addr.qtStatus]) ∧
      (x % 256 ≠ 0x0B → x % 256 ≠ 0x02 → x % 256 ≠ 0x05 → x % 256 ≠ 0x31 → Makes (.qspiInvalidCommand x) s fun v =>
        v.flag Addr.qtStatus F.qtStatus_CMD_ERR = true ∧ s.w.keeps v [Addr.qtStatus]))

/-- Audio and board ports (R524 to R541; Tables HIO-5 to HIO-8). -/
def Obligations.AudioAndBoardPortsFollowTheirPins : Prop :=
  ∀ (s : State),
    (∀ p periods samples late, p < 2 → s.w.audRuns p = true →
      let i := Instr.audioFrame p periods samples late
      let x := s.w.aud p
      let controller := s.w.cfg (Addr.audCfg1Tdm p) F.audCfg1Tdm_CONTROLLER
      let fits := controller = 1 ∨ periods = s.w.audSlots p * s.w.audSlotBits p
      let d := (s.w.audChans p).flatMap fun c => s.w.audPlace p (samples.getD c 0)
      let bf := s.w.aud0 p F.audCfg0_BLOCK_FRAMES
      let ids := x.txAccs
      let ok := late = false ∧ ids ≠ [] ∧ ∀ id, id ∈ ids → (s.w.acc id).done = true ∧ (s.w.acc id).fault = 0
      (fits → Gives i s ((s.w.audSend p late).audReceive p d)) ∧
      (fits → s.w.audTx p ≠ [] → Makes i s fun v =>
        let data := ids.flatMap fun id => (s.w.acc id).data
        let sz := s.w.audSize p
        (v.aud p).tx.length = (s.w.audTx p).length ∧ (v.aud p).frame = x.frame + 1 ∧
        (ok → ∀ k, k < (s.w.audTx p).length → (v.aud p).tx.getD k 0 = leNat (slice data (k * sz) sz)) ∧
        (¬ ok → v.flag (Addr.audStatus p) F.audStatus_OVERRUN = true ∧ ∀ y, y ∈ (v.aud p).tx → y = 0)) ∧
      (¬ fits → controller = 0 → Makes i s fun v =>
        v.flag (Addr.audStatus p) F.audStatus_FRAMING = true ∧ v.aud p = x ∧ s.w.keeps v [Addr.audStatus p]) ∧
      (fits → s.w.audTx p = [] → bf ≠ 0 → (x.frame + 1) % bf ≠ 0 → x.lines = [] → x.line ≠ [] →
        x.lineAt + x.line.length = s.w.aud0 p F.audCfg0_BUF_BASE + x.frame % s.w.audFrames p * d.length →
        x.line.length + d.length < 64 → Makes i s fun v =>
          v.aud p = { x with line := x.line ++ d, frame := x.frame + 1 } ∧ v = { s.w with io := v.io }) ∧
      (fits → s.w.audTx p = [] → 512 ≤ s.w.audUnwritten p → bf = 0 → Makes i s fun v =>
        v.fld (Addr.audDropped p) ⟨31, 0⟩ = min (s.w.fld (Addr.audDropped p) ⟨31, 0⟩ + 1) (2 ^ 32 - 1) ∧
        v.flag (Addr.audStatus p) F.audStatus_OVERRUN = true ∧ (v.aud p).frame = x.frame + 1)) ∧
    (∀ periods samples late, s.w.audRuns 2 = true →
      let r := s.w.pdmFrame samples
      Gives (.audioFrame 2 periods samples late) s (r.1.audReceive 2 r.2) ∧
      r.2.length = (s.w.audChans 2).length * s.w.audSize 2 ∧
      (512 ≤ s.w.audUnwritten 2 → Makes (.audioFrame 2 periods samples late) s fun v =>
        v.flag (Addr.audStatus 2) F.audStatus_OVERRUN = true ∧ (v.aud 2).frame = (s.w.aud 2).frame + 1)) ∧
    (∀ p id, p < 3 → s.w.live = true → (s.w.aud p).acc = some id →
      let i := Instr.audioLineWriteComplete p
      let x := s.w.aud p
      let es := x.ends.map fun (e : Nat × Nat) => (e.1 - 1, e.2)
      let u := (s.w.dropAcc id).setAud p
        { x with acc := none, lines := x.lines.drop 1, ends := es.filter fun (e : Nat × Nat) => e.1 != 0 }
      ((s.w.acc id).done = false → Gives i s s.w) ∧
      ((s.w.acc id).done = true → Gives i s
        (((es.filter fun (e : Nat × Nat) => e.1 == 0).foldl (fun (u : Chip) (e : Nat × Nat) => u.audBlockEnd p e.2) u).audPump p))) ∧
    (∀ p id l t, p < 3 → s.w.live = true →
      let x := s.w.aud p
      x.acc = some id → (s.w.acc id).done = true → x.lines = [l] →
      (x.ends = [] → Makes (.audioLineWriteComplete p) s fun v =>
        v.aud p = { x with acc := none, lines := [] } ∧ v.regs = s.w.regs ∧ spFind? v.accs id = none) ∧
      (x.ends = [(1, t)] → s.w.aud0 p F.audCfg0_SIG_EN = 0 → Makes (.audioLineWriteComplete p) s fun v =>
        v.aud p = { x with acc := none, lines := [], ends := [] } ∧ v.rd (Addr.audBlockTime p) = t % 2 ^ 64 ∧
        v.fld (Addr.audBlocks p) F.audBlocks_COUNT = (s.w.fld (Addr.audBlocks p) F.audBlocks_COUNT + 1) % 2 ^ 64 ∧
        spGet (fun _ => false) v.audLevel p = !(spGet (fun _ => false) s.w.audLevel p) ∧
        s.w.keeps v [Addr.audBlockTime p, Addr.audBlocks p])) ∧
    (s.w.stewardRuns = true → s.w.io.pollAt + 1000000 ≤ s.w.time → Makes .pmbusPoll s fun v =>
      (v.io.pmbQ.drop s.w.io.pmbQ.length).map (fun t => (t.rail, t.cmd)) =
        [(0, 0x8B), (0, 0x8C), (0, 0x79), (1, 0x8B), (1, 0x8C), (1, 0x79)] ∧
      v.io.pmbQ.take s.w.io.pmbQ.length = s.w.io.pmbQ ∧ v.io.pollAt = s.w.time ∧ v.regs = s.w.regs) ∧
    (∀ t r, s.w.live = true → s.w.io.pmbQ = t :: r → t.rail < 2 →
      let a := Addr.pmb t.rail
      (∀ x, x < 2 ^ 16 → Makes (.pmbusTransactionEnd (.done x)) s fun v =>
        v.io.pmbQ = r ∧ (t.cmd = 0x8B → v.fld a F.pmb_VOUT = x) ∧ (t.cmd = 0x8C → v.fld a F.pmb_IOUT = x) ∧
        (t.cmd = 0x79 → v.fld a F.pmb_STATUS = x ∧ (v.railAlarm = true ↔
          x ≠ 0 ∨ s.w.fld (Addr.pmb (1 - t.rail)) F.pmb_STATUS ≠ 0)) ∧ s.w.keeps v [a]) ∧
      (3 ≤ t.retries → ∀ how f, (how, f) ∈ [(PmbEnd.nack, F.pmbStatus_NACK), (.pec, F.pmbStatus_PEC),
          (.timeout, F.pmbStatus_TIMEOUT)] →
        let u : Chip := { s.w with io := { s.w.io with pmbQ := r } }
        Gives (.pmbusTransactionEnd how) s (((u.setFlag Addr.pmbStatus f true).bump Addr.pmbErrs).pmbFailed t)) ∧
      (t.retries < 3 → ∀ how, how = PmbEnd.nack ∨ how = .pec ∨ how = .timeout → Makes (.pmbusTransactionEnd how) s fun v =>
        v.io.pmbQ = { t with retries := t.retries + 1 } :: r ∧ v.regs = s.w.regs) ∧
      (3 ≤ t.retries → t.cmd ≠ 0x21 → ∀ how f, (how, f) ∈ [(PmbEnd.nack, F.pmbStatus_NACK), (.pec, F.pmbStatus_PEC),
          (.timeout, F.pmbStatus_TIMEOUT)] → Makes (.pmbusTransactionEnd how) s fun v =>
        v.io.pmbQ = r ∧ v.flag Addr.pmbStatus f = true ∧
        v.fld Addr.pmbErrs ⟨31, 0⟩ = min (s.w.fld Addr.pmbErrs ⟨31, 0⟩ + 1) (2 ^ 32 - 1) ∧
        s.w.keeps v [Addr.pmbStatus, Addr.pmbErrs])) ∧
    (s.w.i2cOn = true →
      (∀ b r, Gives (.i2cTargetWrite (b :: r)) s { s.w with io := { s.w.io with i2cPtr := b.toNat % 64 } }) ∧
      (∀ n, Makes (.i2cTargetRead n) s fun v => v.io.i2cOut.length = n ∧ v.regs = s.w.regs ∧ v.io.i2cPtr = s.w.io.i2cPtr ∧
        (∀ k, k < n → v.io.i2cOut.getD k 0 = s.w.statusFile.getD ((s.w.io.i2cPtr + k) % 64) 0) ∧
        (s.w.io.i2cPtr = 0 → 3 ≤ n → v.io.i2cOut.take 3 = [0x64, 0xB0, BitVec.ofNat 8 s.w.phase]))) ∧
    (∀ pin, s.w.live = true → pin < 16 →
      let f := s.w.cfg (Addr.gpioCfg pin) F.gpioCfg_FILTER
      let others (v : Chip) : Prop := (∀ k, k ≠ pin → bit (v.rd Addr.gpioIn) k = bit (s.w.rd Addr.gpioIn) k) ∧
        s.w.keeps v [Addr.gpioIn]
      (∀ b, s.w.pinDriven pin = true → Gives (.gpioPinChange pin b) s s.w) ∧
      (∀ b, s.w.pinDriven pin = false → Makes (.gpioPinChange pin b) s fun v => bit v.io.gpioLevel pin = b ∧
        (f = 0 → bit (v.rd Addr.gpioIn) pin = b ∧ others v) ∧ (f ≠ 0 → v.regs = s.w.regs)) ∧
      (tget s.w.io.gpioSince pin + f * 1000 ≤ s.w.time → Makes (.gpioFilterExpiry pin) s fun v =>
        bit (v.rd Addr.gpioIn) pin = bit s.w.io.gpioLevel pin ∧ others v)) ∧
    (∀ b l, Gives (.jtagExtest b) s { s.w with
        pins := { s.w.pins with extest := true }, io := { s.w.io with jtagIr := 0, jtagBsr := b } } ∧
      Gives .jtagIdcode s { s.w with io := { s.w.io with jtagIr := 1 } } ∧
      Gives (.jtagSamplePreload l b) s { s.w with io := { s.w.io with jtagIr := 2, jtagOut := l, jtagBsr := b } } ∧
      (2 < b % 256 → Gives (.jtagBypass b) s { s.w with io := { s.w.io with jtagIr := b % 256 } }))
end

