-- ==== Sys2Proof/Laws/Sparse.lean ====
section
/-! SUPPORT. Sparse tables: what a read gives after an insertion, an erasure or a write, and that these keep the canonical
form. -/

namespace Sys2Proof.Machine

variable {α : Type}

theorem spFind?_spInsert (m : List (Nat × α)) (k j : Nat) (v : α) :
    spFind? (spInsert m k v) j = if j = k then some v else spFind? m j := by
  induction m with
  | nil => simp [spInsert, spFind?]
  | cons e r ih =>
    obtain ⟨i, u⟩ := e
    simp only [spInsert]
    split
    · simp [spFind?]
    · split
      · subst_vars
        by_cases h : j = i <;> simp [spFind?, h]
      · by_cases h : j = i
        · subst h
          have : j ≠ k := fun e => by omega
          simp [spFind?, this]
        · simp [spFind?, h, ih]

theorem spFind?_spErase (m : List (Nat × α)) (k j : Nat) :
    spFind? (spErase m k) j = if j = k then none else spFind? m j := by
  induction m with
  | nil => simp [spErase, spFind?]
  | cons e r ih =>
    obtain ⟨i, u⟩ := e
    by_cases h : k = i
    · subst h
      by_cases g : j = k
      · subst g
        simpa [spErase] using ih
      · simp [spErase, spFind?, ih, g]
    · by_cases g : j = i
      · subst g
        have : j ≠ k := fun e => h e.symm
        simp [spErase, spFind?, h, this]
      · simp [spErase, spFind?, h, g, ih]

/-- A read after a write gives the value written at its key, and elsewhere what it gave before. -/
theorem spGet_spPut [DecidableEq α] (d : Nat → α) (m : List (Nat × α)) (k j : Nat) (v : α) :
    spGet d (spPut d m k v) j = if j = k then v else spGet d m j := by
  unfold spGet spPut
  split
  · rw [spFind?_spErase]
    split
    · subst_vars; rfl
    · rfl
  · rw [spFind?_spInsert]
    split <;> rfl

@[simp] theorem spGet_spPut_self [DecidableEq α] (d : Nat → α) (m : List (Nat × α)) (k : Nat) (v : α) :
    spGet d (spPut d m k v) k = v := by simp [spGet_spPut]

theorem spGet_spPut_ne [DecidableEq α] (d : Nat → α) (m : List (Nat × α)) {k j : Nat} (v : α) (h : j ≠ k) :
    spGet d (spPut d m k v) j = spGet d m j := by simp [spGet_spPut, h]

@[simp] theorem spFind?_spInsert_self (m : List (Nat × α)) (k : Nat) (v : α) : spFind? (spInsert m k v) k = some v := by
  simp [spFind?_spInsert]

/-! ## The canonical form -/

/-- Keys strictly rising, as a pairwise relation. -/
theorem spSorted_iff (m : List (Nat × α)) : spSorted m = true ↔ m.Pairwise fun a b => a.1 < b.1 := by
  induction m with
  | nil => simp [spSorted]
  | cons e r ih =>
    obtain ⟨i, u⟩ := e
    cases r with
    | nil => simp [spSorted]
    | cons f q =>
      obtain ⟨j, v⟩ := f
      simp only [spSorted, Bool.and_eq_true, decide_eq_true_eq, ih, List.pairwise_cons]
      constructor
      · rintro ⟨h, g⟩
        refine ⟨fun x hx => ?_, g⟩
        rcases List.mem_cons.1 hx with rfl | hx
        · exact h
        · exact Nat.lt_trans h (g.1 x hx)
      · rintro ⟨h, g⟩
        exact ⟨h _ (List.mem_cons_self ..), g⟩

theorem mem_spErase {m : List (Nat × α)} {k : Nat} {e : Nat × α} (h : e ∈ spErase m k) : e ∈ m ∧ e.1 ≠ k := by
  induction m with
  | nil => simp [spErase] at h
  | cons f r ih =>
    obtain ⟨i, u⟩ := f
    simp only [spErase] at h
    split at h
    · exact ⟨List.mem_cons_of_mem _ (ih h).1, (ih h).2⟩
    · rcases List.mem_cons.1 h with rfl | h
      · exact ⟨List.mem_cons_self .., fun e => by simp_all⟩
      · exact ⟨List.mem_cons_of_mem _ (ih h).1, (ih h).2⟩

theorem mem_spInsert {m : List (Nat × α)} {k : Nat} {v : α} {e : Nat × α} (h : e ∈ spInsert m k v) : e = (k, v) ∨ e ∈ m := by
  induction m with
  | nil => simpa [spInsert] using h
  | cons f r ih =>
    obtain ⟨i, u⟩ := f
    simp only [spInsert] at h
    split at h
    · rcases List.mem_cons.1 h with h | h
      · exact .inl h
      · exact .inr h
    · split at h
      · rcases List.mem_cons.1 h with h | h
        · exact .inl h
        · exact .inr (List.mem_cons_of_mem _ h)
      · rcases List.mem_cons.1 h with rfl | h
        · exact .inr (List.mem_cons_self ..)
        · rcases ih h with h | h
          · exact .inl h
          · exact .inr (List.mem_cons_of_mem _ h)

theorem pairwise_spErase {m : List (Nat × α)} (k : Nat) (h : m.Pairwise fun a b => a.1 < b.1) :
    (spErase m k).Pairwise fun a b => a.1 < b.1 := by
  induction m with
  | nil => simp [spErase]
  | cons f r ih =>
    obtain ⟨i, u⟩ := f
    rw [List.pairwise_cons] at h
    simp only [spErase]
    split
    · exact ih h.2
    · exact List.pairwise_cons.2 ⟨fun x hx => h.1 x (mem_spErase hx).1, ih h.2⟩

theorem pairwise_spInsert {m : List (Nat × α)} (k : Nat) (v : α) (h : m.Pairwise fun a b => a.1 < b.1) :
    (spInsert m k v).Pairwise fun a b => a.1 < b.1 := by
  induction m with
  | nil => simp [spInsert]
  | cons f r ih =>
    obtain ⟨i, u⟩ := f
    have h' := List.pairwise_cons.1 h
    simp only [spInsert]
    split
    · rename_i hk
      refine List.pairwise_cons.2 ⟨fun x hx => ?_, h⟩
      rcases List.mem_cons.1 hx with rfl | hx
      · exact hk
      · exact Nat.lt_trans hk (h'.1 x hx)
    · split
      · rename_i hk
        exact List.pairwise_cons.2 ⟨fun x hx => by have := h'.1 x hx; simp_all, h'.2⟩
      · rename_i hk hne
        refine List.pairwise_cons.2 ⟨fun x hx => ?_, ih h'.2⟩
        rcases mem_spInsert hx with rfl | hx
        · simp only; omega
        · exact h'.1 x hx

/-- A write keeps the canonical form. -/
theorem spCanon_spPut [DecidableEq α] (d : Nat → α) {m : List (Nat × α)} (k : Nat) (v : α) (h : spCanon d m = true) :
    spCanon d (spPut d m k v) = true := by
  simp only [spCanon, Bool.and_eq_true, spSorted_iff, List.all_eq_true, decide_eq_true_eq] at h ⊢
  unfold spPut
  split
  · exact ⟨pairwise_spErase k h.1, fun e he => h.2 e (mem_spErase he).1⟩
  · rename_i hv
    refine ⟨pairwise_spInsert k v h.1, fun e he => ?_⟩
    rcases mem_spInsert he with rfl | he
    · exact hv
    · exact h.2 e he

/-- Leaving out entries keeps the canonical form. -/
theorem spCanon_filter [DecidableEq α] (d : Nat → α) {m : List (Nat × α)} (p : Nat × α → Bool) (h : spCanon d m = true) :
    spCanon d (m.filter p) = true := by
  simp only [spCanon, Bool.and_eq_true, spSorted_iff, List.all_eq_true, decide_eq_true_eq] at h ⊢
  exact ⟨h.1.filter p, fun e he => h.2 e ((List.mem_filter.1 he).1)⟩

end Sys2Proof.Machine
end

