-- ==== Sys2Proof/Laws/State.lean ====
section
/-! SUPPORT. What the named updates of the block leave as it was: one lemma per field and update. -/

namespace Sys2Proof.Machine.Chip

variable (w : Chip)

@[simp] theorem setReg_committed (a v : Nat) : (w.setReg a v).committed = w.committed := rfl
@[simp] theorem setReg_copied (a v : Nat) : (w.setReg a v).copied = w.copied := rfl
@[simp] theorem setReg_time (a v : Nat) : (w.setReg a v).time = w.time := rfl
@[simp] theorem setReg_freeCtr (a v : Nat) : (w.setReg a v).freeCtr = w.freeCtr := rfl
@[simp] theorem setReg_nextId (a v : Nat) : (w.setReg a v).nextId = w.nextId := rfl
@[simp] theorem setReg_pins (a v : Nat) : (w.setReg a v).pins = w.pins := rfl
@[simp] theorem setReg_accs (a v : Nat) : (w.setReg a v).accs = w.accs := rfl
@[simp] theorem setReg_lm (a v : Nat) : (w.setReg a v).lm = w.lm := rfl
@[simp] theorem setReg_net (a v : Nat) : (w.setReg a v).net = w.net := rfl
@[simp] theorem setReg_coh (a v : Nat) : (w.setReg a v).coh = w.coh := rfl
@[simp] theorem setReg_slots (a v : Nat) : (w.setReg a v).slots = w.slots := rfl
@[simp] theorem setReg_sync (a v : Nat) : (w.setReg a v).sync = w.sync := rfl
@[simp] theorem setReg_evt (a v : Nat) : (w.setReg a v).evt = w.evt := rfl
@[simp] theorem setReg_iris (a v : Nat) : (w.setReg a v).iris = w.iris := rfl
@[simp] theorem setReg_pod (a v : Nat) : (w.setReg a v).pod = w.pod := rfl
@[simp] theorem setReg_jrnl (a v : Nat) : (w.setReg a v).jrnl = w.jrnl := rfl
@[simp] theorem setReg_goingDown (a v : Nat) : (w.setReg a v).goingDown = w.goingDown := rfl
@[simp] theorem setReg_mx (a v : Nat) : (w.setReg a v).mx = w.mx := rfl
@[simp] theorem setReg_vx (a v : Nat) : (w.setReg a v).vx = w.vx := rfl
@[simp] theorem setReg_wd (a v : Nat) : (w.setReg a v).wd = w.wd := rfl
@[simp] theorem setReg_pcie (a v : Nat) : (w.setReg a v).pcie = w.pcie := rfl
@[simp] theorem setReg_ht (a v : Nat) : (w.setReg a v).ht = w.ht := rfl
@[simp] theorem setReg_que (a v : Nat) : (w.setReg a v).que = w.que := rfl
@[simp] theorem setReg_dma (a v : Nat) : (w.setReg a v).dma = w.dma := rfl
@[simp] theorem setReg_audLevel (a v : Nat) : (w.setReg a v).audLevel = w.audLevel := rfl
@[simp] theorem setReg_railAlarm (a v : Nat) : (w.setReg a v).railAlarm = w.railAlarm := rfl
@[simp] theorem setReg_lnk (a v : Nat) : (w.setReg a v).lnk = w.lnk := rfl
@[simp] theorem setReg_stw (a v : Nat) : (w.setReg a v).stw = w.stw := rfl
@[simp] theorem setReg_pwr (a v : Nat) : (w.setReg a v).pwr = w.pwr := rfl
@[simp] theorem setReg_io (a v : Nat) : (w.setReg a v).io = w.io := rfl
@[simp] theorem setReg_commitAt (a v : Nat) : (w.setReg a v).commitAt = w.commitAt := rfl

@[simp] theorem setFld_committed (a : Nat) (f : Fld) (v : Nat) : (w.setFld a f v).committed = w.committed := setReg_committed w a _
@[simp] theorem setFld_copied (a : Nat) (f : Fld) (v : Nat) : (w.setFld a f v).copied = w.copied := setReg_copied w a _
@[simp] theorem setFld_time (a : Nat) (f : Fld) (v : Nat) : (w.setFld a f v).time = w.time := setReg_time w a _
@[simp] theorem setFld_freeCtr (a : Nat) (f : Fld) (v : Nat) : (w.setFld a f v).freeCtr = w.freeCtr := setReg_freeCtr w a _
@[simp] theorem setFld_nextId (a : Nat) (f : Fld) (v : Nat) : (w.setFld a f v).nextId = w.nextId := setReg_nextId w a _
@[simp] theorem setFld_pins (a : Nat) (f : Fld) (v : Nat) : (w.setFld a f v).pins = w.pins := setReg_pins w a _
@[simp] theorem setFld_accs (a : Nat) (f : Fld) (v : Nat) : (w.setFld a f v).accs = w.accs := setReg_accs w a _
@[simp] theorem setFld_lm (a : Nat) (f : Fld) (v : Nat) : (w.setFld a f v).lm = w.lm := setReg_lm w a _
@[simp] theorem setFld_net (a : Nat) (f : Fld) (v : Nat) : (w.setFld a f v).net = w.net := setReg_net w a _
@[simp] theorem setFld_coh (a : Nat) (f : Fld) (v : Nat) : (w.setFld a f v).coh = w.coh := setReg_coh w a _
@[simp] theorem setFld_slots (a : Nat) (f : Fld) (v : Nat) : (w.setFld a f v).slots = w.slots := setReg_slots w a _
@[simp] theorem setFld_sync (a : Nat) (f : Fld) (v : Nat) : (w.setFld a f v).sync = w.sync := setReg_sync w a _
@[simp] theorem setFld_evt (a : Nat) (f : Fld) (v : Nat) : (w.setFld a f v).evt = w.evt := setReg_evt w a _
@[simp] theorem setFld_iris (a : Nat) (f : Fld) (v : Nat) : (w.setFld a f v).iris = w.iris := setReg_iris w a _
@[simp] theorem setFld_pod (a : Nat) (f : Fld) (v : Nat) : (w.setFld a f v).pod = w.pod := setReg_pod w a _
@[simp] theorem setFld_jrnl (a : Nat) (f : Fld) (v : Nat) : (w.setFld a f v).jrnl = w.jrnl := setReg_jrnl w a _
@[simp] theorem setFld_goingDown (a : Nat) (f : Fld) (v : Nat) : (w.setFld a f v).goingDown = w.goingDown := setReg_goingDown w a _
@[simp] theorem setFld_mx (a : Nat) (f : Fld) (v : Nat) : (w.setFld a f v).mx = w.mx := setReg_mx w a _
@[simp] theorem setFld_vx (a : Nat) (f : Fld) (v : Nat) : (w.setFld a f v).vx = w.vx := setReg_vx w a _
@[simp] theorem setFld_wd (a : Nat) (f : Fld) (v : Nat) : (w.setFld a f v).wd = w.wd := setReg_wd w a _
@[simp] theorem setFld_pcie (a : Nat) (f : Fld) (v : Nat) : (w.setFld a f v).pcie = w.pcie := setReg_pcie w a _
@[simp] theorem setFld_ht (a : Nat) (f : Fld) (v : Nat) : (w.setFld a f v).ht = w.ht := setReg_ht w a _
@[simp] theorem setFld_que (a : Nat) (f : Fld) (v : Nat) : (w.setFld a f v).que = w.que := setReg_que w a _
@[simp] theorem setFld_dma (a : Nat) (f : Fld) (v : Nat) : (w.setFld a f v).dma = w.dma := setReg_dma w a _
@[simp] theorem setFld_audLevel (a : Nat) (f : Fld) (v : Nat) : (w.setFld a f v).audLevel = w.audLevel := setReg_audLevel w a _
@[simp] theorem setFld_railAlarm (a : Nat) (f : Fld) (v : Nat) : (w.setFld a f v).railAlarm = w.railAlarm := setReg_railAlarm w a _
@[simp] theorem setFld_lnk (a : Nat) (f : Fld) (v : Nat) : (w.setFld a f v).lnk = w.lnk := setReg_lnk w a _
@[simp] theorem setFld_stw (a : Nat) (f : Fld) (v : Nat) : (w.setFld a f v).stw = w.stw := setReg_stw w a _
@[simp] theorem setFld_pwr (a : Nat) (f : Fld) (v : Nat) : (w.setFld a f v).pwr = w.pwr := setReg_pwr w a _
@[simp] theorem setFld_io (a : Nat) (f : Fld) (v : Nat) : (w.setFld a f v).io = w.io := setReg_io w a _
@[simp] theorem setFld_commitAt (a : Nat) (f : Fld) (v : Nat) : (w.setFld a f v).commitAt = w.commitAt := setReg_commitAt w a _

@[simp] theorem setFlag_committed (a : Nat) (f : Fld) (v : Bool) : (w.setFlag a f v).committed = w.committed := setFld_committed w a f _
@[simp] theorem setFlag_copied (a : Nat) (f : Fld) (v : Bool) : (w.setFlag a f v).copied = w.copied := setFld_copied w a f _
@[simp] theorem setFlag_time (a : Nat) (f : Fld) (v : Bool) : (w.setFlag a f v).time = w.time := setFld_time w a f _
@[simp] theorem setFlag_freeCtr (a : Nat) (f : Fld) (v : Bool) : (w.setFlag a f v).freeCtr = w.freeCtr := setFld_freeCtr w a f _
@[simp] theorem setFlag_nextId (a : Nat) (f : Fld) (v : Bool) : (w.setFlag a f v).nextId = w.nextId := setFld_nextId w a f _
@[simp] theorem setFlag_pins (a : Nat) (f : Fld) (v : Bool) : (w.setFlag a f v).pins = w.pins := setFld_pins w a f _
@[simp] theorem setFlag_accs (a : Nat) (f : Fld) (v : Bool) : (w.setFlag a f v).accs = w.accs := setFld_accs w a f _
@[simp] theorem setFlag_lm (a : Nat) (f : Fld) (v : Bool) : (w.setFlag a f v).lm = w.lm := setFld_lm w a f _
@[simp] theorem setFlag_net (a : Nat) (f : Fld) (v : Bool) : (w.setFlag a f v).net = w.net := setFld_net w a f _
@[simp] theorem setFlag_coh (a : Nat) (f : Fld) (v : Bool) : (w.setFlag a f v).coh = w.coh := setFld_coh w a f _
@[simp] theorem setFlag_slots (a : Nat) (f : Fld) (v : Bool) : (w.setFlag a f v).slots = w.slots := setFld_slots w a f _
@[simp] theorem setFlag_sync (a : Nat) (f : Fld) (v : Bool) : (w.setFlag a f v).sync = w.sync := setFld_sync w a f _
@[simp] theorem setFlag_evt (a : Nat) (f : Fld) (v : Bool) : (w.setFlag a f v).evt = w.evt := setFld_evt w a f _
@[simp] theorem setFlag_iris (a : Nat) (f : Fld) (v : Bool) : (w.setFlag a f v).iris = w.iris := setFld_iris w a f _
@[simp] theorem setFlag_pod (a : Nat) (f : Fld) (v : Bool) : (w.setFlag a f v).pod = w.pod := setFld_pod w a f _
@[simp] theorem setFlag_jrnl (a : Nat) (f : Fld) (v : Bool) : (w.setFlag a f v).jrnl = w.jrnl := setFld_jrnl w a f _
@[simp] theorem setFlag_goingDown (a : Nat) (f : Fld) (v : Bool) : (w.setFlag a f v).goingDown = w.goingDown := setFld_goingDown w a f _
@[simp] theorem setFlag_mx (a : Nat) (f : Fld) (v : Bool) : (w.setFlag a f v).mx = w.mx := setFld_mx w a f _
@[simp] theorem setFlag_vx (a : Nat) (f : Fld) (v : Bool) : (w.setFlag a f v).vx = w.vx := setFld_vx w a f _
@[simp] theorem setFlag_wd (a : Nat) (f : Fld) (v : Bool) : (w.setFlag a f v).wd = w.wd := setFld_wd w a f _
@[simp] theorem setFlag_pcie (a : Nat) (f : Fld) (v : Bool) : (w.setFlag a f v).pcie = w.pcie := setFld_pcie w a f _
@[simp] theorem setFlag_ht (a : Nat) (f : Fld) (v : Bool) : (w.setFlag a f v).ht = w.ht := setFld_ht w a f _
@[simp] theorem setFlag_que (a : Nat) (f : Fld) (v : Bool) : (w.setFlag a f v).que = w.que := setFld_que w a f _
@[simp] theorem setFlag_dma (a : Nat) (f : Fld) (v : Bool) : (w.setFlag a f v).dma = w.dma := setFld_dma w a f _
@[simp] theorem setFlag_audLevel (a : Nat) (f : Fld) (v : Bool) : (w.setFlag a f v).audLevel = w.audLevel := setFld_audLevel w a f _
@[simp] theorem setFlag_railAlarm (a : Nat) (f : Fld) (v : Bool) : (w.setFlag a f v).railAlarm = w.railAlarm := setFld_railAlarm w a f _
@[simp] theorem setFlag_lnk (a : Nat) (f : Fld) (v : Bool) : (w.setFlag a f v).lnk = w.lnk := setFld_lnk w a f _
@[simp] theorem setFlag_stw (a : Nat) (f : Fld) (v : Bool) : (w.setFlag a f v).stw = w.stw := setFld_stw w a f _
@[simp] theorem setFlag_pwr (a : Nat) (f : Fld) (v : Bool) : (w.setFlag a f v).pwr = w.pwr := setFld_pwr w a f _
@[simp] theorem setFlag_io (a : Nat) (f : Fld) (v : Bool) : (w.setFlag a f v).io = w.io := setFld_io w a f _
@[simp] theorem setFlag_commitAt (a : Nat) (f : Fld) (v : Bool) : (w.setFlag a f v).commitAt = w.commitAt := setFld_commitAt w a f _

@[simp] theorem bump_committed (a : Nat) : (w.bump a).committed = w.committed := setFld_committed w a _ _
@[simp] theorem bump_copied (a : Nat) : (w.bump a).copied = w.copied := setFld_copied w a _ _
@[simp] theorem bump_time (a : Nat) : (w.bump a).time = w.time := setFld_time w a _ _
@[simp] theorem bump_freeCtr (a : Nat) : (w.bump a).freeCtr = w.freeCtr := setFld_freeCtr w a _ _
@[simp] theorem bump_nextId (a : Nat) : (w.bump a).nextId = w.nextId := setFld_nextId w a _ _
@[simp] theorem bump_pins (a : Nat) : (w.bump a).pins = w.pins := setFld_pins w a _ _
@[simp] theorem bump_accs (a : Nat) : (w.bump a).accs = w.accs := setFld_accs w a _ _
@[simp] theorem bump_lm (a : Nat) : (w.bump a).lm = w.lm := setFld_lm w a _ _
@[simp] theorem bump_net (a : Nat) : (w.bump a).net = w.net := setFld_net w a _ _
@[simp] theorem bump_coh (a : Nat) : (w.bump a).coh = w.coh := setFld_coh w a _ _
@[simp] theorem bump_slots (a : Nat) : (w.bump a).slots = w.slots := setFld_slots w a _ _
@[simp] theorem bump_sync (a : Nat) : (w.bump a).sync = w.sync := setFld_sync w a _ _
@[simp] theorem bump_evt (a : Nat) : (w.bump a).evt = w.evt := setFld_evt w a _ _
@[simp] theorem bump_iris (a : Nat) : (w.bump a).iris = w.iris := setFld_iris w a _ _
@[simp] theorem bump_pod (a : Nat) : (w.bump a).pod = w.pod := setFld_pod w a _ _
@[simp] theorem bump_jrnl (a : Nat) : (w.bump a).jrnl = w.jrnl := setFld_jrnl w a _ _
@[simp] theorem bump_goingDown (a : Nat) : (w.bump a).goingDown = w.goingDown := setFld_goingDown w a _ _
@[simp] theorem bump_mx (a : Nat) : (w.bump a).mx = w.mx := setFld_mx w a _ _
@[simp] theorem bump_vx (a : Nat) : (w.bump a).vx = w.vx := setFld_vx w a _ _
@[simp] theorem bump_wd (a : Nat) : (w.bump a).wd = w.wd := setFld_wd w a _ _
@[simp] theorem bump_pcie (a : Nat) : (w.bump a).pcie = w.pcie := setFld_pcie w a _ _
@[simp] theorem bump_ht (a : Nat) : (w.bump a).ht = w.ht := setFld_ht w a _ _
@[simp] theorem bump_que (a : Nat) : (w.bump a).que = w.que := setFld_que w a _ _
@[simp] theorem bump_dma (a : Nat) : (w.bump a).dma = w.dma := setFld_dma w a _ _
@[simp] theorem bump_audLevel (a : Nat) : (w.bump a).audLevel = w.audLevel := setFld_audLevel w a _ _
@[simp] theorem bump_railAlarm (a : Nat) : (w.bump a).railAlarm = w.railAlarm := setFld_railAlarm w a _ _
@[simp] theorem bump_lnk (a : Nat) : (w.bump a).lnk = w.lnk := setFld_lnk w a _ _
@[simp] theorem bump_stw (a : Nat) : (w.bump a).stw = w.stw := setFld_stw w a _ _
@[simp] theorem bump_pwr (a : Nat) : (w.bump a).pwr = w.pwr := setFld_pwr w a _ _
@[simp] theorem bump_io (a : Nat) : (w.bump a).io = w.io := setFld_io w a _ _
@[simp] theorem bump_commitAt (a : Nat) : (w.bump a).commitAt = w.commitAt := setFld_commitAt w a _ _

@[simp] theorem addSat_committed (a : Nat) (f : Fld) (n : Nat) : (w.addSat a f n).committed = w.committed := setFld_committed w a f _
@[simp] theorem addSat_time (a : Nat) (f : Fld) (n : Nat) : (w.addSat a f n).time = w.time := setFld_time w a f _
@[simp] theorem addSat_pins (a : Nat) (f : Fld) (n : Nat) : (w.addSat a f n).pins = w.pins := setFld_pins w a f _
@[simp] theorem addSat_accs (a : Nat) (f : Fld) (n : Nat) : (w.addSat a f n).accs = w.accs := setFld_accs w a f _
@[simp] theorem addSat_net (a : Nat) (f : Fld) (n : Nat) : (w.addSat a f n).net = w.net := setFld_net w a f _
@[simp] theorem addSat_slots (a : Nat) (f : Fld) (n : Nat) : (w.addSat a f n).slots = w.slots := setFld_slots w a f _
@[simp] theorem addSat_mx (a : Nat) (f : Fld) (n : Nat) : (w.addSat a f n).mx = w.mx := setFld_mx w a f _
@[simp] theorem addSat_stw (a : Nat) (f : Fld) (n : Nat) : (w.addSat a f n).stw = w.stw := setFld_stw w a f _
@[simp] theorem addSat_que (a : Nat) (f : Fld) (n : Nat) : (w.addSat a f n).que = w.que := setFld_que w a f _
@[simp] theorem addSat_evt (a : Nat) (f : Fld) (n : Nat) : (w.addSat a f n).evt = w.evt := setFld_evt w a f _
@[simp] theorem addSat_lm (a : Nat) (f : Fld) (n : Nat) : (w.addSat a f n).lm = w.lm := setFld_lm w a f _

@[simp] theorem addWrap_committed (a : Nat) (f : Fld) (n : Nat) : (w.addWrap a f n).committed = w.committed := setFld_committed w a f _
@[simp] theorem addWrap_time (a : Nat) (f : Fld) (n : Nat) : (w.addWrap a f n).time = w.time := setFld_time w a f _
@[simp] theorem addWrap_pins (a : Nat) (f : Fld) (n : Nat) : (w.addWrap a f n).pins = w.pins := setFld_pins w a f _
@[simp] theorem addWrap_accs (a : Nat) (f : Fld) (n : Nat) : (w.addWrap a f n).accs = w.accs := setFld_accs w a f _
@[simp] theorem addWrap_net (a : Nat) (f : Fld) (n : Nat) : (w.addWrap a f n).net = w.net := setFld_net w a f _
@[simp] theorem addWrap_slots (a : Nat) (f : Fld) (n : Nat) : (w.addWrap a f n).slots = w.slots := setFld_slots w a f _
@[simp] theorem addWrap_mx (a : Nat) (f : Fld) (n : Nat) : (w.addWrap a f n).mx = w.mx := setFld_mx w a f _
@[simp] theorem addWrap_stw (a : Nat) (f : Fld) (n : Nat) : (w.addWrap a f n).stw = w.stw := setFld_stw w a f _
@[simp] theorem addWrap_que (a : Nat) (f : Fld) (n : Nat) : (w.addWrap a f n).que = w.que := setFld_que w a f _
@[simp] theorem addWrap_evt (a : Nat) (f : Fld) (n : Nat) : (w.addWrap a f n).evt = w.evt := setFld_evt w a f _
@[simp] theorem addWrap_lm (a : Nat) (f : Fld) (n : Nat) : (w.addWrap a f n).lm = w.lm := setFld_lm w a f _

@[simp] theorem setCommitted_regs (a v : Nat) : (w.setCommitted a v).regs = w.regs := rfl
@[simp] theorem setCommitted_time (a v : Nat) : (w.setCommitted a v).time = w.time := rfl
@[simp] theorem setCommitted_pins (a v : Nat) : (w.setCommitted a v).pins = w.pins := rfl
@[simp] theorem setCommitted_accs (a v : Nat) : (w.setCommitted a v).accs = w.accs := rfl
@[simp] theorem setCommitted_net (a v : Nat) : (w.setCommitted a v).net = w.net := rfl
@[simp] theorem setCommitted_slots (a v : Nat) : (w.setCommitted a v).slots = w.slots := rfl
@[simp] theorem setCommitted_mx (a v : Nat) : (w.setCommitted a v).mx = w.mx := rfl
@[simp] theorem setCommitted_stw (a v : Nat) : (w.setCommitted a v).stw = w.stw := rfl
@[simp] theorem setCommitted_que (a v : Nat) : (w.setCommitted a v).que = w.que := rfl
@[simp] theorem setCommitted_evt (a v : Nat) : (w.setCommitted a v).evt = w.evt := rfl
@[simp] theorem setCommitted_lm (a v : Nat) : (w.setCommitted a v).lm = w.lm := rfl

@[simp] theorem bumpId_regs : (w.bumpId).regs = w.regs := rfl
@[simp] theorem bumpId_committed : (w.bumpId).committed = w.committed := rfl
@[simp] theorem bumpId_time : (w.bumpId).time = w.time := rfl
@[simp] theorem bumpId_pins : (w.bumpId).pins = w.pins := rfl
@[simp] theorem bumpId_accs : (w.bumpId).accs = w.accs := rfl
@[simp] theorem bumpId_net : (w.bumpId).net = w.net := rfl
@[simp] theorem bumpId_slots : (w.bumpId).slots = w.slots := rfl
@[simp] theorem bumpId_mx : (w.bumpId).mx = w.mx := rfl
@[simp] theorem bumpId_stw : (w.bumpId).stw = w.stw := rfl
@[simp] theorem bumpId_que : (w.bumpId).que = w.que := rfl
@[simp] theorem bumpId_evt : (w.bumpId).evt = w.evt := rfl
@[simp] theorem bumpId_lm : (w.bumpId).lm = w.lm := rfl

@[simp] theorem drew_regs : (w.drew).regs = w.regs := rfl
@[simp] theorem drew_committed : (w.drew).committed = w.committed := rfl
@[simp] theorem drew_time : (w.drew).time = w.time := rfl
@[simp] theorem drew_pins : (w.drew).pins = w.pins := rfl
@[simp] theorem drew_accs : (w.drew).accs = w.accs := rfl
@[simp] theorem drew_net : (w.drew).net = w.net := rfl
@[simp] theorem drew_slots : (w.drew).slots = w.slots := rfl
@[simp] theorem drew_mx : (w.drew).mx = w.mx := rfl
@[simp] theorem drew_stw : (w.drew).stw = w.stw := rfl
@[simp] theorem drew_que : (w.drew).que = w.que := rfl
@[simp] theorem drew_evt : (w.drew).evt = w.evt := rfl
@[simp] theorem drew_lm : (w.drew).lm = w.lm := rfl

@[simp] theorem setAcc_regs (k : Nat) (x : Acc) : (w.setAcc k x).regs = w.regs := rfl
@[simp] theorem setAcc_committed (k : Nat) (x : Acc) : (w.setAcc k x).committed = w.committed := rfl
@[simp] theorem setAcc_time (k : Nat) (x : Acc) : (w.setAcc k x).time = w.time := rfl
@[simp] theorem setAcc_pins (k : Nat) (x : Acc) : (w.setAcc k x).pins = w.pins := rfl
@[simp] theorem setAcc_net (k : Nat) (x : Acc) : (w.setAcc k x).net = w.net := rfl
@[simp] theorem setAcc_slots (k : Nat) (x : Acc) : (w.setAcc k x).slots = w.slots := rfl
@[simp] theorem setAcc_mx (k : Nat) (x : Acc) : (w.setAcc k x).mx = w.mx := rfl
@[simp] theorem setAcc_stw (k : Nat) (x : Acc) : (w.setAcc k x).stw = w.stw := rfl
@[simp] theorem setAcc_que (k : Nat) (x : Acc) : (w.setAcc k x).que = w.que := rfl
@[simp] theorem setAcc_evt (k : Nat) (x : Acc) : (w.setAcc k x).evt = w.evt := rfl
@[simp] theorem setAcc_lm (k : Nat) (x : Acc) : (w.setAcc k x).lm = w.lm := rfl

@[simp] theorem dropAcc_regs (k : Nat) : (w.dropAcc k).regs = w.regs := rfl
@[simp] theorem dropAcc_committed (k : Nat) : (w.dropAcc k).committed = w.committed := rfl
@[simp] theorem dropAcc_time (k : Nat) : (w.dropAcc k).time = w.time := rfl
@[simp] theorem dropAcc_pins (k : Nat) : (w.dropAcc k).pins = w.pins := rfl
@[simp] theorem dropAcc_net (k : Nat) : (w.dropAcc k).net = w.net := rfl
@[simp] theorem dropAcc_slots (k : Nat) : (w.dropAcc k).slots = w.slots := rfl
@[simp] theorem dropAcc_mx (k : Nat) : (w.dropAcc k).mx = w.mx := rfl
@[simp] theorem dropAcc_stw (k : Nat) : (w.dropAcc k).stw = w.stw := rfl
@[simp] theorem dropAcc_que (k : Nat) : (w.dropAcc k).que = w.que := rfl
@[simp] theorem dropAcc_evt (k : Nat) : (w.dropAcc k).evt = w.evt := rfl
@[simp] theorem dropAcc_lm (k : Nat) : (w.dropAcc k).lm = w.lm := rfl

@[simp] theorem setMsg_regs (k : Nat) (x : MsgRec) : (w.setMsg k x).regs = w.regs := rfl
@[simp] theorem setMsg_committed (k : Nat) (x : MsgRec) : (w.setMsg k x).committed = w.committed := rfl
@[simp] theorem setMsg_time (k : Nat) (x : MsgRec) : (w.setMsg k x).time = w.time := rfl
@[simp] theorem setMsg_pins (k : Nat) (x : MsgRec) : (w.setMsg k x).pins = w.pins := rfl
@[simp] theorem setMsg_accs (k : Nat) (x : MsgRec) : (w.setMsg k x).accs = w.accs := rfl
@[simp] theorem setMsg_slots (k : Nat) (x : MsgRec) : (w.setMsg k x).slots = w.slots := rfl
@[simp] theorem setMsg_mx (k : Nat) (x : MsgRec) : (w.setMsg k x).mx = w.mx := rfl
@[simp] theorem setMsg_stw (k : Nat) (x : MsgRec) : (w.setMsg k x).stw = w.stw := rfl
@[simp] theorem setMsg_que (k : Nat) (x : MsgRec) : (w.setMsg k x).que = w.que := rfl
@[simp] theorem setMsg_evt (k : Nat) (x : MsgRec) : (w.setMsg k x).evt = w.evt := rfl
@[simp] theorem setMsg_lm (k : Nat) (x : MsgRec) : (w.setMsg k x).lm = w.lm := rfl

@[simp] theorem dropMsg_regs (k : Nat) : (w.dropMsg k).regs = w.regs := rfl
@[simp] theorem dropMsg_committed (k : Nat) : (w.dropMsg k).committed = w.committed := rfl
@[simp] theorem dropMsg_time (k : Nat) : (w.dropMsg k).time = w.time := rfl
@[simp] theorem dropMsg_pins (k : Nat) : (w.dropMsg k).pins = w.pins := rfl
@[simp] theorem dropMsg_accs (k : Nat) : (w.dropMsg k).accs = w.accs := rfl
@[simp] theorem dropMsg_slots (k : Nat) : (w.dropMsg k).slots = w.slots := rfl
@[simp] theorem dropMsg_mx (k : Nat) : (w.dropMsg k).mx = w.mx := rfl
@[simp] theorem dropMsg_stw (k : Nat) : (w.dropMsg k).stw = w.stw := rfl
@[simp] theorem dropMsg_que (k : Nat) : (w.dropMsg k).que = w.que := rfl
@[simp] theorem dropMsg_evt (k : Nat) : (w.dropMsg k).evt = w.evt := rfl
@[simp] theorem dropMsg_lm (k : Nat) : (w.dropMsg k).lm = w.lm := rfl

@[simp] theorem setSlot_regs (n c : Nat) (x : Slot) : (w.setSlot n c x).regs = w.regs := rfl
@[simp] theorem setSlot_committed (n c : Nat) (x : Slot) : (w.setSlot n c x).committed = w.committed := rfl
@[simp] theorem setSlot_time (n c : Nat) (x : Slot) : (w.setSlot n c x).time = w.time := rfl
@[simp] theorem setSlot_pins (n c : Nat) (x : Slot) : (w.setSlot n c x).pins = w.pins := rfl
@[simp] theorem setSlot_accs (n c : Nat) (x : Slot) : (w.setSlot n c x).accs = w.accs := rfl
@[simp] theorem setSlot_net (n c : Nat) (x : Slot) : (w.setSlot n c x).net = w.net := rfl
@[simp] theorem setSlot_mx (n c : Nat) (x : Slot) : (w.setSlot n c x).mx = w.mx := rfl
@[simp] theorem setSlot_stw (n c : Nat) (x : Slot) : (w.setSlot n c x).stw = w.stw := rfl
@[simp] theorem setSlot_que (n c : Nat) (x : Slot) : (w.setSlot n c x).que = w.que := rfl
@[simp] theorem setSlot_evt (n c : Nat) (x : Slot) : (w.setSlot n c x).evt = w.evt := rfl
@[simp] theorem setSlot_lm (n c : Nat) (x : Slot) : (w.setSlot n c x).lm = w.lm := rfl

@[simp] theorem setCoh_regs (n : Nat) (x : Coh) : (w.setCoh n x).regs = w.regs := rfl
@[simp] theorem setCoh_committed (n : Nat) (x : Coh) : (w.setCoh n x).committed = w.committed := rfl
@[simp] theorem setCoh_time (n : Nat) (x : Coh) : (w.setCoh n x).time = w.time := rfl
@[simp] theorem setCoh_pins (n : Nat) (x : Coh) : (w.setCoh n x).pins = w.pins := rfl
@[simp] theorem setCoh_accs (n : Nat) (x : Coh) : (w.setCoh n x).accs = w.accs := rfl
@[simp] theorem setCoh_net (n : Nat) (x : Coh) : (w.setCoh n x).net = w.net := rfl
@[simp] theorem setCoh_slots (n : Nat) (x : Coh) : (w.setCoh n x).slots = w.slots := rfl
@[simp] theorem setCoh_mx (n : Nat) (x : Coh) : (w.setCoh n x).mx = w.mx := rfl
@[simp] theorem setCoh_stw (n : Nat) (x : Coh) : (w.setCoh n x).stw = w.stw := rfl
@[simp] theorem setCoh_que (n : Nat) (x : Coh) : (w.setCoh n x).que = w.que := rfl
@[simp] theorem setCoh_evt (n : Nat) (x : Coh) : (w.setCoh n x).evt = w.evt := rfl
@[simp] theorem setCoh_lm (n : Nat) (x : Coh) : (w.setCoh n x).lm = w.lm := rfl

@[simp] theorem setMx_regs (n : Nat) (x : Mx) : (w.setMx n x).regs = w.regs := rfl
@[simp] theorem setMx_committed (n : Nat) (x : Mx) : (w.setMx n x).committed = w.committed := rfl
@[simp] theorem setMx_time (n : Nat) (x : Mx) : (w.setMx n x).time = w.time := rfl
@[simp] theorem setMx_pins (n : Nat) (x : Mx) : (w.setMx n x).pins = w.pins := rfl
@[simp] theorem setMx_accs (n : Nat) (x : Mx) : (w.setMx n x).accs = w.accs := rfl
@[simp] theorem setMx_net (n : Nat) (x : Mx) : (w.setMx n x).net = w.net := rfl
@[simp] theorem setMx_slots (n : Nat) (x : Mx) : (w.setMx n x).slots = w.slots := rfl
@[simp] theorem setMx_stw (n : Nat) (x : Mx) : (w.setMx n x).stw = w.stw := rfl
@[simp] theorem setMx_que (n : Nat) (x : Mx) : (w.setMx n x).que = w.que := rfl
@[simp] theorem setMx_evt (n : Nat) (x : Mx) : (w.setMx n x).evt = w.evt := rfl
@[simp] theorem setMx_lm (n : Nat) (x : Mx) : (w.setMx n x).lm = w.lm := rfl

@[simp] theorem setVx_regs (n : Nat) (x : Option VxCmd) : (w.setVx n x).regs = w.regs := rfl
@[simp] theorem setVx_committed (n : Nat) (x : Option VxCmd) : (w.setVx n x).committed = w.committed := rfl
@[simp] theorem setVx_time (n : Nat) (x : Option VxCmd) : (w.setVx n x).time = w.time := rfl
@[simp] theorem setVx_pins (n : Nat) (x : Option VxCmd) : (w.setVx n x).pins = w.pins := rfl
@[simp] theorem setVx_accs (n : Nat) (x : Option VxCmd) : (w.setVx n x).accs = w.accs := rfl
@[simp] theorem setVx_net (n : Nat) (x : Option VxCmd) : (w.setVx n x).net = w.net := rfl
@[simp] theorem setVx_slots (n : Nat) (x : Option VxCmd) : (w.setVx n x).slots = w.slots := rfl
@[simp] theorem setVx_mx (n : Nat) (x : Option VxCmd) : (w.setVx n x).mx = w.mx := rfl
@[simp] theorem setVx_stw (n : Nat) (x : Option VxCmd) : (w.setVx n x).stw = w.stw := rfl
@[simp] theorem setVx_que (n : Nat) (x : Option VxCmd) : (w.setVx n x).que = w.que := rfl
@[simp] theorem setVx_evt (n : Nat) (x : Option VxCmd) : (w.setVx n x).evt = w.evt := rfl
@[simp] theorem setVx_lm (n : Nat) (x : Option VxCmd) : (w.setVx n x).lm = w.lm := rfl

@[simp] theorem setArb_regs (k : Nat) (x : Arb) : (w.setArb k x).regs = w.regs := rfl
@[simp] theorem setArb_committed (k : Nat) (x : Arb) : (w.setArb k x).committed = w.committed := rfl
@[simp] theorem setArb_time (k : Nat) (x : Arb) : (w.setArb k x).time = w.time := rfl
@[simp] theorem setArb_pins (k : Nat) (x : Arb) : (w.setArb k x).pins = w.pins := rfl
@[simp] theorem setArb_accs (k : Nat) (x : Arb) : (w.setArb k x).accs = w.accs := rfl
@[simp] theorem setArb_slots (k : Nat) (x : Arb) : (w.setArb k x).slots = w.slots := rfl
@[simp] theorem setArb_mx (k : Nat) (x : Arb) : (w.setArb k x).mx = w.mx := rfl
@[simp] theorem setArb_stw (k : Nat) (x : Arb) : (w.setArb k x).stw = w.stw := rfl
@[simp] theorem setArb_que (k : Nat) (x : Arb) : (w.setArb k x).que = w.que := rfl
@[simp] theorem setArb_evt (k : Nat) (x : Arb) : (w.setArb k x).evt = w.evt := rfl
@[simp] theorem setArb_lm (k : Nat) (x : Arb) : (w.setArb k x).lm = w.lm := rfl

@[simp] theorem setGroup_regs (n g : Nat) (x : Group) : (w.setGroup n g x).regs = w.regs := rfl
@[simp] theorem setGroup_committed (n g : Nat) (x : Group) : (w.setGroup n g x).committed = w.committed := rfl
@[simp] theorem setGroup_time (n g : Nat) (x : Group) : (w.setGroup n g x).time = w.time := rfl
@[simp] theorem setGroup_pins (n g : Nat) (x : Group) : (w.setGroup n g x).pins = w.pins := rfl
@[simp] theorem setGroup_accs (n g : Nat) (x : Group) : (w.setGroup n g x).accs = w.accs := rfl
@[simp] theorem setGroup_net (n g : Nat) (x : Group) : (w.setGroup n g x).net = w.net := rfl
@[simp] theorem setGroup_slots (n g : Nat) (x : Group) : (w.setGroup n g x).slots = w.slots := rfl
@[simp] theorem setGroup_mx (n g : Nat) (x : Group) : (w.setGroup n g x).mx = w.mx := rfl
@[simp] theorem setGroup_stw (n g : Nat) (x : Group) : (w.setGroup n g x).stw = w.stw := rfl
@[simp] theorem setGroup_que (n g : Nat) (x : Group) : (w.setGroup n g x).que = w.que := rfl
@[simp] theorem setGroup_evt (n g : Nat) (x : Group) : (w.setGroup n g x).evt = w.evt := rfl

@[simp] theorem setEcc_regs (q k : Nat) : (w.setEcc q k).regs = w.regs := rfl
@[simp] theorem setEcc_committed (q k : Nat) : (w.setEcc q k).committed = w.committed := rfl
@[simp] theorem setEcc_time (q k : Nat) : (w.setEcc q k).time = w.time := rfl
@[simp] theorem setEcc_pins (q k : Nat) : (w.setEcc q k).pins = w.pins := rfl
@[simp] theorem setEcc_accs (q k : Nat) : (w.setEcc q k).accs = w.accs := rfl
@[simp] theorem setEcc_net (q k : Nat) : (w.setEcc q k).net = w.net := rfl
@[simp] theorem setEcc_slots (q k : Nat) : (w.setEcc q k).slots = w.slots := rfl
@[simp] theorem setEcc_mx (q k : Nat) : (w.setEcc q k).mx = w.mx := rfl
@[simp] theorem setEcc_stw (q k : Nat) : (w.setEcc q k).stw = w.stw := rfl
@[simp] theorem setEcc_que (q k : Nat) : (w.setEcc q k).que = w.que := rfl
@[simp] theorem setEcc_evt (q k : Nat) : (w.setEcc q k).evt = w.evt := rfl

@[simp] theorem drewN_regs (n : Nat) : (w.drewN n).regs = w.regs := rfl
@[simp] theorem drewN_committed (n : Nat) : (w.drewN n).committed = w.committed := rfl
@[simp] theorem drewN_time (n : Nat) : (w.drewN n).time = w.time := rfl
@[simp] theorem drewN_pins (n : Nat) : (w.drewN n).pins = w.pins := rfl
@[simp] theorem drewN_accs (n : Nat) : (w.drewN n).accs = w.accs := rfl
@[simp] theorem drewN_net (n : Nat) : (w.drewN n).net = w.net := rfl
@[simp] theorem drewN_slots (n : Nat) : (w.drewN n).slots = w.slots := rfl
@[simp] theorem drewN_mx (n : Nat) : (w.drewN n).mx = w.mx := rfl
@[simp] theorem drewN_stw (n : Nat) : (w.drewN n).stw = w.stw := rfl
@[simp] theorem drewN_que (n : Nat) : (w.drewN n).que = w.que := rfl
@[simp] theorem drewN_evt (n : Nat) : (w.drewN n).evt = w.evt := rfl
@[simp] theorem drewN_lm (n : Nat) : (w.drewN n).lm = w.lm := rfl

end Sys2Proof.Machine.Chip
end

