-- ==== Sys2Proof/Laws/Access.lean ====
section
/-! SUPPORT. Messages and accesses: what putting a message on its way, answering one, and presenting an access leave as it
was. -/

namespace Sys2Proof.Machine.Chip

theorem sameButMessages_refl (w : Chip) : sameButMessages w w := rfl

theorem sameButMessages_trans {a b c : Chip} (h : sameButMessages a b) (k : sameButMessages b c) : sameButMessages a c := by
  unfold sameButMessages at *
  rw [k, h]

theorem sameButMessages_rd {w v : Chip} (h : sameButMessages w v) (a : Nat) : v.rd a = w.rd a := by rw [h]; rfl

theorem sameButMessages_time {w v : Chip} (h : sameButMessages w v) : v.time = w.time := by rw [h]

/-- A message put on its way changes messages and identifiers only. -/
theorem inject_same (w : Chip) (src dst : Place) (cls : Nat) (m : Msg) : sameButMessages w (w.inject src dst cls m) := by
  unfold inject arriveMsg
  dsimp only
  repeat' split
  all_goals rfl

theorem sendReq_same (w : Chip) (src : Place) (cls : Nat) (m : Msg) : sameButMessages w (w.sendReq src cls m) := by
  unfold sendReq
  dsimp only
  split
  · exact sameButMessages_trans (by rfl) (inject_same _ _ _ _ _)
  · rfl

theorem send_same (w : Chip) (src home : Place) (cls : Nat) (m : Msg) : sameButMessages w (w.send src home cls m) := by
  unfold send
  split
  · exact inject_same _ _ _ _ _
  · exact sendReq_same _ _ _ _

theorem recordOutcome_same (w : Chip) (m : Msg) (op : Op) (status detail : Nat) (data : List Byte) :
    sameButMessages w (w.recordOutcome m op status detail data) := by
  unfold recordOutcome
  dsimp only
  split <;> rfl

/-- An answered request changes messages, the filter's records and identifiers only. -/
theorem answer_same (w : Chip) (src : Place) (m : Msg) (op : Op) (status detail : Nat) (data : List Byte) (u : Bool)
    (f : Nat) : sameButMessages w (w.answer src m op status detail data u f) := by
  unfold answer
  dsimp only
  split
  · exact recordOutcome_same _ _ _ _ _ _
  · exact sameButMessages_trans (recordOutcome_same _ _ _ _ _ _) (inject_same _ _ _ _ _)

/-- A local access presented to its bank groups changes accesses and identifiers only. -/
theorem localAcc_same (w : Chip) (owner : AccOwner) (core home reqr : Nat) (kind : AccKind) (off len : Nat)
    (data : List Byte) (stream : Nat) : sameButMessages w (w.localAcc owner core home reqr kind off len data stream) := rfl

theorem remoteWrite_same (w : Chip) (owner : AccOwner) (n unit slot chip addr : Nat) (data : List Byte) (stream : Nat) :
    sameButMessages w (w.remoteWrite owner n unit slot chip addr data stream) := by
  unfold remoteWrite
  dsimp only
  split
  · rfl
  · exact sameButMessages_trans (by rfl) (send_same _ _ _ _ _)

/-- The message put on its way is recorded under the next identifier. -/
theorem inject_msg (w : Chip) (src dst : Place) (cls : Nat) (m : Msg) :
    ∃ r, (w.inject src dst cls m).msgRec? w.nextId = some r ∧ r.msg = m := by
  unfold inject arriveMsg
  dsimp only
  repeat' split
  all_goals simp [msgRec?, setMsg, bumpId]

/-- A request from within the chip has its answer on its way, with the status and the value given. -/
theorem answer_msg (w : Chip) (src : Place) (m : Msg) (op : Op) (st d : Nat) (data : List Byte) (h : m.srcChip = 255) :
    ∃ j r, (w.answer src m op st d data).msgRec? j = some r ∧ r.msg.op = op ∧ r.msg.status = st ∧ r.msg.addr = d ∧
      r.msg.acc = m.acc := by
  unfold answer
  dsimp only
  rw [h]
  simp only [bne_self_eq_false, Bool.false_and, Bool.false_eq_true, if_false]
  obtain ⟨r, h1, h2⟩ := inject_msg (w.recordOutcome m op st d data) src
    ((w.recordOutcome m op st d data).towards 255 (if 8 ≤ m.srcUnit then .hub else .core m.srcCore)) 0
    { m with op := op, dstChip := 255, srcChip := 255, status := st, addr := d, data := data,
             base := m.addr, arg := 0, uncached := false, fillTag := 0 }
  exact ⟨_, r, h1, by simp [h2], by simp [h2], by simp [h2], by simp [h2]⟩

end Sys2Proof.Machine.Chip
end

