-- ==== Sys2Proof/Laws/Bits.lean ====
section
/-! SUPPORT. Bit ranges: each bit of `bits` and `putBits`, and what a range reads as after another or the same range is
replaced. -/

namespace Sys2Proof

theorem testBit_bits (v hi lo j : Nat) :
    (bits v hi lo).testBit j = (decide (j < hi + 1 - lo) && v.testBit (lo + j)) := by
  simp [bits, Nat.testBit_mod_two_pow, Nat.testBit_div_two_pow, Nat.add_comm]

theorem testBit_putBits (v hi lo x i : Nat) (h : lo ≤ hi + 1) :
    (putBits v hi lo x).testBit i = if lo ≤ i ∧ i ≤ hi then x.testBit (i - lo) else v.testBit i := by
  have e : putBits v hi lo x = 2 ^ lo * (2 ^ (hi + 1 - lo) * (v / 2 ^ (hi + 1)) + x % 2 ^ (hi + 1 - lo)) + v % 2 ^ lo := by
    have : 2 ^ (hi + 1) = 2 ^ lo * 2 ^ (hi + 1 - lo) := by rw [← Nat.pow_add]; congr 1; omega
    unfold putBits
    rw [Nat.mul_add, ← Nat.mul_assoc, ← this]
    ring
  rw [e, Nat.testBit_two_pow_mul_add _ (Nat.mod_lt _ (Nat.two_pow_pos _)),
    Nat.testBit_two_pow_mul_add _ (Nat.mod_lt _ (Nat.two_pow_pos _))]
  simp only [Nat.testBit_mod_two_pow, Nat.testBit_div_two_pow]
  by_cases h1 : i < lo
  · have : ¬ (lo ≤ i ∧ i ≤ hi) := by omega
    simp [h1, this]
  · by_cases h2 : i - lo < hi + 1 - lo
    · have : lo ≤ i ∧ i ≤ hi := by omega
      simp [h1, h2, this]
    · have : ¬ (lo ≤ i ∧ i ≤ hi) := by omega
      simp only [h1, h2, this, if_false]
      congr 1
      omega

/-- A replaced range reads as the value put there. -/
theorem bits_putBits (v hi lo x : Nat) (h : lo ≤ hi + 1) : bits (putBits v hi lo x) hi lo = x % 2 ^ (hi + 1 - lo) := by
  apply Nat.eq_of_testBit_eq
  intro j
  rw [testBit_bits, testBit_putBits _ _ _ _ _ h, Nat.testBit_mod_two_pow]
  by_cases g : j < hi + 1 - lo
  · have : lo ≤ lo + j ∧ lo + j ≤ hi := by omega
    simp [g, this]
  · simp [g]

/-- A range apart from the one replaced reads as before. -/
theorem bits_putBits_ne (v hi lo x hi' lo' : Nat) (h : lo ≤ hi + 1) (d : hi' < lo ∨ hi < lo') :
    bits (putBits v hi lo x) hi' lo' = bits v hi' lo' := by
  apply Nat.eq_of_testBit_eq
  intro j
  rw [testBit_bits, testBit_bits, testBit_putBits _ _ _ _ _ h]
  by_cases g : j < hi' + 1 - lo'
  · have : ¬ (lo ≤ lo' + j ∧ lo' + j ≤ hi) := by omega
    simp [this]
  · simp [g]

/-- Bits below 64 of a number taken modulo 2^64. -/
theorem bits_mod (v hi lo : Nat) (h : hi < 64) : bits (v % 2 ^ 64) hi lo = bits v hi lo := by
  apply Nat.eq_of_testBit_eq
  intro j
  rw [testBit_bits, testBit_bits, Nat.testBit_mod_two_pow]
  by_cases g : j < hi + 1 - lo
  · have : lo + j < 64 := by omega
    simp [this]
  · simp [g]

theorem bits_lt (v hi lo : Nat) : bits v hi lo < 2 ^ (hi + 1 - lo) := Nat.mod_lt _ (Nat.two_pow_pos _)

theorem b2n_lt (b : Bool) : b2n b < 2 := by cases b <;> decide

@[simp] theorem b2n_ne_zero (b : Bool) : (b2n b != 0) = b := by cases b <;> rfl

@[simp] theorem b2n_mod_two (b : Bool) : b2n b % 2 = b2n b := by cases b <;> rfl

theorem bit_eq_testBit (v i : Nat) : bit v i = v.testBit i := by
  simp only [bit, Nat.testBit_eq_decide_div_mod_eq]
  rcases Nat.mod_two_eq_zero_or_one (v / 2 ^ i) with h | h <;> simp [h]

/-- The population count of the low `n` bits counts the positions that hold 1. -/
theorem popCount_eq_countP (n v : Nat) : popCount n v = (List.range n).countP (fun i => bit v i) := by
  induction n generalizing v with
  | zero => rfl
  | succ n ih =>
    rw [popCount, ih, List.range_succ_eq_map, List.countP_cons, List.countP_map, Nat.add_comm]
    congr 1
    · congr 1; funext i
      simp only [Function.comp, bit, Nat.succ_eq_add_one, Nat.pow_succ]
      rw [Nat.mul_comm, Nat.div_div_eq_div_mul]
    · simp only [bit, Nat.pow_zero, Nat.div_one]
      rcases Nat.mod_two_eq_zero_or_one v with h | h <;> simp [h]

end Sys2Proof
end

