-- ==== Sys2Proof/Laws/Memory.lean ====
section
/-! SUPPORT. The LM: what a byte reads as after a write, and that every memory operation keeps the canonical form. -/

namespace Sys2Proof.Machine

theorem memByte_memPut (m : List Host.Cell) (a b : Nat) (v : Byte) (h : a < 0x4000000) :
    memByte (memPut m a v) b = if b = a then v else memByte m b := by
  simp [memByte, memPut, h, spGet_spPut]

theorem memByte_memPut_ne (m : List Host.Cell) {a b : Nat} (v : Byte) (h : b ≠ a) :
    memByte (memPut m a v) b = memByte m b := by
  unfold memPut
  split
  · simp [memByte, spGet_spPut, h]
  · rfl

/-- Bytes outside a run that is written read as before. -/
theorem memByte_memWrite_out (d : List Byte) (m : List Host.Cell) (a b : Nat) (h : b < a ∨ a + d.length ≤ b) :
    memByte (memWrite m a d) b = memByte m b := by
  induction d generalizing m a with
  | nil => rfl
  | cons x r ih =>
    simp only [memWrite]
    rw [ih]
    · exact memByte_memPut_ne m x (by simp only [List.length_cons] at h; omega)
    · simp only [List.length_cons] at h
      omega

/-- A byte of a run that is written inside the LMs reads as it was written. -/
theorem memByte_memWrite_in (d : List Byte) (m : List Host.Cell) (a i : Nat) (hi : i < d.length) (h : a + d.length ≤ 0x4000000) :
    memByte (memWrite m a d) (a + i) = d[i] := by
  induction d generalizing m a i with
  | nil => simp at hi
  | cons x r ih =>
    simp only [memWrite]
    simp only [List.length_cons] at hi h
    cases i with
    | zero =>
      rw [memByte_memWrite_out]
      · rw [Nat.add_zero, memByte_memPut _ _ _ _ (by omega)]
        simp
      · omega
    | succ i =>
      have := ih (memPut m a x) (a + 1) i (by omega) (by omega)
      rw [show a + (i + 1) = a + 1 + i by omega, this]
      rfl

theorem memWf_memPut {m : List Host.Cell} (a : Nat) (v : Byte) (h : memWf m = true) : memWf (memPut m a v) = true := by
  unfold memPut
  split
  · rename_i ha
    simp only [memWf, Bool.and_eq_true, List.all_eq_true, decide_eq_true_eq] at h ⊢
    refine ⟨spCanon_spPut _ a v h.1, fun e he => ?_⟩
    unfold spPut at he
    split at he
    · exact h.2 e (mem_spErase he).1
    · rcases mem_spInsert he with rfl | he
      · exact ha
      · exact h.2 e he
  · exact h

/-- Storing a run of bytes keeps the canonical form. -/
theorem memWf_memWrite (d : List Byte) {m : List Host.Cell} (a : Nat) (h : memWf m = true) : memWf (memWrite m a d) = true := by
  induction d generalizing m a with
  | nil => exact h
  | cons x r ih => exact ih _ (memWf_memPut a x h)

/-- Clearing LMs keeps the canonical form. -/
theorem memWf_zeroLm {m : List Host.Cell} (ns : List Nat) (h : memWf m = true) : memWf (Chip.zeroLm m ns) = true := by
  simp only [memWf, Bool.and_eq_true, List.all_eq_true, decide_eq_true_eq] at h ⊢
  exact ⟨spCanon_filter _ _ h.1, fun e he => h.2 e ((List.mem_filter.1 he).1)⟩

@[simp] theorem memWf_nil : memWf [] = true := rfl

end Sys2Proof.Machine
end

