-- ==== Sys2Proof/Laws/Lm.lean ====
section
/-! SUPPORT. The operations that store to LM: each of them keeps its canonical form. -/

namespace Sys2Proof.Machine

/-- A fold over the LM and the block keeps the canonical form of the LM if each of its steps does. -/
theorem memWf_foldl {α : Type} (f : Both → α → Both) (hf : ∀ b a, memWf b.1 = true → memWf (f b a).1 = true)
    (l : List α) (b : Both) (h : memWf b.1 = true) : memWf (l.foldl f b).1 = true := by
  induction l generalizing b with
  | nil => exact h
  | cons a r ih => exact ih _ (hf b a h)

theorem memWf_foldl_memPut {α : Type} (k : α → Nat) (v : α → Byte) (l : List α) (m : List Host.Cell) (h : memWf m = true) :
    memWf (l.foldl (fun m p => memPut m (k p) (v p)) m) = true := by
  induction l generalizing m with
  | nil => exact h
  | cons a r ih => exact ih _ (memWf_memPut _ _ h)

theorem memWf_performWord (n : Nat) (b : Both) (x : WordReq) (h : memWf b.1 = true) : memWf (performWord n b x).1 = true := by
  obtain ⟨mem, w⟩ := b
  unfold performWord
  dsimp only
  split
  · exact h
  · refine memWf_foldl _ ?_ _ _ h
    rintro ⟨m, u⟩ q hm
    dsimp only
    split
    · exact memWf_memWrite _ _ hm
    · exact hm
  · exact h

theorem memWf_performMerge (n : Nat) (b : Both) (x : Merge) (h : memWf b.1 = true) : memWf (performMerge n b x).1 = true := by
  obtain ⟨mem, w⟩ := b
  exact memWf_memWrite _ _ h

theorem memWf_scrubWrite (n g : Nat) (b : Both) (h : memWf b.1 = true) : memWf (scrubWrite n g b).1 = true := by
  obtain ⟨mem, w⟩ := b
  unfold scrubWrite
  dsimp only
  split
  · exact h
  · split
    · dsimp only
      split
      · exact h
      · exact memWf_memWrite _ _ h
    · exact h

theorem memWf_performGrant (n g r : Nat) (b : Both) (h : memWf b.1 = true) : memWf (performGrant n g r b).1 = true := by
  obtain ⟨mem, w⟩ := b
  unfold performGrant
  dsimp only
  exact memWf_foldl _ (fun b a hb => memWf_performWord n b a hb) _ _
    (memWf_foldl _ (fun b a hb => memWf_performMerge n b a hb) _ _ h)

theorem memWf_bankGrant (n g : Nat) (b : Both) (h : memWf b.1 = true) : memWf (bankGrant n g b).1 = true := by
  obtain ⟨mem, w⟩ := b
  unfold bankGrant
  dsimp only
  split
  · exact h
  · split
    · exact memWf_performMerge _ _ _ h
    · split
      · exact h
      · exact memWf_performGrant _ _ _ _ h

theorem memWf_mxCommandComplete (n unit : Nat) (b : Both) (h : memWf b.1 = true) :
    memWf (mxCommandComplete n unit b).1 = true := by
  obtain ⟨mem, w⟩ := b
  unfold mxCommandComplete
  dsimp only
  split
  · exact h
  · split
    · exact h
    · split
      · split
        · exact h
        · exact memWf_foldl _ (fun b a hb => memWf_memWrite _ _ hb) _ _ h
      · split <;> exact h

theorem memWf_undefineRange (n addr len : Nat) (b : Both) (h : memWf b.1 = true) :
    memWf (undefineRange n addr len b).1 = true := by
  obtain ⟨mem, w⟩ := b
  unfold undefineRange
  dsimp only
  split
  · exact memWf_foldl_memPut _ _ _ _ h
  · exact h

theorem memWf_vxStep (n : Nat) (perr : List Nat) (b : Both) (h : memWf b.1 = true) : memWf (vxStep n perr b).1 = true := by
  obtain ⟨mem, w⟩ := b
  unfold vxStep
  dsimp only
  split
  · exact h
  · split
    · exact h
    · split
      · split
        · exact memWf_undefineRange _ _ _ _ (memWf_undefineRange _ _ _ _ h)
        · exact memWf_undefineRange _ _ _ _ h
      · split <;> exact h

end Sys2Proof.Machine
end

