-- ==== Sys2Proof/Laws/Registers.lean ====
section
/-! SUPPORT. The register file: what a register or a field reads as after a register or a field has been stored. -/

namespace Sys2Proof.Machine.Chip

open Sys2Proof

theorem rd_setReg (w : Chip) (a b v : Nat) : (w.setReg a v).rd b = if b = a then v % 2 ^ 64 else w.rd b := by
  simp only [rd, setReg, spGet_spPut]
  split <;> simp [BitVec.toNat_ofNat]

@[simp] theorem rd_setReg_self (w : Chip) (a v : Nat) : (w.setReg a v).rd a = v % 2 ^ 64 := by simp [rd_setReg]

theorem rd_setReg_ne (w : Chip) {a b : Nat} (v : Nat) (h : b ≠ a) : (w.setReg a v).rd b = w.rd b := by
  simp [rd_setReg, h]

theorem rd_setFld_ne (w : Chip) {a b : Nat} (f : Fld) (v : Nat) (h : b ≠ a) : (w.setFld a f v).rd b = w.rd b :=
  rd_setReg_ne w _ h

theorem rd_setFlag_ne (w : Chip) {a b : Nat} (f : Fld) (v : Bool) (h : b ≠ a) : (w.setFlag a f v).rd b = w.rd b :=
  rd_setReg_ne w _ h

theorem rd_addSat_ne (w : Chip) {a b : Nat} (f : Fld) (n : Nat) (h : b ≠ a) : (w.addSat a f n).rd b = w.rd b :=
  rd_setReg_ne w _ h

theorem rd_bump_ne (w : Chip) {a b : Nat} (h : b ≠ a) : (w.bump a).rd b = w.rd b := rd_setReg_ne w _ h

theorem rd_addWrap_ne (w : Chip) {a b : Nat} (f : Fld) (n : Nat) (h : b ≠ a) : (w.addWrap a f n).rd b = w.rd b :=
  rd_setReg_ne w _ h

/-- A field reads as the value stored in it, cut to its width. -/
theorem fld_setFld_self (w : Chip) (a : Nat) (f : Fld) (v : Nat) (h : f.hi < 64) (g : f.lo ≤ f.hi + 1) :
    (w.setFld a f v).fld a f = v % 2 ^ (f.hi + 1 - f.lo) := by
  simp only [fld, setFld, rd_setReg_self]
  rw [bits_mod _ _ _ h, bits_putBits _ _ _ _ g]

/-- A field of the same register that shares no bit with the field stored reads as before. -/
theorem fld_setFld_apart (w : Chip) (a : Nat) (f k : Fld) (v : Nat) (h : k.hi < 64) (g : f.lo ≤ f.hi + 1)
    (d : k.hi < f.lo ∨ f.hi < k.lo) : (w.setFld a f v).fld a k = w.fld a k := by
  simp only [fld, setFld, rd_setReg_self]
  rw [bits_mod _ _ _ h, bits_putBits_ne _ _ _ _ _ _ g d]

theorem fld_setReg_ne (w : Chip) {a b : Nat} (k : Fld) (v : Nat) (h : b ≠ a) : (w.setReg a v).fld b k = w.fld b k := by
  simp [fld, rd_setReg_ne w v h]

theorem fld_setFld_ne (w : Chip) {a b : Nat} (f k : Fld) (v : Nat) (h : b ≠ a) : (w.setFld a f v).fld b k = w.fld b k :=
  fld_setReg_ne w k _ h

theorem flag_setFlag_self (w : Chip) (a : Nat) (f : Fld) (v : Bool) (h : f.hi < 64) (g : f.lo = f.hi) :
    (w.setFlag a f v).flag a f = v := by
  unfold flag setFlag
  rw [fld_setFld_self w a f _ h (by omega), g]
  simp

theorem flag_setFlag_apart (w : Chip) (a : Nat) (f k : Fld) (v : Bool) (h : k.hi < 64) (g : f.lo ≤ f.hi + 1)
    (d : k.hi < f.lo ∨ f.hi < k.lo) : (w.setFlag a f v).flag a k = w.flag a k := by
  unfold flag setFlag
  rw [fld_setFld_apart w a f k _ h g d]

theorem flag_setReg_ne (w : Chip) {a b : Nat} (k : Fld) (v : Nat) (h : b ≠ a) : (w.setReg a v).flag b k = w.flag b k := by
  simp [flag, fld_setReg_ne w k v h]

/-- A saturating counter counts up to its highest value (R3). -/
theorem fld_addSat_self (w : Chip) (a : Nat) (f : Fld) (n : Nat) (h : f.hi < 64) (g : f.lo ≤ f.hi + 1) :
    (w.addSat a f n).fld a f = min (w.fld a f + n) (2 ^ (f.hi + 1 - f.lo) - 1) := by
  unfold addSat
  rw [fld_setFld_self w a f _ h g]
  apply Nat.mod_eq_of_lt
  have := Nat.two_pow_pos (f.hi + 1 - f.lo)
  omega

/-- A COUNT register after one more occurrence. -/
theorem fld_bump_self (w : Chip) (a : Nat) :
    (w.bump a).fld a ⟨31, 0⟩ = min (w.fld a ⟨31, 0⟩ + 1) (2 ^ 32 - 1) :=
  fld_addSat_self w a ⟨31, 0⟩ 1 (by decide) (by decide)

theorem rd_lt (w : Chip) (a : Nat) : w.rd a < 2 ^ 64 := (spGet resetWord w.regs a).isLt

end Sys2Proof.Machine.Chip
end

