-- ==== Sys2Proof/Laws/Tables.lean ====
section
/-! SUPPORT. The tables of working state: what an entry reads as after an entry is stored, that registers read as before,
and that a change of registers changes nothing else. -/

namespace Sys2Proof.Machine.Chip

variable (w : Chip)

/-! ## Register updates change registers alone -/

theorem setReg_only (a v : Nat) : w.setReg a v = { w with regs := (w.setReg a v).regs } := rfl
theorem setFld_only (a : Nat) (f : Fld) (v : Nat) : w.setFld a f v = { w with regs := (w.setFld a f v).regs } := setReg_only w _ _
theorem setFlag_only (a : Nat) (f : Fld) (v : Bool) : w.setFlag a f v = { w with regs := (w.setFlag a f v).regs } := setFld_only w _ _ _
theorem addSat_only (a : Nat) (f : Fld) (n : Nat) : w.addSat a f n = { w with regs := (w.addSat a f n).regs } := setFld_only w _ _ _
theorem bump_only (a : Nat) : w.bump a = { w with regs := (w.bump a).regs } := addSat_only w _ _ _
theorem addWrap_only (a : Nat) (f : Fld) (n : Nat) : w.addWrap a f n = { w with regs := (w.addWrap a f n).regs } := setFld_only w _ _ _
theorem setSlotState_only (n c st : Nat) : w.setSlotState n c st = { w with regs := (w.setSlotState n c st).regs } := setFld_only w _ _ _
theorem setCp_only (n c v : Nat) : w.setCp n c v = { w with regs := (w.setCp n c v).regs } := setFld_only w _ _ _
theorem setScratch_only (n c i v : Nat) : w.setScratch n c i v = { w with regs := (w.setScratch n c i v).regs } := setReg_only w _ _

/-- Changes of registers alone compose. -/
theorem only_trans {a b c : Chip} (h : b = { a with regs := b.regs }) (k : c = { b with regs := c.regs }) :
    c = { a with regs := c.regs } := by rw [k, h]

/-- A choice between a change of registers alone and no change is a change of registers alone. -/
theorem only_ite {a b : Chip} (p : Prop) [Decidable p] (h : b = { a with regs := b.regs }) :
    (if p then b else a) = { a with regs := (if p then b else a).regs } := by split <;> [exact h; rfl]

/-! ## Flags and fields stored one after the other -/

theorem fld_setFlag_ne {a b : Nat} (f k : Fld) (v : Bool) (h : b ≠ a) : (w.setFlag a f v).fld b k = w.fld b k :=
  fld_setFld_ne w f k _ h
theorem flag_setFld_ne {a b : Nat} (f k : Fld) (v : Nat) (h : b ≠ a) : (w.setFld a f v).flag b k = w.flag b k := by
  simp [flag, fld_setFld_ne w f k v h]
theorem flag_setFlag_ne {a b : Nat} (f k : Fld) (v : Bool) (h : b ≠ a) : (w.setFlag a f v).flag b k = w.flag b k :=
  flag_setFld_ne w f k _ h
theorem fld_setFlag_apart (a : Nat) (f k : Fld) (v : Bool) (h : k.hi < 64) (g : f.lo ≤ f.hi + 1)
    (d : k.hi < f.lo ∨ f.hi < k.lo) : (w.setFlag a f v).fld a k = w.fld a k := fld_setFld_apart w a f k _ h g d
theorem flag_setFld_apart (a : Nat) (f k : Fld) (v : Nat) (h : k.hi < 64) (g : f.lo ≤ f.hi + 1)
    (d : k.hi < f.lo ∨ f.hi < k.lo) : (w.setFld a f v).flag a k = w.flag a k := by simp [flag, fld_setFld_apart w a f k _ h g d]
theorem fld_addSat_ne {a b : Nat} (f k : Fld) (n : Nat) (h : b ≠ a) : (w.addSat a f n).fld b k = w.fld b k :=
  fld_setFld_ne w f k _ h
theorem flag_addSat_ne {a b : Nat} (f k : Fld) (n : Nat) (h : b ≠ a) : (w.addSat a f n).flag b k = w.flag b k :=
  flag_setFld_ne w f k _ h
theorem fld_bump_ne {a b : Nat} (k : Fld) (h : b ≠ a) : (w.bump a).fld b k = w.fld b k := fld_setFld_ne w _ k _ h
theorem flag_bump_ne {a b : Nat} (k : Fld) (h : b ≠ a) : (w.bump a).flag b k = w.flag b k := flag_setFld_ne w _ k _ h

/-! ## Entries of the tables -/

@[simp] theorem acc_setAcc_self (k : Nat) (x : Acc) : (w.setAcc k x).acc k = x := by simp [acc, setAcc]
theorem acc_setAcc_ne {k j : Nat} (x : Acc) (h : j ≠ k) : (w.setAcc k x).acc j = w.acc j := by
  simp [acc, setAcc, spGet_spPut, h]
@[simp] theorem arb_setArb_self (k : Nat) (x : Arb) : (w.setArb k x).arb k = x := by simp [arb, setArb]
theorem arb_setArb_ne {k j : Nat} (x : Arb) (h : j ≠ k) : (w.setArb k x).arb j = w.arb j := by
  simp [arb, setArb, spGet_spPut, h]
@[simp] theorem cohOf_setCoh_self (k : Nat) (x : Coh) : (w.setCoh k x).cohOf k = x := by simp [cohOf, setCoh]
theorem cohOf_setCoh_ne {k j : Nat} (x : Coh) (h : j ≠ k) : (w.setCoh k x).cohOf j = w.cohOf j := by
  simp [cohOf, setCoh, spGet_spPut, h]
@[simp] theorem mxOf_setMx_self (k : Nat) (x : Mx) : (w.setMx k x).mxOf k = x := by simp [mxOf, setMx]
theorem mxOf_setMx_ne {k j : Nat} (x : Mx) (h : j ≠ k) : (w.setMx k x).mxOf j = w.mxOf j := by
  simp [mxOf, setMx, spGet_spPut, h]
@[simp] theorem vxOf_setVx_self (k : Nat) (x : Option VxCmd) : (w.setVx k x).vxOf k = x := by simp [vxOf, setVx]
theorem vxOf_setVx_ne {k j : Nat} (x : Option VxCmd) (h : j ≠ k) : (w.setVx k x).vxOf j = w.vxOf j := by
  simp [vxOf, setVx, spGet_spPut, h]
@[simp] theorem slot_setSlot_self (n c : Nat) (x : Slot) : (w.setSlot n c x).slot n c = x := by simp [slot, setSlot]
theorem slot_setSlot_ne {n c m d : Nat} (x : Slot) (h : m * 4 + d ≠ n * 4 + c) : (w.setSlot n c x).slot m d = w.slot m d := by
  simp [slot, setSlot, spGet_spPut, h]
@[simp] theorem group_setGroup_self (n c : Nat) (x : Group) : (w.setGroup n c x).group n c = x := by simp [group, setGroup]
theorem group_setGroup_ne {n c m d : Nat} (x : Group) (h : m * 4 + d ≠ n * 4 + c) : (w.setGroup n c x).group m d = w.group m d := by
  simp [group, setGroup, spGet_spPut, h]
@[simp] theorem msgRec?_setMsg_self (k : Nat) (x : MsgRec) : (w.setMsg k x).msgRec? k = some x := by simp [msgRec?, setMsg]
theorem msgRec?_setMsg_ne {k j : Nat} (x : MsgRec) (h : j ≠ k) : (w.setMsg k x).msgRec? j = w.msgRec? j := by
  simp [msgRec?, setMsg, spFind?_spInsert, h]
@[simp] theorem msgRec?_dropMsg_self (k : Nat) : (w.dropMsg k).msgRec? k = none := by simp [msgRec?, dropMsg, spFind?_spErase]
theorem msgRec?_dropMsg_ne {k j : Nat} (h : j ≠ k) : (w.dropMsg k).msgRec? j = w.msgRec? j := by
  simp [msgRec?, dropMsg, spFind?_spErase, h]

/-! ## Registers read as before -/

@[simp] theorem setAcc_rd (k : Nat) (x : Acc) (a : Nat) : (w.setAcc k x).rd a = w.rd a := rfl
@[simp] theorem setAcc_fld (k : Nat) (x : Acc) (a : Nat) (f : Fld) : (w.setAcc k x).fld a f = w.fld a f := rfl
@[simp] theorem setAcc_flag (k : Nat) (x : Acc) (a : Nat) (f : Fld) : (w.setAcc k x).flag a f = w.flag a f := rfl
@[simp] theorem setAcc_cfgRd (k : Nat) (x : Acc) (a : Nat) : (w.setAcc k x).cfgRd a = w.cfgRd a := rfl
@[simp] theorem setAcc_cfg (k : Nat) (x : Acc) (a : Nat) (f : Fld) : (w.setAcc k x).cfg a f = w.cfg a f := rfl
@[simp] theorem dropAcc_rd (k : Nat) (a : Nat) : (w.dropAcc k).rd a = w.rd a := rfl
@[simp] theorem dropAcc_fld (k : Nat) (a : Nat) (f : Fld) : (w.dropAcc k).fld a f = w.fld a f := rfl
@[simp] theorem dropAcc_flag (k : Nat) (a : Nat) (f : Fld) : (w.dropAcc k).flag a f = w.flag a f := rfl
@[simp] theorem dropAcc_cfgRd (k : Nat) (a : Nat) : (w.dropAcc k).cfgRd a = w.cfgRd a := rfl
@[simp] theorem dropAcc_cfg (k : Nat) (a : Nat) (f : Fld) : (w.dropAcc k).cfg a f = w.cfg a f := rfl
@[simp] theorem setArb_rd (k : Nat) (x : Arb) (a : Nat) : (w.setArb k x).rd a = w.rd a := rfl
@[simp] theorem setArb_fld (k : Nat) (x : Arb) (a : Nat) (f : Fld) : (w.setArb k x).fld a f = w.fld a f := rfl
@[simp] theorem setArb_flag (k : Nat) (x : Arb) (a : Nat) (f : Fld) : (w.setArb k x).flag a f = w.flag a f := rfl
@[simp] theorem setArb_cfgRd (k : Nat) (x : Arb) (a : Nat) : (w.setArb k x).cfgRd a = w.cfgRd a := rfl
@[simp] theorem setArb_cfg (k : Nat) (x : Arb) (a : Nat) (f : Fld) : (w.setArb k x).cfg a f = w.cfg a f := rfl
@[simp] theorem setCoh_rd (k : Nat) (x : Coh) (a : Nat) : (w.setCoh k x).rd a = w.rd a := rfl
@[simp] theorem setCoh_fld (k : Nat) (x : Coh) (a : Nat) (f : Fld) : (w.setCoh k x).fld a f = w.fld a f := rfl
@[simp] theorem setCoh_flag (k : Nat) (x : Coh) (a : Nat) (f : Fld) : (w.setCoh k x).flag a f = w.flag a f := rfl
@[simp] theorem setCoh_cfgRd (k : Nat) (x : Coh) (a : Nat) : (w.setCoh k x).cfgRd a = w.cfgRd a := rfl
@[simp] theorem setCoh_cfg (k : Nat) (x : Coh) (a : Nat) (f : Fld) : (w.setCoh k x).cfg a f = w.cfg a f := rfl
@[simp] theorem setMx_rd (k : Nat) (x : Mx) (a : Nat) : (w.setMx k x).rd a = w.rd a := rfl
@[simp] theorem setMx_fld (k : Nat) (x : Mx) (a : Nat) (f : Fld) : (w.setMx k x).fld a f = w.fld a f := rfl
@[simp] theorem setMx_flag (k : Nat) (x : Mx) (a : Nat) (f : Fld) : (w.setMx k x).flag a f = w.flag a f := rfl
@[simp] theorem setMx_cfgRd (k : Nat) (x : Mx) (a : Nat) : (w.setMx k x).cfgRd a = w.cfgRd a := rfl
@[simp] theorem setMx_cfg (k : Nat) (x : Mx) (a : Nat) (f : Fld) : (w.setMx k x).cfg a f = w.cfg a f := rfl
@[simp] theorem setVx_rd (k : Nat) (x : Option VxCmd) (a : Nat) : (w.setVx k x).rd a = w.rd a := rfl
@[simp] theorem setVx_fld (k : Nat) (x : Option VxCmd) (a : Nat) (f : Fld) : (w.setVx k x).fld a f = w.fld a f := rfl
@[simp] theorem setVx_flag (k : Nat) (x : Option VxCmd) (a : Nat) (f : Fld) : (w.setVx k x).flag a f = w.flag a f := rfl
@[simp] theorem setVx_cfgRd (k : Nat) (x : Option VxCmd) (a : Nat) : (w.setVx k x).cfgRd a = w.cfgRd a := rfl
@[simp] theorem setVx_cfg (k : Nat) (x : Option VxCmd) (a : Nat) (f : Fld) : (w.setVx k x).cfg a f = w.cfg a f := rfl
@[simp] theorem setSlot_rd (n c : Nat) (x : Slot) (a : Nat) : (w.setSlot n c x).rd a = w.rd a := rfl
@[simp] theorem setSlot_fld (n c : Nat) (x : Slot) (a : Nat) (f : Fld) : (w.setSlot n c x).fld a f = w.fld a f := rfl
@[simp] theorem setSlot_flag (n c : Nat) (x : Slot) (a : Nat) (f : Fld) : (w.setSlot n c x).flag a f = w.flag a f := rfl
@[simp] theorem setSlot_cfgRd (n c : Nat) (x : Slot) (a : Nat) : (w.setSlot n c x).cfgRd a = w.cfgRd a := rfl
@[simp] theorem setSlot_cfg (n c : Nat) (x : Slot) (a : Nat) (f : Fld) : (w.setSlot n c x).cfg a f = w.cfg a f := rfl
@[simp] theorem setGroup_rd (n g : Nat) (x : Group) (a : Nat) : (w.setGroup n g x).rd a = w.rd a := rfl
@[simp] theorem setGroup_fld (n g : Nat) (x : Group) (a : Nat) (f : Fld) : (w.setGroup n g x).fld a f = w.fld a f := rfl
@[simp] theorem setGroup_flag (n g : Nat) (x : Group) (a : Nat) (f : Fld) : (w.setGroup n g x).flag a f = w.flag a f := rfl
@[simp] theorem setGroup_cfgRd (n g : Nat) (x : Group) (a : Nat) : (w.setGroup n g x).cfgRd a = w.cfgRd a := rfl
@[simp] theorem setGroup_cfg (n g : Nat) (x : Group) (a : Nat) (f : Fld) : (w.setGroup n g x).cfg a f = w.cfg a f := rfl
@[simp] theorem setMsg_rd (k : Nat) (x : MsgRec) (a : Nat) : (w.setMsg k x).rd a = w.rd a := rfl
@[simp] theorem setMsg_fld (k : Nat) (x : MsgRec) (a : Nat) (f : Fld) : (w.setMsg k x).fld a f = w.fld a f := rfl
@[simp] theorem setMsg_flag (k : Nat) (x : MsgRec) (a : Nat) (f : Fld) : (w.setMsg k x).flag a f = w.flag a f := rfl
@[simp] theorem setMsg_cfgRd (k : Nat) (x : MsgRec) (a : Nat) : (w.setMsg k x).cfgRd a = w.cfgRd a := rfl
@[simp] theorem setMsg_cfg (k : Nat) (x : MsgRec) (a : Nat) (f : Fld) : (w.setMsg k x).cfg a f = w.cfg a f := rfl
@[simp] theorem dropMsg_rd (k : Nat) (a : Nat) : (w.dropMsg k).rd a = w.rd a := rfl
@[simp] theorem dropMsg_fld (k : Nat) (a : Nat) (f : Fld) : (w.dropMsg k).fld a f = w.fld a f := rfl
@[simp] theorem dropMsg_flag (k : Nat) (a : Nat) (f : Fld) : (w.dropMsg k).flag a f = w.flag a f := rfl
@[simp] theorem dropMsg_cfgRd (k : Nat) (a : Nat) : (w.dropMsg k).cfgRd a = w.cfgRd a := rfl
@[simp] theorem dropMsg_cfg (k : Nat) (a : Nat) (f : Fld) : (w.dropMsg k).cfg a f = w.cfg a f := rfl
@[simp] theorem bumpId_rd (a : Nat) : (w.bumpId).rd a = w.rd a := rfl
@[simp] theorem bumpId_fld (a : Nat) (f : Fld) : (w.bumpId).fld a f = w.fld a f := rfl
@[simp] theorem bumpId_flag (a : Nat) (f : Fld) : (w.bumpId).flag a f = w.flag a f := rfl
@[simp] theorem bumpId_cfgRd (a : Nat) : (w.bumpId).cfgRd a = w.cfgRd a := rfl
@[simp] theorem bumpId_cfg (a : Nat) (f : Fld) : (w.bumpId).cfg a f = w.cfg a f := rfl
@[simp] theorem drew_rd (a : Nat) : (w.drew).rd a = w.rd a := rfl
@[simp] theorem drew_fld (a : Nat) (f : Fld) : (w.drew).fld a f = w.fld a f := rfl
@[simp] theorem drew_flag (a : Nat) (f : Fld) : (w.drew).flag a f = w.flag a f := rfl
@[simp] theorem drew_cfgRd (a : Nat) : (w.drew).cfgRd a = w.cfgRd a := rfl
@[simp] theorem drew_cfg (a : Nat) (f : Fld) : (w.drew).cfg a f = w.cfg a f := rfl
@[simp] theorem drewN_rd (n : Nat) (a : Nat) : (w.drewN n).rd a = w.rd a := rfl
@[simp] theorem drewN_fld (n : Nat) (a : Nat) (f : Fld) : (w.drewN n).fld a f = w.fld a f := rfl
@[simp] theorem drewN_flag (n : Nat) (a : Nat) (f : Fld) : (w.drewN n).flag a f = w.flag a f := rfl
@[simp] theorem drewN_cfgRd (n : Nat) (a : Nat) : (w.drewN n).cfgRd a = w.cfgRd a := rfl
@[simp] theorem drewN_cfg (n : Nat) (a : Nat) (f : Fld) : (w.drewN n).cfg a f = w.cfg a f := rfl

end Sys2Proof.Machine.Chip
end

