-- ==== Sys2Proof/Laws/Sync.lean ====
section
/-! SUPPORT. Counters: what an add gives (R259), what a wait needs (R260), what testing the registrations and the waits of
a core changes, and the signals that a counter takes. -/

namespace Sys2Proof.Machine

/-- The value after an add (R259). -/
theorem addCount_fst (wr : Bool) (v a : Nat) :
    (addCount wr v a).1 = if wr then (v + a) % 2 ^ 48 else min (v + a) (2 ^ 48 - 1) := by
  unfold addCount cnt48
  cases wr
  · simp only [Bool.false_eq_true, if_false]; split <;> simp <;> omega
  · simp

/-- Whether an add saturates (R259). -/
theorem addCount_snd (wr : Bool) (v a : Nat) : (addCount wr v a).2 = (!wr && decide (2 ^ 48 ≤ v + a)) := by
  unfold addCount cnt48
  cases wr
  · simp only [Bool.false_eq_true, if_false]; split <;> simp_all
  · simp

theorem addCount_lt (wr : Bool) (v a : Nat) : (addCount wr v a).1 < 2 ^ 48 := by
  rw [addCount_fst]; split <;> omega

/-- The test of a wait in SAT mode and in WRAP mode (R260). -/
theorem satisfied_iff (wr : Bool) {v t : Nat} (h : t < 2 ^ 48) :
    satisfied wr v t = true ↔ if wr then ((v : Int) - (t : Int)) % 2 ^ 48 < 2 ^ 47 else t ≤ v := by
  unfold satisfied cnt48
  cases wr
  · rw [Nat.mod_eq_of_lt h]; simp
  · rw [Nat.mod_eq_of_lt h]
    simp only [if_true, decide_eq_true_eq]
    omega

namespace Chip

theorem notify_same (w : Chip) (m : Msg) (arg : Nat) : sameButMessages w (w.notify m arg) := inject_same _ _ _ _ _

/-- A fold whose steps change messages alone changes messages alone. -/
theorem foldl_same {α : Type} (f : Chip → α → Chip) (hf : ∀ w a, sameButMessages w (f w a)) (l : List α) (w : Chip) :
    sameButMessages w (l.foldl f w) := by
  induction l generalizing w with
  | nil => rfl
  | cons a r ih => exact sameButMessages_trans (hf w a) (ih _)

/-- Testing the registrations of a counter drops those satisfied and sends their messages: nothing else. -/
theorem testRegs_same (w : Chip) (k : Nat) :
    sameButMessages { w with sync := { w.sync with regsHeld := w.sync.regsHeld.filter fun p =>
      !(p.2.counter == k && w.ccSat k p.2.target) } } (w.testRegs k) :=
  foldl_same (fun (w : Chip) (p : Nat × Reg) => w.notify p.2.msg 1) (fun w p => notify_same w p.2.msg 1) _ _

@[simp] theorem testRegs_rd (w : Chip) (k a : Nat) : (w.testRegs k).rd a = w.rd a :=
  sameButMessages_rd (testRegs_same w k) a

@[simp] theorem testRegs_fld (w : Chip) (k a : Nat) (f : Fld) : (w.testRegs k).fld a f = w.fld a f := by simp [fld]

@[simp] theorem testRegs_flag (w : Chip) (k a : Nat) (f : Fld) : (w.testRegs k).flag a f = w.flag a f := by simp [flag]

theorem testRegs_held (w : Chip) (k : Nat) : (w.testRegs k).sync.regsHeld = w.sync.regsHeld.filter fun p =>
    !(p.2.counter == k && w.ccSat k p.2.target) := by rw [testRegs_same w k]

/-- An add to a chip counter that its pair does not refuse (R259, R265): VALUE takes the sum, STATUS the SAT flag if it
saturates, and the registrations are tested. -/
theorem ccAdd_done (w : Chip) (k a : Nat) (h : w.pairRefusal k a = none) :
    let s := addCount (w.flag (Addr.ccCfg k) F.ccCfg_MODE) (w.fld (Addr.ccValue k) F.ccValue_VALUE) a
    let u := w.setFld (Addr.ccValue k) F.ccValue_VALUE s.1
    w.ccAdd k a = ((if s.2 then u.setFlag (Addr.ccStatus k) F.ccStatus_SAT true else u).testRegs k, none) := by
  unfold ccAdd
  rw [h]

/-- A refused add (R265): its flag and its count. -/
theorem ccAdd_refused (w : Chip) (k a d : Nat) (h : w.pairRefusal k a = some d) :
    w.ccAdd k a = ((w.setFlag (Addr.ccStatus k) (if d = 0x200 then F.ccStatus_OVER else F.ccStatus_UNDER) true).bump
      (Addr.ccRefusedCount k), some d) := by
  unfold ccAdd
  rw [h]

/-- A wait whose condition is true is noted in its slot; nothing else changes. -/
theorem condTrue_slots (w : Chip) (n c : Nat) : w.condTrue n c = { w with slots := (w.condTrue n c).slots } := by
  unfold condTrue
  dsimp only
  split <;> rfl

theorem retest_slots (w : Chip) (n c : Nat) : w.retest n c = { w with slots := (w.retest n c).slots } := by
  unfold retest
  split
  · exact condTrue_slots w n c
  · rfl

theorem slots_trans {a b c : Chip} (h : b = { a with slots := b.slots }) (k : c = { b with slots := c.slots }) :
    c = { a with slots := c.slots } := by rw [k, h]

theorem retestCore_slots (w : Chip) (n : Nat) : w.retestCore n = { w with slots := (w.retestCore n).slots } := by
  have h : ∀ (l : List Nat) (w : Chip), l.foldl (fun w c => w.retest n c) w =
      { w with slots := (l.foldl (fun w c => w.retest n c) w).slots } := by
    intro l
    induction l with
    | nil => intro w; rfl
    | cons c r ih => intro w; exact slots_trans (retest_slots w n c) (ih _)
  exact h _ w

@[simp] theorem retestCore_rd (w : Chip) (n a : Nat) : (w.retestCore n).rd a = w.rd a := by rw [retestCore_slots]; rfl

@[simp] theorem retestCore_fld (w : Chip) (n a : Nat) (f : Fld) : (w.retestCore n).fld a f = w.fld a f := by simp [fld]

@[simp] theorem retestCore_flag (w : Chip) (n a : Nat) (f : Fld) : (w.retestCore n).flag a f = w.flag a f := by simp [flag]

/-- What a signal to a local counter does (R216, R259, R262). -/
theorem lcAdd_cases (w : Chip) (n k a : Nat) :
    let r := Addr.ctxLc n (k / 4) (k % 4)
    let s := addCount (w.flag r F.ctxLc_MODE) (w.fld r F.ctxLc_VALUE) a
    let u := w.setFld r F.ctxLc_VALUE s.1
    (w.slotState n (k / 4) = slEmpty ∧ w.lcAdd n k a = .refused (w.bump (Addr.seqSigRefused n))) ∨
    (w.slotState n (k / 4) = slSaving ∧ (w.slot n (k / 4)).quiesce = .write ∧ w.lcAdd n k a = .hold) ∨
    (w.slotState n (k / 4) ≠ slEmpty ∧ (w.slotState n (k / 4) = slSaving → (w.slot n (k / 4)).quiesce ≠ .write) ∧
      w.lcAdd n k a = .done ((if s.2 then u.setFlag r F.ctxLc_SAT true else u).retestCore n)) := by
  dsimp only
  unfold lcAdd
  dsimp only
  split
  · next h => exact .inl ⟨h, rfl⟩
  · next h =>
    split
    · next g =>
      simp only [Bool.and_eq_true, decide_eq_true_eq, beq_iff_eq] at g
      exact .inr (.inl ⟨g.1, g.2, rfl⟩)
    · next g =>
      simp only [Bool.and_eq_true, decide_eq_true_eq, beq_iff_eq, not_and] at g
      exact .inr (.inr ⟨h, g, rfl⟩)

end Chip

end Sys2Proof.Machine
end

