-- ==== Sys2Proof/WellFormed.lean ====
section
/-! DEFINITION. What the operands of a command may be: the numbers of units that the T64 has. -/

namespace Sys2Proof

/-- Cores 0 to 63 (R474). -/
def inCores (n : Nat) : Bool := decide (n < 64)
/-- Context slots 0 to 3 of a core. -/
def inSlots (n : Nat) : Bool := decide (n < 4)
/-- DMA channels 0 to 3 of a core. -/
def inChannels (n : Nat) : Bool := decide (n < 4)
/-- Mailbox channels 0 to 7. -/
def inMailboxes (n : Nat) : Bool := decide (n < 8)
/-- Link ports 0 to 7. -/
def inPorts (n : Nat) : Bool := decide (n < 8)
/-- Link ports 0 to 7, or 8: the chip itself (log entry 37). -/
def inPortsOrOwn (n : Nat) : Bool := decide (n < 9)
/-- Audio ports 0 to 2 (R504). -/
def inAudio (n : Nat) : Bool := decide (n < 3)
/-- Queues 0 to 16,383. -/
def inQueues (n : Nat) : Bool := decide (n < 16384)
/-- Local counters 0 to 15 of a core (R262). -/
def inLocal (n : Nat) : Bool := decide (n < 16)
/-- Chip counters 0 to 511. -/
def inCounters (n : Nat) : Bool := decide (n < 512)
/-- Event sources 0x000 to 0xFFE. -/
def inSources (n : Nat) : Bool := decide (n < 4095)
/-- Groups of 64 event sources. -/
def inMaskGroups (n : Nat) : Bool := decide (n < 64)
/-- Bank groups 0 to 3 of a core. -/
def inGroups (n : Nat) : Bool := decide (n < 4)
/-- Event targets 0 to 128 (R350). -/
def inTargets (n : Nat) : Bool := decide (n < 129)
/-- Virtual channels 0 to 3 of a link. -/
def inVcs (n : Nat) : Bool := decide (n < 4)
/-- GPIO pins 0 to 15. -/
def inPins (n : Nat) : Bool := decide (n < 16)
/-- Lanes 0 to 7 of a link port. -/
def inLanes (n : Nat) : Bool := decide (n < 8)
/-- The arbiters: remote ports and mesh entries of 64 cores, outputs of 8 link ports (Table ARB-1). -/
def inArbiters (n : Nat) : Bool := decide (n < 136)
/-- MSI-X vectors 0 to 63. -/
def inVectors (n : Nat) : Bool := decide (n < 64)
/-- Units of a matrix engine: loads, stores and arithmetic (R143). -/
def inUnits (n : Nat) : Bool := decide (n < 4)
/-- Origins of a doorbell: 0 PCIe, 1 QSPI target, 2 another pod member (Table STW-5). -/
def inOrigins (n : Nat) : Bool := decide (n < 3)
/-- Items of the PCIe configuration that the host writes. -/
def inConfig (n : Nat) : Bool := decide (n < 8)
/-- A list of `n` values. -/
def lenIs {α : Type} (l : List α) (n : Nat) : Bool := l.length == n
/-- Bloom lines 0 to 7, Aster barriers 0 to 63. -/
def inBarriers (aster : Bool) (n : Nat) : Bool := decide (n < (if aster then 64 else 8))
/-- The blocks with staged fields (Table ADR-4). -/
def inBlocks : CfgBlock → Bool
  | .bank n => decide (n < 64)
  | .link p => decide (p < 8)
  | .queue q => decide (q < 16384)
  | _ => true

/-- The operands of a command name units that exist. -/
def Instr.wellFormed : Instr → Bool
  | .resetNAssert _ => true
  | .resetNRelease => true
  | .pwrOkFall _ => true
  | .registerWrite _ => true
  | .readToClearRead _ => true
  | .sizeErrAccess _ => true
  | .rsvdAccess _ => true
  | .privWrite _ => true
  | .sleepAccess _ => true
  | .decLogRearm => true
  | .cfgCommit blk => inBlocks blk
  | .cfgCommitApply blk _ => inBlocks blk
  | .bankGrant core grp => inCores core && inGroups grp
  | .wheelAdvance core => inCores core
  | .groupAccessComplete core grp _ => inCores core && inGroups grp
  | .scrubWrite core grp => inCores core && inGroups grp
  | .starveDetect core grp => inCores core && inGroups grp
  | .arbiterGrant arb => inArbiters arb
  | .meshHop _ => true
  | .remoteReadAtHome _ => true
  | .remoteWriteAtHome _ => true
  | .invalidationRecordOpen core => inCores core
  | .atomicAdd _ => true
  | .readData _ => true
  | .writeAck _ => true
  | .snoopInv _ => true
  | .invAck _ => true
  | .notHeld _ => true
  | .evictNote _ => true
  | .broadSnoopInv _ => true
  | .broadcastComplete _ => true
  | .sweepComplete core => inCores core
  | .rlcFlush core => inCores core
  | .rlcDisable core => inCores core
  | .rlcFlushComplete core => inCores core
  | .fenceComplete core slot => inCores core && inSlots slot
  | .mxLoada core slot => inCores core && inSlots slot
  | .mxLoadw core slot => inCores core && inSlots slot
  | .mxBin core slot => inCores core && inSlots slot
  | .mxSer core slot => inCores core && inSlots slot
  | .mxStore core slot => inCores core && inSlots slot
  | .mxClear core slot => inCores core && inSlots slot
  | .mxWait core slot => inCores core && inSlots slot
  | .mxUnitStart core unit _ => inCores core && inUnits unit
  | .mxCommandComplete core unit => inCores core && inUnits unit
  | .mxWaitResume core slot => inCores core && inSlots slot
  | .vxOp core slot _ => inCores core && inSlots slot
  | .vxTable core slot _ => inCores core && inSlots slot
  | .vxScan core slot _ => inCores core && inSlots slot
  | .vxConvert core slot _ => inCores core && inSlots slot
  | .vxReduce core slot _ => inCores core && inSlots slot
  | .vxStep core _ => inCores core
  | .vxCommandComplete core => inCores core
  | .commandFetchComplete core slot => inCores core && inSlots slot
  | .misalignedCp core slot => inCores core && inSlots slot
  | .unknownOpcode core slot => inCores core && inSlots slot
  | .nop core slot => inCores core && inSlots slot
  | .endCommand core slot => inCores core && inSlots slot
  | .jump core slot => inCores core && inSlots slot
  | .call core slot => inCores core && inSlots slot
  | .ret core slot => inCores core && inSlots slot
  | .retOffsetRead core slot => inCores core && inSlots slot
  | .loop core slot => inCores core && inSlots slot
  | .endloop core slot => inCores core && inSlots slot
  | .yield core slot => inCores core && inSlots slot
  | .setreg core slot => inCores core && inSlots slot
  | .setregLoadData core slot => inCores core && inSlots slot
  | .branchIf core slot => inCores core && inSlots slot
  | .signal core slot => inCores core && inSlots slot
  | .wait core slot => inCores core && inSlots slot
  | .fence core slot => inCores core && inSlots slot
  | .bloomArrive core slot => inCores core && inSlots slot
  | .asterArrive core slot => inCores core && inSlots slot
  | .waitBarrier core slot => inCores core && inSlots slot
  | .dmaPost core slot => inCores core && inSlots slot
  | .dmaWait core slot => inCores core && inSlots slot
  | .queuePush core slot => inCores core && inSlots slot.slot && decide (slot.esize < 4)
  | .queuePop core slot => inCores core && inSlots slot
  | .eventRaise core slot => inCores core && inSlots slot
  | .deadlineSet core slot => inCores core && inSlots slot
  | .deadlineClear core slot => inCores core && inSlots slot
  | .timestamp core slot => inCores core && inSlots slot
  | .contextTake core slot => inCores core && inSlots slot
  | .waitSatisfied core slot => inCores core && inSlots slot
  | .seqOpStart core slot => inCores core && inSlots slot
  | .seqOpStop core slot => inCores core && inSlots slot
  | .seqOpSave core slot => inCores core && inSlots slot
  | .seqOpRestore core slot => inCores core && inSlots slot
  | .seqOpClear core slot => inCores core && inSlots slot
  | .quiesceComplete core slot => inCores core && inSlots slot
  | .saveImageWrite core slot => inCores core && inSlots slot
  | .restoreImageRead core slot => inCores core && inSlots slot
  | .deadlineMiss core slot => inCores core && inSlots slot
  | .asyncFaultRaise core slot => inCores core && inSlots slot
  | .localCounterAdd _ => true
  | .counterAdd _ _ => true
  | .counterSignalWrite counter _ => inCounters counter
  | .lcntSignalWrite core counter _ => inCores core && inLocal counter
  | .counterValueWrite counter _ _ => inCounters counter
  | .waitRegister _ => true
  | .registrationResend core slot => inCores core && inSlots slot
  | .waitNotify _ => true
  | .waitCancel core slot => inCores core && inSlots slot
  | .bloomArrivalApply _ => true
  | .barrierMaskWrite aster index _ _ => inBarriers aster index
  | .asterArrivalApply _ _ => true
  | .barrierArrive _ _ => true
  | .barrierRelease _ => true
  | .waitTimeout core slot => inCores core && inSlots slot
  | .queuePushPerform _ _ => true
  | .queuePushCommit queue => inQueues queue
  | .queuePopPerform _ => true
  | .queuePopDelivered queue => inQueues queue
  | .dbProdWrite queue _ => inQueues queue
  | .dbConsWrite queue _ => inQueues queue
  | .queueHoldSet queue => inQueues queue
  | .queueHoldRelease queue => inQueues queue
  | .dmaDescriptorFetch core chan => inCores core && inChannels chan
  | .dmaDescriptorStart core chan => inCores core && inChannels chan
  | .dmaTransactionIssue core chan => inCores core && inChannels chan
  | .dmaTransactionComplete core chan _ => inCores core && inChannels chan
  | .dmaCompletionAction core chan => inCores core && inChannels chan
  | .dmaHalt core chan => inCores core && inChannels chan
  | .dmaResume core chan => inCores core && inChannels chan
  | .dmaSkip core chan => inCores core && inChannels chan
  | .translationWalk _ => true
  | .translationWalkComplete _ => true
  | .htInvAll => true
  | .htInvPage => true
  | .htInvComplete => true
  | .hostReadCompletion _ _ _ _ => true
  | .completionTimeout _ => true
  | .sourceInputChange source => inSources source
  | .evtRaise source _ => inSources source
  | .pendSet source => inSources source
  | .pendClr source => inSources source
  | .evtMaskWrite group _ _ => inMaskGroups group
  | .eventSelect => true
  | .recordClaim queue _ => inQueues queue
  | .evtComplete source => inSources source
  | .holdoffExpiry group => inMaskGroups group
  | .coalesceTimerExpiry target => inTargets target
  | .eventMsg _ => true
  | .codewordReceive port _ => inPorts port
  | .flitReceive port => inPorts port
  | .replayTimeout port => inPorts port
  | .flitTransmit port => inPorts port
  | .creditInit port => inPorts port
  | .creditInitAck port => inPorts port
  | .remap port => inPorts port
  | .retrain port => inPorts port
  | .trainingSetReceived port _ => inPorts port
  | .trainingStageTimeout port => inPorts port
  | .lockAchieved port => inPorts port
  | .listenBackoffExpiry port => inPorts port
  | .lossOfSignal port lane => inPorts port && inLanes lane
  | .laneFailWindow port => inPorts port
  | .remapTimeout port => inPorts port
  | .quarHoldExpiry port => inPorts port
  | .lnkRetrainWrite port => inPorts port
  | .lnkReleaseWrite port => inPorts port
  | .lnkDisableWrite port _ => inPorts port
  | .transactionArrival port vc core _ => inPorts port && inVcs vc && inCores core
  | .nakNotReady port => inPorts port
  | .notReadyRetry _ => true
  | .epochStale port => inPorts port
  | .responseArrival port vc _ _ => inPorts port && inVcs vc
  | .flitForward port vc => inPortsOrOwn port && inVcs vc
  | .candidate port _ _ _ => inPorts port
  | .candidatePeriodicSend => true
  | .rootDeclare => true
  | .reportSend => true
  | .report port _ => inPorts port
  | .newEpoch port _ => inPorts port
  | .epochAck port _ => inPorts port
  | .linkEvent port evPort _ _ => inPortsOrOwn port && inPortsOrOwn evPort
  | .leave port _ => inPorts port
  | .timeSyncTimer => true
  | .timeSyncRequest port _ => inPorts port
  | .timeSyncReply port _ _ _ => inPorts port
  | .bootSelRead _ => true
  | .bootCtrlGo _ => true
  | .imageCheckComplete _ _ => true
  | .stewardReady => true
  | .mailboxDoorbell chan origin => inMailboxes chan && inOrigins origin
  | .mailboxCommandStart => true
  | .mailboxCommandDone chan => inMailboxes chan
  | .mailboxCommandTimeout chan => inMailboxes chan
  | .stewardException _ _ _ => true
  | .getInfo chan => inMailboxes chan
  | .getStatus chan => inMailboxes chan
  | .resetChip chan => inMailboxes chan
  | .loadImage chan => inMailboxes chan
  | .verifyImage chan => inMailboxes chan
  | .contextCreate chan => inMailboxes chan
  | .contextStart chan => inMailboxes chan
  | .contextStop chan => inMailboxes chan
  | .contextSave chan => inMailboxes chan
  | .contextRestore chan => inMailboxes chan
  | .contextQuery chan => inMailboxes chan
  | .queueCreate chan => inMailboxes chan
  | .queueDestroy chan => inMailboxes chan
  | .queueResize chan => inMailboxes chan
  | .memConfig chan => inMailboxes chan
  | .slotTableSet chan => inMailboxes chan
  | .syncConfig chan => inMailboxes chan
  | .barrierConfig chan _ => inMailboxes chan
  | .eventRoute chan => inMailboxes chan
  | .eventModerate chan => inMailboxes chan
  | .hostMap chan => inMailboxes chan
  | .hostUnmap chan => inMailboxes chan
  | .podStatus chan => inMailboxes chan
  | .podJoin chan => inMailboxes chan
  | .podLeave chan => inMailboxes chan
  | .linkConfig chan => inMailboxes chan
  | .powerSet chan => inMailboxes chan
  | .sleepEnter chan => inMailboxes chan
  | .sleepDrainTimeout => true
  | .corePower chan => inMailboxes chan
  | .monitorConfig chan => inMailboxes chan
  | .monitorRead chan => inMailboxes chan
  | .deadlinePolicy chan => inMailboxes chan
  | .faultLogRead chan => inMailboxes chan
  | .faultLogClear chan => inMailboxes chan
  | .audioConfig chan => inMailboxes chan
  | .firmwareUpdate chan => inMailboxes chan
  | .watchdogSet chan => inMailboxes chan
  | .window0Access _ _ _ _ => true
  | .lmApertureAccess _ _ _ _ => true
  | .podApertureAccess _ _ _ => true
  | .msiXUnmask vec => inVectors vec
  | .pcieD3hotEntry => true
  | .perstNAssert => true
  | .pcieLinkDown => true
  | .qspiRead _ _ _ => true
  | .qspiWrite _ _ => true
  | .qspiReadStatus => true
  | .qspiSetLines _ => true
  | .qspiInvalidCommand _ => true
  | .audioFrame port _ _ _ => inAudio port
  | .audioLineWriteComplete port => inAudio port
  | .pmbusPoll => true
  | .pmbusTransactionEnd _ => true
  | .i2cTargetWrite _ => true
  | .i2cTargetRead _ => true
  | .gpioPinChange pin _ => inPins pin
  | .gpioFilterExpiry pin => inPins pin
  | .jtagExtest _ => true
  | .jtagIdcode => true
  | .jtagSamplePreload _ _ => true
  | .jtagBypass _ => true
  | .speedIndexUpdate core sepal _ => lenIs core 16 && lenIs sepal 2
  | .adaptiveStep => true
  | .thermalSample temps => lenIs temps 8
  | .thermalCeilingStep => true
  | .thermalTrip => true
  | .brownout => true
  | .wakeAccept => true
  | .vcoreOk => true
  | .vcoreOkTimeout => true
  | .powerGateStage => true
  | .wakeLmZeroComplete => true
  | .wakeRestoreComplete => true
  | .regulatorUpdate => true
  | .spxFloorRearm => true
  | .tjPeakRearm => true
  | .refclkLoss => true
  | .holdoverEnd => true
  | .snapshotBoundary => true
  | .irisSnapGo => true
  | .watchdogFeed => true
  | .watchdogExpiry => true
  | .watchdogSnapshot => true
  | .wdRelease _ => true
  | .journalEntryWrite => true
  | .pwrOkRise => true
  | .pcieLinkUp _ _ => true
  | .pcieConfigWrite item _ => inConfig item
  | .watchdogWarning => true

end Sys2Proof
end

