-- ==== Sys2Proof/Tests/Slice0.lean ====
section
/-! SUPPORT. The model's own tests: ill-formed commands that the checks refuse, worked examples of the spec, and for each
statement states and operands that meet its hypotheses. -/

namespace Sys2Proof.Tests

open Sys2Proof Sys2Proof.Machine

set_option maxRecDepth 20000
set_option Elab.async false

/-- A READY chip. -/
def up : Chip := (({} : Chip).setPhase 4).setFlag Addr.stwStatus F.stwStatus_READY true

/-- A state whose block is `w`. -/
def st (w : Chip) : State := { State.reset with w := w }

/-- The block after a command. -/
def after (c : Instr) (s : State) : Chip := match exec c s with | .next t => t.w | _ => {}

/-- The LM after a command. -/
def memAfter (c : Instr) (s : State) : List Host.Cell := match exec c s with | .next t => t.mem | _ => []

/-- Of the listed registers only those at `as` differ. -/
def kept (w v : Chip) (as : List Nat) : Bool :=
  (w.regs ++ v.regs).all fun p => as.contains p.1 || v.rd p.1 == w.rd p.1

/-- One ill-formed command for each check of the operands: each is refused. -/
theorem test_ill_formed :
    ([.wait 64 0, .wait 0 4, .dmaHalt 0 4, .linkConfig 8, .lossOfSignal 8 0, .audioFrame 3 0 [] false, .dbProdWrite 16384 ⟨0, .steward⟩,
      .lcntSignalWrite 0 16 1, .counterSignalWrite 512 1, .pendSet 4095, .evtMaskWrite 64 false 0, .scrubWrite 0 4,
      .coalesceTimerExpiry 129, .flitForward 9 0, .flitForward 0 4, .gpioPinChange 16 true, .lossOfSignal 0 8, .arbiterGrant 136,
      .msiXUnmask 64, .mxCommandComplete 0 4, .mailboxDoorbell 0 3, .pcieConfigWrite 8 0, .thermalSample [],
      .barrierMaskWrite true 64 0 [], .barrierMaskWrite false 8 0 [], .cfgCommit (.bank 64), .cfgCommit (.link 8),
      .cfgCommit (.queue 16384)] : List Instr).map Instr.wellFormed = List.replicate 28 false := by decide

/-- The same commands at the last number of each range are well formed. -/
theorem test_well_formed :
    ([.wait 63 3, .dmaHalt 63 3, .linkConfig 7, .lossOfSignal 7 7, .audioFrame 2 0 [] false, .dbProdWrite 16383 ⟨0, .steward⟩,
      .lcntSignalWrite 63 15 1, .counterSignalWrite 511 1, .pendSet 4094, .evtMaskWrite 63 false 0, .scrubWrite 63 3,
      .coalesceTimerExpiry 128, .flitForward 8 3, .gpioPinChange 15 true, .arbiterGrant 135, .msiXUnmask 63,
      .mxCommandComplete 63 3, .mailboxDoorbell 7 2, .pcieConfigWrite 7 0, .thermalSample (List.replicate 8 20),
      .barrierMaskWrite true 63 0 [], .barrierMaskWrite false 7 0 [], .cfgCommit (.bank 63), .cfgCommit (.link 7),
      .cfgCommit (.queue 16383)] : List Instr).map Instr.wellFormed = List.replicate 25 true := by decide

/-- The machine after reset meets the invariant; its queue is empty and it is live. -/
theorem wit_general : memWf State.reset.mem = true ∧ State.reset.pending = [] ∧ State.reset.w.live = true := by decide +kernel

/-- A step on an empty queue is one tick. -/
theorem wit_tick :
    (match step State.reset with | .next t => decide (t.w.time = 1 ∧ t.mem = [] ∧ t.pending = []) | _ => false) = true := by
  decide +kernel

/-- A reset pin stops the logic. -/
theorem wit_not_live : ({ pins := { resetN := false } } : Chip).live = false := by decide +kernel

/-- The command at the front is performed and leaves the rest of the queue. -/
theorem wit_front :
    (match step { State.reset with pending := [.pendSet 5, .pendSet 6] } with
      | .next t => decide (t.pending = [.pendSet 6]) | _ => false) = true := by decide +kernel

theorem wit_reset_pins :
    let w := { up with time := 77, io := { up.io with gpioLevel := 5 } }.setReg (Addr.snapHdr 0) 9
    let v := after (.resetNAssert 10000) (st w)
    v.rd Addr.stwStatus = 0 ∧ v.rd (Addr.snapHdr 0) = 9 ∧ v.rd Addr.gpioIn = 5 ∧ v.time = 0 ∧ v.pins.resetN = false ∧
    (after .resetNRelease (st v)).pins.resetN = true ∧ (after (.pwrOkFall 10000) (st w)).pins.pwrOk = false ∧
    (after .pwrOkRise (st (after (.pwrOkFall 10000) (st w)))).live = true := by decide +kernel

/-- A chip in its ROM phase, 5 ms after its release. -/
def rom : Chip := { time := 5000000 }

theorem wit_boot_sel :
    rom.phase = 0 ∧ (after (.bootSelRead 0) (st rom)).phase = 2 ∧ (after (.bootSelRead 1) (st rom)).phase = 1 ∧
    (after (.bootSelRead 2) (st rom)).phase = 1 ∧ (after (.bootSelRead 3) (st rom)).phase = 6 ∧
    (after (.bootSelRead 3) (st rom)).lState 7 = 0 := by decide

/-- A right image of 32 bytes: its header alone. -/
def image0 : List Byte :=
  [0x57, 0x46, 0x54, 0x56, 3, 9, 8, 7, 32, 0, 0, 0, 5, 0, 0, 0] ++ toLE 4 (crc32c []) ++ List.replicate 12 0

theorem wit_boot_images :
    let w := after (.bootSelRead 0) (st rom)
    let a := after (.imageCheckComplete image0 []) (st w)
    let b := after (.imageCheckComplete [] image0) (st w)
    imageOf image0 image0.length = some ⟨3, 9, 8, 7, 5⟩ ∧ imageOf [] 0 = none ∧ a.phase = 3 ∧ b.phase = 3 ∧
    b.fld Addr.stwStatus F.stwStatus_SLOT = 1 ∧ a.fld Addr.stwVersion F.stwVersion_FW_MAJOR = 7 ∧
    (after (.imageCheckComplete [] []) (st w)).phase = 6 := by decide +kernel

theorem wit_boot_host :
    let w := after (.bootCtrlGo 31) (st (after (.bootSelRead 1) (st rom)))
    w.phase = 2 ∧ w.fld Addr.bootCtrl F.bootCtrl_LENGTH = 31 ∧ (after (.imageCheckComplete [] []) (st w)).phase = 1 ∧
    (after (.imageCheckComplete [] []) (st w)).flag Addr.stwStatus F.stwStatus_IMG_BAD = true := by decide +kernel

theorem wit_ready :
    let v := after .stewardReady (st (({} : Chip).setPhase 3))
    v.phase = 4 ∧ v.flag Addr.podCtrl F.podCtrl_MGMT_OPEN = true ∧ v.rd (Addr.wakeSrc 0) = 0x8FFE ∧
    v.cfgRd (Addr.srcRoute 0xFFE) = 0x8040 := by decide +kernel

/-- An access of the steward. -/
def byStw (a len : Nat) (write : Bool) (v : Nat) : DevAcc := ⟨.steward, a, len, write, v⟩

theorem wit_device_hand :
    up.live = true ∧ up.devAcc? (byStw 0x427F001 4 false 0) = some (byStw 0x427F001 4 false 0) ∧
    up.devClass 0x427F001 4 = 0 ∧ up.devClass 0x7000000 4 = 3 ∧ up.devClass 0x6000000 4 = 1 ∧ up.devClass 0x603FFFC 4 = 1 ∧
    (up.setReg Addr.corePwr 1).devClass 0x5040000 4 = 2 ∧ up.devClass Addr.i2ct 4 = 4 := by decide +kernel

/-- DEC_LOG of the worked example of R49: a PCIe write to 0x600_0000. -/
theorem test_privWrite_log :
    let w : Chip := { up with pcie := { linkUp := true, mse := true } }
    let v := after (.privWrite ⟨.pcie, 0x6000000, 4, true, 5⟩) (st w)
    v.rd Addr.decLog = 0x004111FF06000000 ∧ v.flag Addr.decStatus F.decStatus_PRIV_WRITE = true ∧
    v.fld Addr.decPrivCount ⟨31, 0⟩ = 1 ∧ kept w v [Addr.decStatus, Addr.decLog, Addr.decPrivCount] = true := by decide +kernel

theorem test_refused_accesses :
    let w := up.setReg Addr.corePwr 1
    let v := after (.sleepAccess (byStw 0x5040000 4 false 0)) (st (after (.rsvdAccess (byStw 0x7000000 8 true 1))
      (st (after (.sizeErrAccess (byStw 0x427F001 4 false 0)) (st w)))))
    v.flag Addr.decStatus F.decStatus_SIZE_ERR = true ∧ v.flag Addr.decStatus F.decStatus_RSVD_ACCESS = true ∧
    v.flag Addr.decStatus F.decStatus_SLEEP_ACCESS = true ∧ v.flag Addr.decStatus F.decStatus_PRIV_WRITE = false ∧ v.rd Addr.decRsvdCount = 2 ∧
    v.rd Addr.decLog = 0x004003FF0427F001 := by decide +kernel

theorem test_register_write :
    let v := after (.registerWrite (byStw Addr.i2ct 4 true 0xFFFFFFFF)) (st up)
    v.rd Addr.i2ct = 0xFF ∧ v.flag Addr.hostCfgState F.hostCfgState_DIRTY = true ∧
    v.committed = up.committed ∧ kept up v [Addr.i2ct, Addr.hostCfgState] = true := by decide +kernel

theorem wit_register_write_locked :
    let w := up.setSlotState 63 3 2
    let a := byStw (Addr.ctxCp 63 3) 8 true 0x80
    w.devAcc? a = some a ∧ w.devClass a.addr 8 = 4 ∧ Chip.asOne a.addr 8 = true ∧
    (regAt? a.addr).map (fun r => (r.2.1, r.2.2)) = some (a.addr, 0) ∧ Chip.ctxRegOf a.addr = some (63, 3) ∧
    (after (.registerWrite a) (st w)).cp 63 3 = 0 ∧
    kept w (after (.registerWrite a) (st w)) [Addr.ctxStatus 63 3] = true := by decide +kernel

theorem test_read_clears :
    let w := up.setReg Addr.decPrivCount 0x01020304
    let v := after (.readToClearRead ⟨.qspi, Addr.decPrivCount, 4, false, 0⟩) (st w)
    v.rd Addr.decPrivCount = 0 ∧ v.io.qtOut = [4, 3, 2, 1] ∧ kept w v [Addr.decPrivCount] = true := by decide +kernel

/-- A chip whose Iris unit 31 has a sample. -/
def withIris : Chip :=
  ({ up with time := 5000 }.setIris 31 { min := -3, max := 4, count := 2, sum := 1 }).setReg Addr.irisSnap (2 ^ 31 + 2 ^ 32)

theorem wit_iris_snapshot :
    let w := after .irisSnapGo (st withIris)
    let v := after .snapshotBoundary (st w)
    w.flag Addr.irisSnap F.irisSnap_BUSY = true ∧ v.flag Addr.irisSnap F.irisSnap_BUSY = false ∧
    v.rd (Addr.irisMin 31) = 2 ^ 64 - 3 ∧ v.rd (Addr.irisMax 31) = 4 ∧ v.rd Addr.irisSnapTime = 5000 ∧
    v.irisLive 31 = {} ∧ v.rd (Addr.irisMin 0) = 0 := by decide +kernel

/-- A chip whose watchdog has run out. -/
def late : Chip := { up with time := 2000000000 }

theorem wit_watchdog_feed_and_expiry :
    late.wd.fedAt + late.wdPeriod / 4 ≤ late.time ∧ (after .watchdogFeed (st late)).wd.fedAt = 2000000000 ∧
    (after .watchdogExpiry (st late)).frozen = true ∧
    (after .watchdogExpiry (st late)).flag Addr.stwStatus F.stwStatus_READY = false ∧
    (after .watchdogExpiry (st late)).rd Addr.wdFired = 1 := by decide +kernel

theorem wit_watchdog_snapshot :
    let w := (after .watchdogExpiry (st late)).setFlag Addr.snapInfo F.snapInfo_VALID true
    let v := after .watchdogSnapshot (st w)
    w.allStopped = true ∧ w.flag Addr.wdCtrl F.wdCtrl_AUTO_RESET = false ∧ v.fld Addr.snapInfo F.snapInfo_LOST = 1 ∧
    v.wd.snapped = true ∧ w.snapHeader.headD 0 = 2000000000 := by
  decide +kernel

theorem wit_watchdog_release :
    let w := after .watchdogExpiry (st late)
    let v := after (.wdRelease false) (st w)
    v.phase = 2 ∧ v.frozen = false ∧ v.time = 2000000000 ∧ v.rd Addr.wdFired = 1 ∧
    (after (.wdRelease true) (st w)).phase = 3 := by decide +kernel

theorem wit_journal :
    let w := { up with jrnl := { up.jrnl with seen := [{ kind := 3 }], next := 7 } }.setFlag Addr.decStatus
      F.decStatus_LOG_VALID true
    let v := after .journalEntryWrite (st w)
    v.jrnl.entries = [(7, ({ kind := 3 }, 255))] ∧ v.jrnl.next = 8 ∧
    v.flag Addr.decStatus F.decStatus_LOG_VALID = false ∧
    (after .journalEntryWrite (st { up with jrnl := { up.jrnl with tap := [{ kind := 1, code := 9 }] } })).jrnl = {} ∧
    (after .journalEntryWrite (st { up with jrnl := { up.jrnl with tap := [{ kind := 1, code := 1 }] } })).jrnl.next = 1 ∧
    (after .journalEntryWrite (st { up with jrnl := { up.jrnl with
      seen := [{ kind := 5 }], recent := List.replicate 32 0 } })).rd Addr.jrnlStatus = 1 := by decide +kernel

/-- Core 63 of a chip presents one access of 8 bytes at LM offset `off` as DMA reader (or writer). -/
def oneAcc (kind : AccKind) (off : Nat) (data : List Byte) : Chip :=
  up.localAcc (.dma 63 0 0) 63 63 (if kind = .rd then 7 else 8) kind off data.length data

theorem wit_bank_grant_write :
    let w := oneAcc .wr 0x40000 [1, 2, 3, 4, 5, 6, 7, 8]
    let x : WordReq := ⟨1, 8, 0x40000, 8, 0, true⟩
    let m := memAfter (.bankGrant 63 1) (st w)
    w.runs 63 = true ∧ w.waitingReqs 63 1 = [8] ∧ w.freshWords 63 1 8 = [x] ∧ (w.acc 1).kind = .wr ∧
    lmGroup x.off = 1 ∧ w.slotted 63 1 = false ∧ memRead m (lmAddr 63 0x40000) 8 = [1, 2, 3, 4, 5, 6, 7, 8] ∧
    m.length = 8 ∧ ((after (.bankGrant 63 1) (st w)).acc 1).flying = 1 := by decide +kernel

theorem wit_bank_grant_partial_and_read :
    let w := oneAcc .wr 0xFFFFD [9, 8, 7]
    let v := after (.bankGrant 63 3) (st w)
    let r := oneAcc .rd 0 [0, 0]
    w.waitingReqs 63 3 = [8] ∧ w.freshWords 63 3 8 = [⟨1, 8, 0xFFFFD, 3, 0, true⟩] ∧
    (v.group 63 3).merges = [⟨8, 1, 0xFFFF8, [0, 0, 0, 0, 0, 9, 8, 7], false⟩] ∧ memAfter (.bankGrant 63 3) (st w) = [] ∧
    r.waitingReqs 63 0 = [7] ∧ ((after (.bankGrant 63 0) { st r with mem := memWrite [] (lmAddr 63 0) [6, 5] }).acc 1).data = [6, 5] := by
  decide +kernel

theorem wit_bank_cycle :
    let w := up.setCommitted (Addr.bgMode 63 3) 2
    let v := after (.wheelAdvance 63) (st w)
    w.slotted 63 3 = true ∧ v.fld (Addr.wheelPos 63) F.wheelPos_POS = 1 ∧ v.rd (Addr.bgLostSlots 63 3) = 1 ∧
    v.rd (Addr.bgLostSlots 63 0) = 0 ∧ v.cycle 63 = 1 := by decide +kernel

theorem wit_scrub_and_starve :
    let w := (up.setGroup 5 2 { scrub := some 0x80008, arbitrated := true, waits := [(9, 5)] }).setEcc (lmAddr 5 0x80008 / 8) 1
    let w := w.setReg (Addr.bgStarveLimit 5 2) 4
    let v := after (.scrubWrite 5 2) (st w)
    v.eccMask (lmAddr 5 0x80008 / 8) = 0 ∧ (v.group 5 2).scrub = none ∧
    (after (.starveDetect 5 2) (st w)).flag (Addr.bgStatus 5 2) F.bgStatus_STARVED = true ∧
    (after (.starveDetect 5 2) (st (w.setReg (Addr.bgStarveLimit 5 2) 5))).flag (Addr.bgStatus 5 2) F.bgStatus_STARVED = false := by
  decide +kernel

/-- A read granted two bank cycles ago, with the bits `mask` of its quarter in error at the grant. -/
def readGranted (mask : Nat) : Chip :=
  let w := (oneAcc .rd 0 (List.replicate 8 0)).setEcc (lmAddr 63 0 / 8) mask
  after (.wheelAdvance 63) (st (after (.wheelAdvance 63) (st (after (.bankGrant 63 0) (st w)))))

theorem wit_group_complete :
    let w := readGranted 0
    let v := after (.groupAccessComplete 63 0 []) (st w)
    let logged (m : Nat) : State := st ((readGranted m).setFlag (Addr.bgEccLog 63 0) F.bgEccLog_VALID true)
    let c := after (.groupAccessComplete 63 0 []) (logged 4)
    let u := after (.groupAccessComplete 63 0 []) (logged 5)
    w.cycle 63 = 2 ∧ (w.acc 1).flying = 1 ∧ (v.acc 1).done = true ∧ (v.group 63 0).flying = [] ∧
    (c.acc 1).done = true ∧ c.rd (Addr.bgCeCount 63 0) = 1 ∧ (u.acc 1).fault = 0x0F ∧ u.rd (Addr.bgUeCount 63 0) = 1 := by
  decide +kernel

theorem wit_commit_power :
    let w := up.setReg (Addr.wakeSrc 7) 0x8ABC
    let c := after (.cfgCommit .power) (st w)
    let v := after (.cfgCommitApply .power 0) (st c)
    w.blockUp .power = true ∧ c.cfgPending .power = true ∧ c.copied = [(Addr.wakeSrc 7, 0x8ABC)] ∧
    (after (.cfgCommit .power) (st c)).flag Addr.pwrCfgState F.pwrCfgState_LOST_COMMIT = true ∧
    v.cfgPending .power = false ∧ v.cfgRd (Addr.wakeSrc 7) = 0x8ABC ∧ v.fld Addr.pwrCfgState F.pwrCfgState_GEN = 1 ∧
    kept w v [Addr.pwrCfgState] = true := by decide +kernel

theorem wit_commit_other_blocks :
    let w := { up with time := 1000 }
    let go (b : CfgBlock) (u : Nat) : Chip := after (.cfgCommitApply b u) (st (after (.cfgCommit b) (st w)))
    (go (.link 7) 0).fld (Addr.lnkCfgState 7) F.bgCfgState_GEN = 1 ∧ (go .pod 0).fld Addr.podCfgState F.bgCfgState_GEN = 1 ∧
    (go .events 0).fld Addr.evtCfgState F.bgCfgState_GEN = 1 ∧ (go .iris 0).fld Addr.irisCfgState F.bgCfgState_GEN = 1 ∧
    (go (.queue 16383) 0).fld (Addr.qCfgState 16383) F.bgCfgState_GEN = 1 ∧
    (go .host 3).io.unitsDone = [3] ∧ (go .host 4).cfgPending .host = true := by decide +kernel

theorem wit_commit_bank :
    let w := after (.cfgCommit (.bank 63)) (st (up.setReg (Addr.bgMode 63 0) 1))
    let w := (List.range 8).foldl (fun (w : Chip) _ => after (.wheelAdvance 63) (st w)) w
    w.atCommitPoint (.bank 63) = true ∧ (after (.cfgCommitApply (.bank 63) 0) (st w)).shared 63 0 = true := by decide +kernel

theorem wit_mesh_hop :
    let w := up.send (.core 0) (.core 9) 1 { op := .write, data := [1] }
    let w := after (.arbiterGrant 64) (st w)
    let v := after (.meshHop 1) (st w)
    let x := after (.meshHop 1) (st v)
    w.net.flits = [⟨1, 0, some (0, 1)⟩] ∧ v.net.flits = [⟨1, 1, none⟩] ∧ x.net.flits = [] ∧
    (x.msgRec? 1).map (fun r => r.stage) = some .portQ := by decide +kernel

/-- A message that has come to core `h`'s remote port and been admitted there, or stands elsewhere. -/
def placed (w : Chip) (id : Nat) (dst : Place) (stage : Stage) (m : Msg) : Chip :=
  { w with nextId := id + 1 }.setMsg id { msg := m, src := .core 1, dst := dst, cls := 0, stage := stage, stamp := id }

theorem wit_arbiter :
    let w := placed up 5 (.core 63) .portQ { op := .atomicAdd, arg := 2 }
    let w := w.setMsg 5 { ((w.msgRec? 5).getD ⟨{ op := .read }, .hub, .hub, 0, .hub, 1, 0, 0, 0, 0⟩) with cls := 3 }
    let e := up.send (.core 63) (.core 0) 1 { op := .write, len := 128, data := List.replicate 128 1 }
    (w.atPort 63 3).length = 1 ∧ w.atPort 63 0 = [] ∧
    ((after (.arbiterGrant 63) (st w)).msgRec? 5).map (fun r => r.stage) = some .admitted ∧
    (e.atEntry 63 1).length = 1 ∧ ((after (.arbiterGrant 127) (st e)).msgRec? 1).map (fun r => r.sent) = some 1 ∧
    arbWinner portParams { wait := [(0, 32), (1, 33)], credit := [(3, 9)] } [3, 1, 0] = some 1 ∧
    arbWinner linkParams { credit := [(2, 5)], quota := [(2, 16)] } [2, 1] = some 1 := by decide +kernel

theorem wit_home_requests :
    let m : Msg := { op := .read, addr := 0x10003F, len := 1, uncached := true }
    let w := placed up 5 (.core 1) .admitted m
    let v := after (.remoteReadAtHome 5) (st w)
    let f := after (.remoteReadAtHome 5)
      (st (placed (up.setCommitted (Addr.bgMode 1 3) 1) 5 (.core 1) .admitted { op := .read, addr := 0x1FFFC0, len := 64 }))
    let x := after (.remoteWriteAtHome 5) (st (placed up 5 (.core 1) .admitted { op := .write, addr := 0x100000, len := 1, data := [7] }))
    let a := after (.atomicAdd 5) (st (placed up 5 (.core 1) .admitted { op := .atomicAdd, addr := 0x100008, len := 8, data := toLE 8 7 }))
    let bad := placed up 5 (.core 1) .portQ { op := .read, addr := 0x1C0000, len := 64 }
    w.mayServe 1 ⟨m, .core 1, .core 1, 0, .admitted, 1, 0, 0, 5, 0⟩ = true ∧ (v.acc 6).kind = .rd ∧ (v.acc 6).reqr = 9 ∧
    (f.cohOf 1).sf = [(511, [{ line := 16383, sharers := [⟨255, 0, 0⟩] }])] ∧ (x.acc 6).kind = .wr ∧ (a.acc 6).kind = .add ∧
    bad.portRefusal 1 { op := .read, addr := 0x1C0000, len := 64 } = 4 ∧
    ((after (.remoteReadAtHome 5) (st bad)).msgRec? 6).map (fun r => r.msg.status) = some 4 := by decide +kernel

/-- A core whose RLC holds the first line of core 1's LM. -/
def rlcOne : Chip := up.setCoh 3 { sets := [(0, [⟨lineOf 255 0x100000, List.replicate 64 1, 9, false⟩])] }

theorem wit_snoops :
    let m : Msg := { op := .snoopInv, addr := 0x100000, srcCore := 1, tid := 4, len := 64 }
    let v := after (.snoopInv 5) (st (placed rlcOne 5 (.core 3) .admitted m))
    let u := after (.snoopInv 5) (st (placed up 5 (.core 3) .admitted m))
    (v.cohOf 3).sets = [] ∧ (v.msgRec? 6).map (fun r => (r.msg.op, r.msg.tid, r.msg.pos)) = some (.invAck, 4, 3) ∧
    v.rd (Addr.rlcSnoopHits 3) = 1 ∧ (u.msgRec? 6).map (fun r => r.msg.op) = some .notHeld ∧
    u.rd (Addr.rlcSnoopMisses 3) = 1 := by decide +kernel

/-- Core 1 with a record open for its line 0, of which cores 3 and 4 are to answer. -/
def recOne (left : List (Nat × Nat)) : Chip :=
  up.setCoh 1 { sf := [(0, [{ line := 0, sharers := [⟨255, 3, 9⟩, ⟨255, 4, 8⟩], inv := true }])]
                recs := [⟨4, 0, left, [(255, 3), (255, 4)], false, false⟩] }

theorem wit_snoop_answers :
    let m (op : Op) : Msg := { op := op, tid := 4, pos := 3 }
    let v := after (.invAck 5) (st (placed (recOne [(255, 3), (255, 4)]) 5 (.core 1) .admitted (m .invAck)))
    let x := after (.notHeld 5) (st (placed (recOne [(255, 3)]) 5 (.core 1) .admitted (m .notHeld)))
    let l := after (.invAck 5) (st (placed up 5 (.core 1) .admitted (m .invAck)))
    (v.cohOf 1).recs.map (fun r => r.left) = [[(255, 4)]] ∧ (x.cohOf 1).recs = [] ∧ (x.cohOf 1).sf = [] ∧
    l.rd (Addr.sfLateCount 1) = 1 := by decide +kernel

theorem wit_evict_and_record :
    let e : SfEntry := { line := 0, sharers := [⟨255, 3, 9⟩, ⟨255, 4, 8⟩] }
    let w := up.setCoh 1 { sf := [(0, [e])], waiting := [⟨0, some 7⟩] }
    let v := after (.evictNote 5) (st (placed w 5 (.core 1) .admitted { op := .evictNote, addr := 0x100000, srcCore := 3, fillTag := 9 }))
    let o := after (.invalidationRecordOpen 1) (st w)
    (v.cohOf 1).sf = [(0, [{ line := 0, sharers := [⟨255, 4, 8⟩] }])] ∧ (o.cohOf 1).waiting = [] ∧
    (o.cohOf 1).recs.map (fun r => (r.line, r.left)) = [(0, [(255, 3), (255, 4)])] ∧ (o.acc 7).recd = [0] ∧
    (after (.evictNote 5) (st (placed up 5 (.core 1) .admitted { op := .evictNote, addr := 0x100000 }))).rd (Addr.sfLateCount 1) = 1 ∧
    ((after (.invalidationRecordOpen 1) (st ((recOne []).setCoh 1 { (recOne []).cohOf 1 with waiting := [⟨0, some 7⟩] }))).acc 7).recd = [4] := by
  decide +kernel

theorem wit_flush_and_sweep :
    let v := after (.rlcFlush 3) (st rlcOne)
    let d := after (.rlcDisable 3) (st (rlcOne.setFlag (Addr.rlcCtrl 3) F.rlcCtrl_ENABLE true))
    let c := after (.rlcFlushComplete 3) (st { v with net := {} })
    let s := after (.sweepComplete 3) (st (up.setCoh 3 { sweep := [0, 3] }))
    (v.cohOf 3).sets = [] ∧ v.rd (Addr.rlcEvicts 3) = 1 ∧ d.flag (Addr.rlcStatus 3) F.rlcStatus_FLUSHING = true ∧
    c.flag (Addr.rlcStatus 3) F.rlcStatus_FLUSHING = false ∧ (s.cohOf 3).sweep = [] := by decide +kernel

theorem wit_broadcast :
    let w := (placed up 5 .hub .hub { op := .snoopInv, arg := 1, tid := 2 }).setReg Addr.corePwr (2 ^ 63 + 1)
    let v := after (.broadSnoopInv 5) (st w)
    let c := after (.broadcastComplete 9) (st { up with net := { up.net with bcast := [⟨9, { op := .snoopInv, tid := 2 }, []⟩] } })
    v.net.bcast.map (fun b => (b.id, b.left)) = [(6, [0, 63])] ∧ c.net.bcast = [] ∧
    (c.msgRec? 1).map (fun r => (r.msg.op, r.msg.arg, r.msg.tid)) = some (.invAck, 1, 2) := by decide +kernel

/-- Slot `c` of core `n` is ACTIVE at offset 0, and its fetch buffer holds the words `l`. -/
def running (n c : Nat) (l : List Nat) (w : Chip := up) : Chip :=
  (w.setSlotState n c slActive).setSlot n c { fbuf := l.flatMap (toLE 8) }

/-- The words of a command of core 63's slot 3 whose word 0 is `a` and word 1 `b`. -/
def cmd (a : Nat) (b : Nat := 0) : Chip := running 63 3 [a, b, 0, 0, 0, 0, 0, 0, 0, 0, 0, 0, 0, 0, 0, 0]

theorem wit_fetch_and_faults :
    let w := { (up.setSlotState 63 3 slActive).localAcc (.fetch 63 3) 63 63 1 .rd 0 128 [] with net := {} }
    let w := (w.setAcc 1 { w.acc 1 with done := true, data := List.replicate 128 7 }).setSlot 63 3 { fetch := some 1 }
    let m := (cmd 0).setCp 63 3 4
    let f := after (.misalignedCp 63 3) (st (m.setReg (Addr.ctxFsp 63 3) 0xFF03F00080))
    let u := after (.unknownOpcode 63 3) (st ((cmd (0xFF * 2 ^ 56)).setReg (Addr.ctxFsp 63 3) 3))
    (((after (.commandFetchComplete 63 3) (st w)).slot 63 3).fbuf.length = 128) ∧ m.chosen 63 = some 3 ∧
    f.rd (Addr.ctxFsp 63 3) = 0xFF03F00040 ∧ (f.acc 1).data.take 2 = [3, 3] ∧ u.slotState 63 3 = slNoFrame ∧
    (after (.nop 63 3) (st (cmd 1))).rd (Addr.ctxFaultCount 63 3) = 1 ∧
    (((after (.asyncFaultRaise 63 3) (st ((cmd 0).setSlot 63 3 { faults := [{ code := 9, unit := 1 }] }))).slot 63 3).faults = []) ∧
    (after (.asyncFaultRaise 63 3) (st ((cmd 0).setSlot 63 3 { faults := [{ code := 9, unit := 1 }] }))).rd (Addr.ctxFaultCount 63 3) = 1 := by
  decide +kernel

theorem wit_control_commands :
    let op (k : Nat) : Nat := k * 2 ^ 56
    let stk := Addr.ctxCstack 63 3
    let c := after (.call 63 3) (st ((cmd (op 3 + 0x40)).setReg stk (0x1010 + 0x1000 * 2 ^ 20 + 0x1010 * 2 ^ 40)))
    let l := after (.loop 63 3) (st (cmd (op 5 + 0x40 + 2 * 2 ^ 20)))
    let e := after (.endloop 63 3) (st (running 63 3 [0, op 6] (l.setSlot 63 3 {})))
    (after (.nop 63 3) (st (cmd 0))).cp 63 3 = 8 ∧ (after (.jump 63 3) (st (cmd (op 2 + 0xFFFF8)))).cp 63 3 = 0xFFFF8 ∧
    (after (.jump 63 3) (st (cmd (op 2 + 4)))).rd (Addr.ctxFaultCount 63 3) = 1 ∧ c.cp 63 3 = 0x40 ∧ c.csp 63 3 = 0x1008 ∧
    (c.acc 1).data = toLE 8 8 ∧ l.loopDepth 63 3 = 1 ∧ l.fld (Addr.ctxLoop 63 3 0) F.ctxLoop_COUNT = 2 ∧ e.cp 63 3 = 8 ∧
    e.fld (Addr.ctxLoop 63 3 0) F.ctxLoop_COUNT = 1 := by
  decide +kernel

theorem wit_ret_yield_branch :
    let op (k : Nat) : Nat := k * 2 ^ 56
    let r := after (.ret 63 3) (st ((cmd (op 4)).setReg (Addr.ctxCstack 63 3) (0x1008 + 0x1010 * 2 ^ 40)))
    let w := r.setAcc 1 { r.acc 1 with done := true, data := toLE 8 0x80 }
    let v := after (.retOffsetRead 63 3) (st w)
    let b (k : Nat) : Chip := after (.branchIf 63 3) (st (cmd (op 9 + 0x80 + k * 2 ^ 24) 0))
    (r.slot 63 3).pend = some 1 ∧ v.cp 63 3 = 0x80 ∧ v.csp 63 3 = 0x1010 ∧
    ((after (.yield 63 3) (st ((running 63 2 [0] (cmd (op 7))).setFld (Addr.seqStatus 63) F.seqStatus_LAST 2))).slot 63 3).yieldFor = some [2] ∧
    (b 0).cp 63 3 = 0x80 ∧ (b 1).cp 63 3 = 16 ∧ (b 7).cp 63 3 = 0x80 := by
  decide +kernel

theorem wit_scratch_commands :
    let op (k : Nat) : Nat := k * 2 ^ 56
    let a := after (.setreg 63 3) (st (((cmd (op 8 + 7 + 16) 5)).setScratch 63 3 7 (2 ^ 64 - 2)))
    let l := after (.setreg 63 3) (st (cmd (op 8 + 64) 8))
    let d := after (.setregLoadData 63 3) (st (l.setAcc 1 { l.acc 1 with done := true, data := toLE 8 77 }))
    let s := after (.setreg 63 3) (st ((cmd (op 8 + 80) 8).setScratch 63 3 0 258))
    let f := after (.fence 63 3) (st ((cmd (op 0x12)).setSlot 63 3 { (cmd (op 0x12)).slot 63 3 with
      outs := [{ id := 4, chip := 255, own := true, srcCp := 0, word0 := 0, word1 := 0 }] }))
    a.scratch 63 3 7 = 3 ∧ a.cp 63 3 = 16 ∧ (l.slot 63 3).pend = some 1 ∧ l.cp 63 3 = 0 ∧ d.scratch 63 3 0 = 77 ∧
    d.cp 63 3 = 16 ∧ (s.acc 1).data = toLE 8 258 ∧ (f.slot 63 3).fence = some [4] ∧
    ((after (.fenceComplete 63 3) (st (f.setSlot 63 3 { f.slot 63 3 with outs := [] }))).slot 63 3).fence = none ∧
    (after (.timestamp 63 3) (st { cmd (op 0x72 + 1) with time := 99 })).scratch 63 3 1 = 99 := by
  decide +kernel

theorem wit_deadlines :
    let op (k : Nat) : Nat := k * 2 ^ 56
    let a := after (.deadlineSet 63 3) (st { cmd (op 0x70 + 2 ^ 54) 5 with time := 100 })
    let late := (({ cmd (op 0x71) with time := 106 } : Chip).setReg (Addr.ctxDeadline 63 3) 105).setReg (Addr.ctxSched 63 3) 6
    let m := after (.deadlineClear 63 3) (st late)
    a.deadline 63 3 = 105 ∧ a.dlArmed 63 3 = true ∧ m.dlMissed 63 3 = true ∧ (m.slot 63 3).quiesce = .abort ∧
    (after (.deadlineMiss 63 3) (st late)).dlMissed 63 3 = true ∧
    (after (.deadlineClear 63 3) (st (cmd (op 0x71)))).cp 63 3 = 8 := by
  decide +kernel

theorem wit_slot_operations :
    let stopped := up.setSlotState 63 3 slStopped
    let a := after (.seqOpStart 63 3) (st stopped)
    let p := after (.seqOpStop 63 3) (st (cmd 0))
    let q := after (.quiesceComplete 63 3) (st p)
    let v := after (.seqOpSave 63 3) (st (cmd 0))
    let r := after (.seqOpRestore 63 3) (st up)
    let e := after (.endCommand 63 3) (st (cmd (2 ^ 56)))
    a.slotState 63 3 = slActive ∧ (p.slot 63 3).quiesce = .stop ∧ p.flag (Addr.seqOp 63) F.seqOp_BUSY = true ∧
    q.slotState 63 3 = slStopped ∧ q.fld (Addr.ctxHdr 63 3) F.ctxHdr_STOP_CAUSE = 2 ∧ v.slotState 63 3 = slSaving ∧
    (after (.seqOpClear 63 3) (st stopped)).slotState 63 3 = slEmpty ∧ (r.acc 1).len = 512 ∧
    (after (.seqOpClear 63 3) (st up)).fld (Addr.seqOp 63) F.seqOp_RESULT = 1 ∧ e.slotState 63 3 = slStopped := by
  decide +kernel

theorem wit_save_and_restore :
    let w := (cmd 0).setSlot 63 3 { quiesce := .dma, savedState := 1 }
    let v := after (.saveImageWrite 63 3) (st w)
    let r := after (.seqOpRestore 63 3) (st up)
    let img := toLE 8 (1 + 256 + 7 * 2 ^ 16) ++ toLE 8 0x40 ++ List.replicate 496 0
    let d := after (.restoreImageRead 63 3) (st (r.setAcc 1 { r.acc 1 with done := true, data := img }))
    let b := after (.restoreImageRead 63 3) (st (r.setAcc 1 { r.acc 1 with done := true }))
    (v.acc 1).data.length = 512 ∧ (v.slot 63 3).quiesce = .write ∧ d.slotState 63 3 = slStopped ∧ d.cp 63 3 = 0x40 ∧
    d.ctxId 63 3 = 7 ∧ b.fld (Addr.seqOp 63) F.seqOp_RESULT = 3 := by
  decide +kernel

/-- Core 63 with a queue of one matrix command, and an engine state. -/
def mxWith (q : MxCmd) (m : Mx := {}) : Chip := up.setMx 63 { m with queue := [q] }

theorem wit_matrix_issue :
    let op (k : Nat) : Nat := k * 2 ^ 56
    let here := 255 * 2 ^ 32 + 63 * 0x100000
    let l := after (.mxLoada 63 3) (st (cmd (op 0x21 + here + 0xFFE00) (63 + 2 ^ 16)))
    let k := after (.mxLoadw 63 3) (st (cmd (op 0x20 + here) (128 * 2 ^ 16)))
    let b := after (.mxBin 63 3) (st (cmd (op 0x22 + 63 + 127 * 2 ^ 8 + 2 ^ 16 + 256 * 2 ^ 24 + 2 ^ 54)))
    let z := after (.mxBin 63 3) (st (cmd (op 0x22 + 2 ^ 24)))
    let t := after (.mxStore 63 3) (st (cmd (op 0x24 + here + 0xFFC00) 3))
    let w := after (.mxWait 63 3) (st ((cmd (op 0x26)).setMx 63 { queue := [{ mxBlank with slot := 3, id := 9 }] }))
    (l.mxOf 63).queue.map (fun q => (q.op, q.blk, q.len)) = [(0x21, 63, 1)] ∧ l.cp 63 3 = 16 ∧
    (k.mxOf 63).queue.map (fun q => q.len) = [128] ∧ (b.mxOf 63).queue.map (fun q => (q.klast, q.wblk, q.init)) = [(256, 127, true)] ∧
    z.rd (Addr.ctxFaultCount 63 3) = 1 ∧ (t.mxOf 63).queue.map (fun q => q.set) = [3] ∧ w.slotState 63 3 = slWaiting ∧
    (w.slot 63 3).mxWait = [9] ∧ (after (.mxWaitResume 63 3) (st (w.setMx 63 {}))).slotState 63 3 = slActive ∧
    ((after (.mxSer 63 3) (st (cmd (op 0x23 + 8 * 2 ^ 16 + 8 * 2 ^ 24 + 8 * 2 ^ 28)))).mxOf 63).queue.map (fun q => (q.ba, q.bw)) = [(8, 8)] ∧
    ((after (.mxClear 63 3) (st (cmd (op 0x25 + 3 * 2 ^ 40)))).mxOf 63).queue.map (fun q => q.set) = [3] := by
  decide +kernel

theorem wit_matrix_units :
    let q : MxCmd := { mxBlank with id := 5, op := 0x21, slot := 3, blk := 1, len := 2, addr := 255 * 2 ^ 32 + 63 * 0x100000 }
    let a := after (.mxUnitStart 63 0 []) (st (mxWith q))
    let d := List.replicate 512 (0 : Byte) ++ List.replicate 512 1
    let b := after (.mxCommandComplete 63 0) (st (a.setAcc 1 { a.acc 1 with done := true, data := d }))
    let f := after (.mxCommandComplete 63 3) (st ((up.setMx 63 { runs := [⟨3, { q with op := 0x24 }, []⟩] })))
    let r := after (.mxUnitStart 63 0 []) (st ((mxWith { q with addr := 255 * 2 ^ 32 + 0x20 })))
    (a.acc 1).len = 1024 ∧ (a.mxOf 63).queue = [] ∧ zeroFlag (b.mxOf 63).aset 1 = true ∧ zeroFlag (b.mxOf 63).aset 2 = false ∧
    mxBlock (b.mxOf 63).abuf 2 = List.replicate 512 1 ∧ (b.mxOf 63).runs = [] ∧ (f.mxOf 63).runs = [] ∧ (r.acc 1).len = 32 ∧
    (after (.mxUnitStart 63 3 []) (st (mxWith { q with op := 0x24 })) |>.acc 1).data.length = 1024 := by
  decide +kernel

theorem wit_matrix_compute :
    let q : MxCmd := { mxBlank with id := 5, op := 0x22, slot := 3, chunks := 1, klast := 3, set := 2 }
    let v := after (.mxCommandComplete 63 2) (st (up.setMx 63 { runs := [⟨2, q, []⟩], abuf := [(0, 5 :: List.replicate 511 0)] }))
    (spGet (fun _ => zeroSet) (v.mxOf 63).accs 2).take 17 = List.replicate 16 (2 ^ 32 - 1) ++ [3] ∧ v.rd (Addr.mxSteps 63) = 5 ∧
    v.rd (Addr.mxCmdCount 63) = 1 ∧ (v.mxOf 63).runs = [] := by
  decide +kernel

theorem wit_vector_issue :
    let here := 255 * 2 ^ 32 + 63 * 0x100000
    let regs (w : Chip) : Chip := ((w.setScratch 63 3 1 here).setScratch 63 3 2 (here + 0x1000)).setScratch 63 3 3 (here + 0x2000)
    let go (i : Instr) (a b : Nat) : Chip := after i (st (regs (cmd a b)))
    let add := go (.vxOp 63 3 []) (0x30 * 2 ^ 56 + 2 * 2 ^ 8 + 2 ^ 12 + 2 * 2 ^ 16 + 3 * 2 ^ 24) 65536
    let tab := go (.vxTable 63 3 []) (0x31 * 2 ^ 56 + 2 ^ 12 + 3 * 2 ^ 24) 1
    let scan := go (.vxScan 63 3 []) (0x32 * 2 ^ 56 + 4 * 2 ^ 8 + 2 * 2 ^ 4 + 2 ^ 40 + 2 ^ 12 + 2 * 2 ^ 16 + 3 * 2 ^ 20) 1
    let cnv := go (.vxConvert 63 3 []) (0x33 * 2 ^ 56 + 2 * 2 ^ 4 + 2 ^ 12 + 3 * 2 ^ 24) 1
    let red := go (.vxReduce 63 3 []) (0x34 * 2 ^ 56 + 4 * 2 ^ 8 + 2 ^ 12 + 3 * 2 ^ 24) 1
    ((add.vxOf 63).map fun e => (e.steps, e.ins.length, e.dst)) = some (1024, 2, here + 0x2000) ∧ add.cp 63 3 = 0 ∧
    add.rd (Addr.vxSteps 63) = 3 ∧ ((tab.vxOf 63).map fun e => e.steps) = some 1 ∧
    ((scan.vxOf 63).map fun e => (e.carryOut, e.steps)) = some (here + 0x2000, 1) ∧
    ((cnv.vxOf 63).map fun e => e.outTy) = some 2 ∧ ((red.vxOf 63).map fun e => e.steps) = some 6 := by
  decide +kernel

theorem wit_vector_step_and_end :
    let here := 255 * 2 ^ 32 + 63 * 0x100000
    let e : VxCmd :=
      { op := 0x30, slot := 3, cp := 0x20, w0 := 0x30 * 2 ^ 56 + 2 ^ 53, w1 := 5 * 2 ^ 32 + 2, steps := 1
        ins := [{ base := here, bytes := 128, total := 2, next := 1 }], dst := here + 0x80 }
    let w := (up.setVx 63 (some e)).setAcc 0 { owner := .vx 63 0, core := 63, done := true, data := [250, 255] }
    let v := after (.vxStep 63 []) (st { w with nextId := 1 })
    let z := after (.vxCommandComplete 63) (st (v.setAcc 1 { v.acc 1 with done := true }))
    let f := after (.vxStep 63 []) (st (w.setAcc 0 { w.acc 0 with fault := 11 }))
    ({ w with nextId := 1 } : Chip).vxPresent 63 e = true ∧ ({ w with nextId := 1 } : Chip).vxGranted 63 e = true ∧
    (v.acc 1).data = [255, 4] ∧ (v.acc 1).addr = 63 * 0x100000 + 0x80 ∧ z.vxOf 63 = none ∧ z.cp 63 3 = 0x30 ∧
    z.rd (Addr.vxCmdCount 63) = 1 ∧ f.vxOf 63 = none ∧ f.flag (Addr.vxStatus 63) F.vxStatus_ERR = true := by
  decide +kernel

theorem wit_responses :
    let a : Acc := { owner := .retOff 63 3, parts := 2, remote := true, data := [0, 0, 0, 0] }
    let m (o : Op) : Msg := { op := o, acc := 7, pos := 1, data := [5, 6] }
    let w (o : Op) : Chip := (up.setAcc 7 a).setMsg 9 { msg := m o, src := .hub, dst := .core 63, cls := 0, stage := .resp }
    ((after (.readData 9) (st (w .readData))).acc 7).data = [0, 5, 6, 0] ∧
    ((after (.readData 9) (st (w .readData))).acc 7).parts = 1 ∧
    ((after (.writeAck 9) (st (w .writeAck))).acc 7).parts = 1 ∧ (after (.writeAck 9) (st (w .writeAck))).msgRec? 9 = none := by
  decide +kernel

theorem wit_sync_issue :
    let op (k : Nat) : Nat := k * 2 ^ 56
    let here := 255 * 2 ^ 40
    let s := after (.signal 63 3) (st (cmd (op 0x10 + here + 2 ^ 39 + 7 * 2 ^ 16 + 511)))
    let l := after (.signal 63 3) (st (cmd (op 0x10 + here + 63 * 2 ^ 32 + 7 * 2 ^ 16 + 15)))
    let w := after (.wait 63 3) (st (cmd (op 0x11 + here + 2 ^ 39) 5))
    let k := after (.wait 63 3) (st (cmd (op 0x11 + here + 63 * 2 ^ 32 + 15) 0))
    let e := after (.wait 63 3) (st (cmd (op 0x11 + here + 63 * 2 ^ 32) 0))
    ((s.msgRec? 2).map fun r => (r.dst, r.msg.addr, r.msg.data.take 1)) = some (.hub, Addr.ccSignal 511, [7]) ∧ s.cp 63 3 = 8 ∧
    (s.slot 63 3).outs.length = 1 ∧ ((l.msgRec? 2).map fun r => r.stage) = some .localOp ∧ w.slotState 63 3 = slWaiting ∧
    ((w.msgRec? 2).map fun r => r.msg.data.take 1) = some [5] ∧ (k.slot 63 3).notified = true ∧
    ((e.slot 63 3).faults.map fun f => f.code) = [9] ∧ e.rd (Addr.seqSigRefused 63) = 1 := by
  decide +kernel

theorem wit_barrier_issue :
    let op (k : Nat) : Nat := k * 2 ^ 56
    let b := after (.bloomArrive 63 3) (st ((cmd (op 0x13 + 2 ^ 54 + 2 ^ 4 + 7)).setReg (Addr.bloomState 7) 1))
    let a := after (.asterArrive 63 3) (st ((cmd (op 0x14 + 2 ^ 54 + 63)).setReg (Addr.asterState 63) 9))
    let w := after (.waitBarrier 63 3) (st (cmd (op 0x15 + 7 + 2 ^ 16)))
    let g := after (.waitBarrier 63 3) (st (cmd (op 0x15 + 63 + 2 ^ 8 + 65535 * 2 ^ 16)))
    ((b.msgRec? 2).map fun r => (r.msg.arg, r.msg.addr, r.msg.pos)) = some (1, 7, 2) ∧ b.cp 63 3 = 8 ∧
    ((a.msgRec? 2).map fun r => (r.msg.arg, r.msg.addr, r.msg.pos)) = some (2, 63, 1) ∧ (w.slot 63 3).notified = true ∧
    (g.slot 63 3).notified = true ∧ g.rd (Addr.ctxWaitTarget 63 3) = 65535 := by
  decide +kernel

theorem wit_wait_ends :
    let op (k : Nat) : Nat := k * 2 ^ 56
    let w := after (.wait 63 3) (st (cmd (op 0x11 + 255 * 2 ^ 40 + 2 ^ 39) 5))
    let n (arg : Nat) (w : Chip) : Chip := after (.waitNotify 50) (st (w.setMsg 50 { msg := { op := .waitNotify, arg := arg, srcSlot := 3, acc := 1 }, src := .hub, dst := .core 63, cls := 0, stage := .resp }))
    let f := (n 3 w).slot 63 3
    let a := after (.waitSatisfied 63 3) (st (n 1 w))
    let r := after (.registrationResend 63 3) (st { (n 3 w) with time := 256 })
    let c := after (.waitCancel 63 3) (st (w.setSlot 63 3 { cancel := some (2 ^ 39 + 255 * 2 ^ 40) }))
    let t := after (.waitTimeout 63 3) (st { w.setReg (Addr.ctxWdLimit 63 3) 1 with time := 1001 })
    f.resend = some 256 ∧ ((n 1 w).slot 63 3).notified = true ∧ a.slotState 63 3 = slActive ∧ (r.slot 63 3).resend = none ∧
    ((c.msgRec? 3).map fun m => m.msg.arg) = some 2 ∧ t.slotState 63 3 = slNoFrame ∧ t.rd (Addr.ctxFaultCount 63 3) = 1 := by
  decide +kernel

theorem wit_counters :
    let hub (m : Msg) (w : Chip) : Chip := w.setMsg 40 { msg := m, src := .core 63, dst := .hub, cls := 1, stage := .hub }
    let a := after (.counterAdd 40 0) (st (hub { op := .atomicAdd, arg := 2, addr := Addr.ccSignal 511, data := toLE 8 2 }
      (up.setReg (Addr.ccValue 511) (2 ^ 48 - 1))))
    let m : Msg := { op := .atomicAdd, arg := 2, addr := Addr.lcntSignal 63 15, data := toLE 8 2 }
    let l (w : Chip) : Chip := after (.localCounterAdd 40) (st (w.setMsg 40 { msg := m, src := .core 63, dst := .core 63, cls := 3, stage := .localOp }))
    let reg : Msg := { op := .waitNotify, addr := Addr.ccValue 5, data := toLE 8 9, srcCore := 63, srcSlot := 3 }
    let r := after (.waitRegister 40) (st (hub reg up))
    let v := after (.counterValueWrite 5 false 9) (st r)
    a.rd (Addr.ccValue 511) = 2 ^ 48 - 1 ∧ a.flag (Addr.ccStatus 511) F.ccStatus_SAT = true ∧
    (l (up.setSlotState 63 3 slActive)).rd (Addr.ctxLc 63 3 3) = 2 ∧ (l up).rd (Addr.seqSigRefused 63) = 1 ∧
    r.sync.regsHeld.length = 1 ∧ v.sync.regsHeld = [] ∧ v.rd (Addr.ccValue 5) = 9 ∧
    (after (.counterSignalWrite 5 3) (st v)).rd (Addr.ccValue 5) = 12 ∧
    (after (.lcntSignalWrite 63 15 3) (st (up.setSlotState 63 3 slActive))).rd (Addr.ctxLc 63 3 3) = 3 := by
  decide +kernel

theorem wit_counter_pair_refuses :
    let w := (up.setReg (Addr.ccCfg 4) 0).setFlag (Addr.ccCfg 4) F.ccCfg_PAIR_EN true
    let w := ((w.setFld (Addr.ccCfg 4) F.ccCfg_PARTNER 5).setFld (Addr.ccCfg 4) F.ccCfg_BOUND 1).setFld (Addr.ccCfg 5) F.ccCfg_PARTNER 4
    let w := ((w.setFlag (Addr.ccCfg 5) F.ccCfg_PAIR_EN true).setFld (Addr.ccCfg 5) F.ccCfg_BOUND 1).setFld (Addr.ccCfg 5) F.ccCfg_ROLE 1
    let v := after (.counterSignalWrite 4 2) (st w)
    w.pairRefusal 4 2 = some 0x200 ∧ v.rd (Addr.ccValue 4) = 0 ∧ v.rd (Addr.ccRefusedCount 4) = 1 ∧
    v.flag (Addr.ccStatus 4) F.ccStatus_OVER = true := by
  decide +kernel

theorem wit_barriers :
    let put (m : Msg) (w : Chip) : State := st (w.setMsg 40 { msg := m, src := .core 63, dst := .hub, cls := 1, stage := .hub })
    let arr (arg addr : Nat) : Msg := { op := .barrierArrive, arg := arg, srcCore := 63, addr := addr }
    let m := (up.setReg (Addr.bloomMask 7) (2 ^ 63)).setReg (Addr.asterMask 63) (2 ^ 63)
    let b := after (.bloomArrivalApply 40) (put (arr 1 7) m)
    let a := after (.asterArrivalApply 40 []) (put (arr 2 63) m)
    let x := after (.bloomArrivalApply 40) (put (arr 1 7) up)
    let c := after (.barrierArrive 40 []) (put { op := .barrierArrive, addr := Addr.asterMask 63, srcChip := 9 } m)
    let r := after (.barrierRelease 40) (put { op := .barrierRelease, addr := Addr.asterMask 63, srcChip := 9 } m)
    b.rd (Addr.bloomState 7) = 1 ∧ b.rd (Addr.bloomCompletions 7) = 1 ∧ b.rd (Addr.bloomArrived 7) = 0 ∧
    a.fld (Addr.asterState 63) F.asterState_GEN = 1 ∧ ((x.msgRec? 1).map fun r => (r.msg.status, r.msg.addr)) = some (9, 0x202) ∧
    spGet (fun _ => []) c.sync.children 63 = [9] ∧ r.fld (Addr.asterState 63) F.asterState_GEN = 1 ∧
    (after (.barrierMaskWrite false 7 5 []) (st m)).rd (Addr.bloomMask 7) = 5 := by
  decide +kernel

theorem wit_adds_saturate_and_wrap :
    let w := up.setReg (Addr.ccValue 511) (2 ^ 48 - 1)
    let wrapped := (w.setFlag (Addr.ccCfg 511) F.ccCfg_MODE true)
    let sat := after (.counterSignalWrite 511 2) (st w)
    let wr := after (.counterSignalWrite 511 2) (st wrapped)
    let exact := after (.counterSignalWrite 511 1) (st (up.setReg (Addr.ccValue 511) (2 ^ 48 - 2)))
    w.pairRefusal 511 2 = none ∧ sat.rd (Addr.ccValue 511) = 2 ^ 48 - 1 ∧
    sat.flag (Addr.ccStatus 511) F.ccStatus_SAT = true ∧ wr.rd (Addr.ccValue 511) = 1 ∧ wr.rd (Addr.ccStatus 511) = 0 ∧
    exact.rd (Addr.ccValue 511) = 2 ^ 48 - 1 ∧ exact.rd (Addr.ccStatus 511) = 0 := by decide +kernel

theorem wit_waits_met :
    let w := (((up.setSlotState 63 3 slWaiting).setFld (Addr.ctxSched 63 3) F.ctxSched_WAIT_KIND 1).setReg
      (Addr.ctxWaitArg 63 3) 15).setReg (Addr.ctxWaitTarget 63 3) 5
    let far := up.setFlag (Addr.ccCfg 0) F.ccCfg_MODE true
    let held := { far with sync := { far.sync with regsHeld := [(0, ⟨0, 2 ^ 47, { op := .waitNotify }⟩), (1, ⟨0, 2 ^ 47 + 1, { op := .waitNotify }⟩)] } }
    w.runs 63 = true ∧ w.pastLimit 63 3 w.time = false ∧
    ((after (.lcntSignalWrite 63 15 5) (st w)).slot 63 3).notified = true ∧
    ((after (.lcntSignalWrite 63 15 4) (st w)).slot 63 3).notified = false ∧
    (after (.counterValueWrite 0 false 0) (st held)).sync.regsHeld.map (fun p => p.1) = [0] := by decide +kernel

/-- Queue 5 of this chip: type `t`, two entries of 64 bytes at LM offset 0x100 of core 0, with its index word. -/
def queue5 (t index : Nat) (w : Chip := up) : Chip :=
  let w := (w.setCommitted (Addr.qQcfg 5) (putBits (putBits (putBits (w.cfgRd (Addr.qQcfg 5)) F.qQcfg_TYPE.hi F.qQcfg_TYPE.lo t)
    F.qQcfg_LOG.hi F.qQcfg_LOG.lo 1) F.qQcfg_ESIZE.hi F.qQcfg_ESIZE.lo 2)).setReg (Addr.qIndex 5) index
  w.setCommitted (Addr.qRingAddr 5) (255 * 2 ^ 32 + 0x100)

theorem wit_context_queue_commands :
    let op (k : Nat) : Nat := k * 2 ^ 56
    let p := after (.queuePush 63 ⟨3, 0⟩) (st (cmd (op 0x50 + 255 * 2 ^ 40 + 5 * 2 ^ 24 + 0xFFF80)))
    let f := after (.queuePush 63 ⟨3, 3⟩) (st (((cmd (op 0x50 + 4 * 2 ^ 40 + 5 * 2 ^ 24 + 0xFFF80)).setBoth
      Addr.podState (2 + 4 + 3 * 2 ^ 16)).setBoth (Addr.member 0) 16))
    let d := after (.dmaPost 63 3) (st (cmd (op 0x40 + 3 * 2 ^ 40 + 0xFFFC0)))
    let o := after (.queuePop 63 3) (st (cmd (op 0x51 + 255 * 2 ^ 40 + 16383 * 2 ^ 24 + 0x80)))
    let e := after (.eventRaise 63 3) (st (cmd (op 0x60 + 255 * 2 ^ 40 + 0x3FF) 7))
    let w := after (.dmaWait 63 3) (st (cmd (op 0x41 + 4)))
    (p.acc 1).len = 16 ∧ (f.acc 1).len = 128 ∧ p.cp 63 3 = 8 ∧ (d.acc 1).addr = 63 * 0x100000 + 0xFFFC0 ∧
    d.fld (Addr.ctxStatus 63 3) F.ctxStatus_DMA_OUT = 1 ∧ (d.slot 63 3).posted.map (fun p => p.chan) = [3] ∧
    ((o.msgRec? 2).map fun r => (r.msg.addr, r.msg.pos)) = some (16383, 0x80) ∧ o.cp 63 3 = 8 ∧
    ((e.msgRec? 2).map fun r => (r.msg.addr, r.msg.data.take 1)) = some (0x3FF, [7]) ∧ e.cp 63 3 = 16 ∧
    (w.slot 63 3).notified = true ∧ w.slotState 63 3 = slWaiting := by
  decide +kernel

theorem wit_context_take :
    let bound (w : Chip) : Chip :=
      ((running 63 3 [0] w).setReg (Addr.ctxQbind 63 3) 5).setFlag (Addr.ctxQbind 63 3) F.ctxQbind_BOUND true
        |>.setFlag (Addr.ctxQbind 63 3) F.ctxQbind_TAKE true
    let q (index : Nat) : Chip := let w := bound (queue5 1 index)
      w.setCommitted (Addr.qQcfg 5) (putBits (w.cfgRd (Addr.qQcfg 5)) F.qQcfg_BIND.hi F.qQcfg_BIND.lo (63 + 3 * 64))
    let t := after (.contextTake 63 3) (st (q 1))
    let done := (t.setAcc 1 { t.acc 1 with done := true, data := toLE 8 0x40 ++ toLE 8 9 })
    let v := after (.queuePopDelivered 5) (st done)
    (t.slot 63 3).taking = some 5 ∧ v.cp 63 3 = 0x40 ∧ v.scratch 63 3 7 = 9 ∧ v.qCons 5 = 1 ∧
    (after (.contextTake 63 3) (st (q 0))).slotState 63 3 = slWaiting ∧
    (after (.contextTake 63 3) (st (bound up))).slotState 63 3 = slNoFrame := by
  decide +kernel

theorem wit_push_and_pop :
    let put (o : Op) (w : Chip) : State := st (w.setMsg 40 { msg := { op := o, addr := 5, srcCore := 63, srcSlot := 3, acc := 30, data := List.replicate 128 7 }, src := .core 63, dst := .hub, cls := 1, stage := .hub })
    let a := after (.queuePushPerform 40 0) (put .queuePush (queue5 5 1))
    let k := (a.qOp? 5).map fun o => o.acc
    let d (w : Chip) : Chip := w.setAcc 1 { w.acc 1 with done := true, data := [1, 2] }
    let b := after (.queuePushCommit 5) (st (d a))
    let f := after (.queuePushPerform 40 0) (put .queuePush (queue5 5 2))
    let p := after (.queuePopPerform 40) (put .queuePop (queue5 5 1))
    let r := after (.queuePopPerform 40) (st (d p))
    let bad := after (.queuePushCommit 5) (st (a.setAcc 1 { a.acc 1 with done := true, fault := 10 }))
    k = some 1 ∧ b.qProd 5 = 2 ∧ (b.qOp? 5) = none ∧ f.rd (Addr.qRefusedCount 5) = 1 ∧
    ((r.qOp? 5).map fun o => o.data) = some [1, 2] ∧ bad.flag (Addr.qStatus 5) F.qStatus_RING_ERR = true ∧ bad.qProd 5 = 1 := by
  decide +kernel

theorem wit_doorbells :
    let m (f : Fld) (w : Chip) : Chip := w.setCommitted (Addr.qQcfg 5) (putBits (w.cfgRd (Addr.qQcfg 5)) f.hi f.lo 1)
    let w := m F.qQcfg_PMODE (m F.qQcfg_CMODE (queue5 5 1))
    let h := after (.queueHoldSet 5) (st w)
    let k := after (.dbProdWrite 5 ⟨2, .steward⟩) (st h)
    let r := after (.queueHoldRelease 5) (st k)
    (after (.dbProdWrite 5 ⟨2, .steward⟩) (st w)).qProd 5 = 2 ∧ (after (.dbProdWrite 5 ⟨3, .steward⟩) (st w)).rd (Addr.qDbBadCount 5) = 1 ∧
    (after (.dbConsWrite 5 ⟨1, .steward⟩) (st w)).qCons 5 = 1 ∧ (after (.dbConsWrite 5 ⟨2, .steward⟩) (st w)).rd (Addr.qDbBadCount 5) = 1 ∧
    h.qHeld 5 = true ∧ k.que.held.length = 1 ∧ k.qProd 5 = 1 ∧ r.qProd 5 = 2 ∧ r.que.held = [] ∧ r.qHeld 5 = false := by
  decide +kernel

theorem wit_event_requests :
    let put (m : Msg) (w : Chip) : State := st (w.setMsg 40 { msg := m, src := .core 63, dst := .hub, cls := 1, stage := .hub })
    let i := after (.sourceInputChange 0x910) (st { up with pcie := { up.pcie with linkUp := true } })
    let r := after (.evtRaise 0xAC0 7) (st up)
    let r2 := after (.evtRaise 0xAC0 8) (st r)
    let m := after (.eventMsg 40) (put { op := .eventMsg, addr := 0xFFE, data := toLE 4 9 } up)
    let c := after (.evtComplete 0xAC0) (st (r2.setEvSrc 0xAC0 { r2.evSrc 0xAC0 with state := 3 }))
    (i.evSrc 0x910).sensed = true ∧ (i.evSrc 0x910).state = 1 ∧ (r.evSrc 0xAC0).payload = 7 ∧ (r2.evSrc 0xAC0).rep = 1 ∧
    (m.evSrc 0xFFE).payload = 9 ∧ (c.evSrc 0xAC0).state = 1 ∧ (c.evSrc 0xAC0).payload = 8 ∧
    ((after (.pendClr 0xAC0) (st r)).evSrc 0xAC0).state = 0 ∧ ((after (.pendSet 0x910) (st up)).evSrc 0x910).state = 1 ∧
    (after (.evtMaskWrite 63 false 1) (st up)).rd (Addr.evtMask 63) = 2 ^ 64 - 2 ∧
    (after (.evtRaise 5 0) (st up)).flag Addr.evtStatus F.evtStatus_BAD_RAISE = true ∧
    ((after .watchdogWarning (st { (up.setReg Addr.wdCfg 10) with time := 9000000 })).evSrc 0xA81).sensed = true := by
  decide +kernel

theorem wit_event_selection :
    let w := (queue5 3 0).setCommitted (Addr.qQcfg 5)
      (putBits ((queue5 3 0).cfgRd (Addr.qQcfg 5)) F.qQcfg_BIND.hi F.qQcfg_BIND.lo 7)
    let w := ((w.setCommitted (Addr.srcRoute 0xAC0) (2 ^ 15 + 7)).setReg (Addr.evtMask 43) 0).setReg Addr.corePwr 255
    let a := after .eventSelect (st (w.edgeEvent 0xAC0 3))
    let k := (a.qOp? 5).map fun o => o.acc
    let b := after (.recordClaim 5 0) (st (a.setAcc 2 { a.acc 2 with done := true }))
    let f := after (.recordClaim 5 0) (st (a.setAcc 2 { a.acc 2 with done := true, fault := 10 }))
    let full := after .eventSelect (st ((w.setReg (Addr.qIndex 5) 2).edgeEvent 0xAC0 3))
    (a.evSrc 0xAC0).state = 2 ∧ k = some 2 ∧ b.qProd 5 = 1 ∧ (b.evSrc 0xAC0).state = 3 ∧ b.tgtInt 7 = true ∧
    (f.evSrc 0xAC0).state = 1 ∧ f.flag (Addr.tgtStatus 7) F.tgtStatus_ERR = true ∧ full.rd (Addr.tgtStalls 7) = 1 ∧
    (after (.holdoffExpiry 3) (st { up with evt := { up.evt with holdEnd := [(3, 0)] } })).evt.holdEnd = [] ∧
    (after (.coalesceTimerExpiry 7) (st (up.setEvTgt 7 { timer := some 0 }))).tgtInt 7 = true := by
  decide +kernel

/-- A descriptor that copies 64 bytes from LM offset 0x100 of core 63 to offset 0x200 of the same core. -/
def desc64 : Desc :=
  { uid := 9, words := [255 * 2 ^ 32 + 63 * 0x100000 + 0x100, 255 * 2 ^ 32 + 63 * 0x100000 + 0x200, 63, 0, 0, 0, 0, 5] }

theorem wit_dma_transfer :
    let w (d : Desc) : Chip := (up.setChan 63 3 { cur := some d }).setChState 63 3 1
    let a := after (.dmaDescriptorStart 63 3) (st (w desc64))
    let b := after (.dmaTransactionIssue 63 3) (st a)
    let done (id : Nat) (f : Nat) (v : Chip) : Chip := v.setAcc id { v.acc id with done := true, fault := f }
    let c := after (.dmaTransactionComplete 63 3 1) (st (done 1 0 b))
    let d := after (.dmaTransactionComplete 63 3 1) (st (done 2 0 c))
    let e := after (.dmaCompletionAction 63 3) (st d)
    let f := after (.dmaTransactionComplete 63 3 1) (st (done 1 11 b))
    let h := after (.dmaHalt 63 3) (st f)
    let bad := after (.dmaDescriptorStart 63 3) (st (w { desc64 with words := [0, 0, 2 ^ 63] }))
    ((a.chan 63 3).cur.map fun d => (d.started, d.overlap)) = some (true, false) ∧ (b.acc 1).addr = 63 * 0x100000 + 0x100 ∧
    (b.acc 1).len = 64 ∧ (c.acc 2).addr = 63 * 0x100000 + 0x200 ∧ d.rd (Addr.chBytes 63 3) = 64 ∧ e.chState 63 3 = 0 ∧
    (e.chan 63 3).cur = none ∧ f.chState 63 3 = 2 ∧ h.chState 63 3 = 3 ∧ h.rd (Addr.chTag 63 3) = 5 ∧
    h.rd (Addr.chDesc 63 3 2) = 63 ∧ (after (.dmaResume 63 3) (st h)).chState 63 3 = 1 ∧
    (after (.dmaSkip 63 3) (st h)).chState 63 3 = 0 ∧
    ((bad.chan 63 3).cur.map fun d => d.fault) = some (some (1, 2, false, 0)) := by
  decide +kernel

theorem wit_dma_fetch_and_actions :
    let q := (queue5 2 1).setCommitted (Addr.qQcfg 5)
      (putBits ((queue5 2 1).cfgRd (Addr.qQcfg 5)) F.qQcfg_BIND.hi F.qQcfg_BIND.lo (63 + 3 * 64))
    let f := after (.dmaDescriptorFetch 63 3) (st q)
    let act : Desc :=
      { desc64 with started := true, issued := true, words := [0, 0, 3 * 2 ^ 50, 0, 0, 7 + 512 + 255 * 2 ^ 16 + 4 * 2 ^ 32,
          0xAC0 + 255 * 2 ^ 16, 0] }
    let a := after (.dmaCompletionAction 63 3) (st ((up.setChan 63 3 { cur := some act }).setChState 63 3 1))
    let b := after (.dmaCompletionAction 63 3) (st (a.setAcc 1 { a.acc 1 with done := true }))
    let c := after (.dmaCompletionAction 63 3) (st b)
    let k := after (.dmaResume 63 3) (st ((up.setChan 63 3 { fetchFault := some (10, 0) }).setChState 63 3 3))
    (f.chan 63 3).fetching = true ∧ ((a.msgRec? 2).map fun r => r.msg.data.take 1) = some [4] ∧
    ((b.chan 63 3).cur.map fun d => (d.sigDone, d.evtDone)) = some (true, false) ∧
    ((c.chan 63 3).cur.map fun d => d.op.isSome) = some true ∧ k.chState 63 3 = 0 := by
  decide +kernel

theorem wit_host_translation :
    let a : Acc := { owner := .dma 63 3 9, remote := true, kind := .rd, chip := 256, addr := 0x5010, len := 64, parts := 1 }
    let w := up.setAcc 7 a
    let w := { (w.setFld Addr.htRoot F.htRoot_ADDR (255 * 2 ^ 20 + 16)).setFlag Addr.htRoot F.htRoot_VALID true with
      ht := { w.ht with xl := [(7, ⟨5, false, true⟩)] }, pcie := { w.pcie with linkUp := true, bme := true } }
    let w := { w.setFlag Addr.htRoot F.htRoot_SPACE true with nextId := 8 }
    let b := after (.translationWalk 5) (st w)
    let c := after (.translationWalk 5) (st (b.setAcc 8 { b.acc 8 with done := true, data := toLE 8 0 }))
    let leaf : Walk := { page := 5, lm := true, lvl := 3, leaf := some (0x9000 + 7) }
    let d := after (.translationWalkComplete 5) (st { w with ht := { w.ht with walks := [leaf] } })
    let e := after (.hostReadCompletion 8 0 0 (List.replicate 64 1)) (st d)
    (b.acc 8).addr = 0x10000 ∧ b.rd Addr.htMisses = 1 ∧ ((c.walkOf? 5).map fun k => k.fault) = some (some (0x0C, 0x402)) ∧
    d.ht.tlb = [⟨5, 9, true, true⟩] ∧ d.ht.walks = [] ∧ ((spFind? d.pcie.reads 8).map fun r => r.acc) = some 7 ∧
    (e.acc 7).data = List.replicate 64 1 ∧ e.pcie.reads = [] ∧
    ((after (.completionTimeout 8) (st { d with time := 40000000 })).acc 7).detail = 0x422 ∧
    (after .htInvPage (st (d.setFld Addr.htInvAddr F.htInvAddr_PAGE 5))).ht.tlb = [] ∧
    (after .htInvAll (st d)).flag Addr.htInv F.htInv_BUSY = true ∧
    (after .htInvComplete (st (d.setFlag Addr.htInv F.htInv_BUSY true))).flag Addr.htInv F.htInv_BUSY = false := by
  decide +kernel

/-- A chip whose port 2 is in link state `n` at 8 lanes and the lowest rate, with working state `x`. -/
def portIn (n : Nat) (x : LinkPort) : Chip :=
  ((((up.setLState 2 n).setFld (Addr.lnkState 2) F.lnkState_RX_MAP 255).setFld (Addr.lnkState 2) F.lnkState_TX_MAP 255).setFld
    (Addr.lnkState 2) F.lnkState_RATE 2).setLp 2 x

theorem wit_flits_in_order :
    let dat : List Byte := mkFlit (flitHdr 1 1 0 0 16 0) [1] 0 0
    let r := after (.flitReceive 2) (st (portIn 3 { rxIn := [dat] }))
    let dup := after (.flitReceive 2) (st (portIn 3 { rxIn := [dat], expect := 9 }))
    let gap := after (.flitReceive 2) (st (portIn 3 { rxIn := [dat], expect := 4000 }))
    let bad := after (.flitReceive 2) (st (portIn 3 { rxIn := [mkFlit 9 [] 0 0] }))
    let ctl := after (.flitReceive 2) (st (portIn 3 { rxIn := [mkFlit (flitHdr 3 0 0 0 16 0) [4] 0 0] }))
    let ack := after (.flitReceive 2) (st (portIn 3 { rxIn := [mkFlit (flitHdr 0 0 0 0 0 0) [] 0x1005 0], unacked := [⟨5, 0, [], 0, 0⟩] }))
    let nak := after (.flitReceive 2) (st (portIn 3 { rxIn := [mkFlit (flitHdr 0 0 0 0 0 0) [] 0x3004 0], unacked := [⟨5, 0, [], 0, 0⟩] }))
    let rep := after (.replayTimeout 2) (st { portIn 3 { unacked := [⟨5, 0, [], 0, 0⟩] } with time := 5000000 })
    (r.lp 2).expect = 1 ∧ (dup.lp 2).nakDue = false ∧ (gap.lp 2).nakDue = true ∧ bad.lState 2 = 1 ∧
    ((ctl.lp 2).ctrlIn.map fun m => leNat (m.take 1)) = [4] ∧ (ack.lp 2).unacked = [] ∧ (nak.lp 2).replay = some (5, 5) ∧
    (rep.lp 2).repCount = 1 ∧ rep.rd (Addr.lnkReplays 2) = 1 := by
  decide +kernel

theorem wit_transmitter :
    let a := after (.flitTransmit 2) (st (portIn 3 { txq := some (flitHdr 1 1 0 0 16 0, [7]) }))
    let n := after (.flitTransmit 2) (st (portIn 3 { nakDue := true }))
    (a.lp 2).nextSeq = 1 ∧ ((a.lp 2).unacked.map fun f => f.seq) = [0] ∧ ((a.lp 2).half.map flitGood) = some true ∧
    (n.lp 2).nakOut = true ∧ n.rd (Addr.lnkNaksSent 2) = 1 := by
  decide +kernel

theorem wit_link_control :
    let c := after (.creditInit 2) (st (portIn 1 { tr := { stage := 5 }, initAcked := true, ctrlIn := [[1, 0, 96, 0, 96, 0, 32, 0, 32, 0]] }))
    let k := after (.creditInitAck 2) (st (portIn 1 { tr := { stage := 5 }, initGot := true, ctrlIn := [[2]] }))
    let m := after (.remap 2) (st (portIn 3 { ctrlIn := [[3, 0, 15]] }))
    let t := after (.retrain 2) (st (portIn 3 { ctrlIn := [[4]] }))
    c.lState 2 = 2 ∧ c.rd (Addr.partnerOffer 2) = 0x0020002000600060 ∧ k.lState 2 = 2 ∧ (m.lp 2).newMap = some 15 ∧
    t.lState 2 = 1 := by
  decide +kernel

theorem wit_ports_train :
    let body (kind heard : Byte) (tail : List Byte) : List Byte :=
      toLE 4 0x3C5AA5C3 ++ [kind, 1, 4, heard] ++ toLE 8 77 ++ tail ++ List.replicate 10 0
    let set (kind heard : Byte) (tail : List Byte) : List Byte := body kind heard tail ++ toLE 4 (crc32c (body kind heard tail))
    let one := after (.trainingSetReceived 2 [(1, set 1 0 [0, 0])]) (st (portIn 0 { listenAt := some 5 }))
    let ts2 := set 2 3 [3, 2]
    let t2 := after (.trainingSetReceived 2 [(1, ts2)])
      (st (portIn 1 { tr := { stage := 2, ts2 := (ts2.drop 6).take 13, ts2n := 15 } }))
    let t3 := after (.trainingSetReceived 2 [(1, set 3 3 [3, 2])])
      (st { portIn 1 { tr := { stage := 3, rate := 2, rxMap := 15, txMap := 3 } } with time := switchTicks })
    setOk ts2 = true ∧ one.lState 2 = 1 ∧ one.rd (Addr.partnerSerial 2) = 77 ∧ (one.lp 2).tr.heard = 2 ∧
    (t2.lp 2).tr.stage = 3 ∧ (t2.lp 2).tr.txMap = 3 ∧ (t3.lp 2).tr.stage = 4 ∧ t3.rxMap 2 = 15 ∧ t3.txMap 2 = 3 := by
  decide +kernel

theorem wit_lanes_and_states :
    let late (w : Chip) : State := st { w with time := 5000000 }
    let l := after (.lossOfSignal 2 0) (st (portIn 3 {}))
    let w := after (.laneFailWindow 2) (late (portIn 3 { corr := [(7, 100000)] }))
    let q := after (.remapTimeout 2) (late (portIn 3 { remapAt := some 0, exits := [1, 2, 3] }))
    let k := after (.lockAchieved 2) (st (portIn 1 { tr := { stage := 4, resume := true, pResume := true, left := 3 }, good := 8 }))
    let i := after (.lockAchieved 2) (st (portIn 1 { tr := { stage := 4 }, good := 8 }))
    let t := after (.trainingStageTimeout 2) (late (portIn 1 { tr := { stage := 1 }, fails := 2 }))
    l.rxMap 2 = 0xF0 ∧ l.lState 2 = 4 ∧ w.rxMap 2 = 0x0F ∧ q.lState 2 = 5 ∧ k.lState 2 = 4 ∧ (i.lp 2).initDue = true ∧
    t.lState 2 = 5 ∧ (after (.lnkRetrainWrite 2) (st (portIn 3 {}))).lState 2 = 1 ∧
    (after (.lnkDisableWrite 2 true) (st (portIn 3 {}))).lState 2 = 0 := by
  decide +kernel

/-- A chip whose port 2 (in link state `n`) holds on virtual channel `vc` one single-flit transaction `m` for chip 0. -/
def podIn (n vc epoch : Nat) (m : Msg) : Chip :=
  portIn n { held := [(vc, [(flitHdr 1 vc 0 0 (16 + m.data.length) epoch,
    toLE 8 (hdrWord0 m m.srcChip 0 0 1) ++ toLE 8 (hdrWord1 m 0) ++ m.data)])] }

/-- Chip number 0 of the pod at epoch 3. -/
def member (w : Chip) : Chip := w.setBoth Addr.podState (2 + 4 + 3 * 2 ^ 16)

theorem wit_transactions :
    let rd : Msg := { op := .read, srcChip := 4, addr := 0x300000, tid := 9, len := 64 }
    let wr : Msg := { op := .write, filt := true, srcChip := 4, addr := 0x300000, tid := 9, data := List.replicate 64 1 }
    let go (w : Chip) : Chip := after (.transactionArrival 2 0 0 0) (st w)
    let opAt (w : Chip) (k : Nat) : Option (Op × Place) := (w.msgRec? k).map fun r => (r.msg.op, r.dst)
    let ok := go (member (podIn 3 0 3 rd))
    let old := go (member (podIn 3 0 2 rd))
    let new := go (member (podIn 3 0 4 rd))
    let nr := go ((member (podIn 3 0 3 rd)).setFlag Addr.stwStatus F.stwStatus_READY false)
    let w := member (podIn 3 0 3 wr)
    let dup := go { w with pod := { w.pod with filter := [(4, [⟨9, .writeAck, 0, 0, []⟩])] } }
    let perf := go { w with pod := { w.pod with performing := [(4, 9)] } }
    opAt ok 1 = some (.read, .core 3) ∧ opAt old 1 = some (.epochStale, .port 2) ∧ old.rd Addr.podStaleSent = 1 ∧
    opAt new 1 = some (.nakNotReady, .port 2) ∧ opAt nr 1 = some (.nakNotReady, .port 2) ∧
    opAt dup 1 = some (.writeAck, .port 2) ∧ dup.rd Addr.podDupAnswered = 1 ∧ opAt perf 1 = none ∧
    (go w).pod.performing = [(4, 9)] ∧ tget (ok.lp 2).freed 0 = 1 := by
  decide +kernel

theorem wit_answers :
    let req : Msg := { op := .read, dstChip := 4, addr := 0x300000, tid := 9, len := 64, acc := 5 }
    let give (m : Msg) : Chip := let w := member (podIn 3 1 3 m)
      { w with pod := { w.pod with outReqs := [(7, { msg := req, epoch := 2, sent := 1 })] } }
    let a := after (.responseArrival 2 1 false 0) (st (give { op := .readData, srcChip := 4, tid := 9, data := List.replicate 64 1 }))
    let n := after (.nakNotReady 2) (st (give { op := .nakNotReady, srcChip := 4, tid := 9, addr := 20, len := 1 }))
    let e := after (.epochStale 2) (st (give { op := .epochStale, srcChip := 4, tid := 9, addr := 3, len := 1 }))
    let t := after (.notReadyRetry 7) (st { n with time := 20000 })
    let fwd := after (.flitForward 2 1) (st ((member (portIn 3 { held := [(1, [(flitHdr 1 1 0 6 16 3,
      toLE 8 (hdrWord0 { op := .writeAck, dstChip := 6 } 4 6 0 1) ++ toLE 8 (hdrWord1 { op := .writeAck, len := 1 } 0))])] })).setBoth
      (Addr.route 6) (0x80 + 5)))
    a.pod.outReqs = [] ∧ ((a.msgRec? 1).map fun r => r.msg.acc) = some 5 ∧ tget n.pod.backoff 4 = 16 ∧
    ((spFind? n.pod.outReqs 7).map fun o => o.retryAt) = some (some 20000) ∧ e.rd Addr.podResent = 1 ∧
    ((spFind? t.pod.outReqs 7).map fun o => o.sent) = some 2 ∧
    ((fwd.msgRec? 1).map fun r => (r.dst, r.hops)) = some (.port 5, 1) := by
  decide +kernel

theorem wit_numbers_and_routes :
    assignNumbers [(10, 3)] [] [(10, 255), (20, 3), (30, 7)] 10 = [(10, 3), (30, 7), (20, 0)] ∧
    (let t : List RepChip := [⟨1, 0, [⟨0, 3, 2, 8, 2⟩]⟩, ⟨2, 1, [⟨0, 3, 1, 8, 2⟩, ⟨4, 3, 3, 8, 2⟩]⟩, ⟨3, 2, [⟨4, 3, 2, 8, 2⟩]⟩]
     classRoute t 1 3 = some (0, 2) ∧ classRoute t 3 1 = none) := by
  decide +kernel

theorem wit_pod_formation :
    let holds (w : Chip) (p : Nat) (m : Msg) : State := st { w.setFlag Addr.podCtrl F.podCtrl_MGMT_OPEN true with
      pod := { w.pod with mgmtIn := [(p, m)] } }
    let msg (code : Nat) : Msg := { op := .podMgmt, loc := true, data := [BitVec.ofNat 8 code] }
    let child := (member (portIn 3 {})).setBoth Addr.podState (2 + 4 + 3 * 2 ^ 16 + 2 ^ 27 + 2 * 2 ^ 24)
    let r := after (.report 5 []) (holds up 5 (msg 2))
    let l := after (.linkEvent 5 1 0 77) (holds child 5 (msg 5))
    let v := after (.leave 5 77) (holds child 5 (msg 6))
    let a := after (.epochAck 5 3) (holds child 5 (msg 4))
    let ts : Msg := { op := .timeSync, loc := true, arg := 1 }
    let y := after (.timeSyncReply 5 100 110 120) (holds { up with time := 130 } 5 ts)
    let z := after (.timeSyncReply 5 100 150 160) (holds { up with time := 170 } 5 ts)
    let q := after (.timeSyncRequest 5 100) (holds up 5 { ts with arg := 0 })
    let t := after .timeSyncTimer (st { child.setFlag Addr.podCtrl F.podCtrl_MGMT_OPEN true with time := 1000000 })
    let opAt (w : Chip) : Option (Place × Option Mgmt) := (w.msgRec? 2).map fun r => (r.dst, r.msg.mgmt)
    spFind? r.pod.reports 5 = some [] ∧ opAt l = some (.port 2, some (.linkEvent 1 0 77)) ∧
    opAt v = some (.port 2, some (.leave 77)) ∧ a.pod.acks = [5] ∧ y.fld Addr.tbOffset F.tbOffset_NS = 0 ∧
    y.flag Addr.podState F.podState_TB_LOCKED = true ∧ z.fld Addr.tbOffset F.tbOffset_NS = 20 ∧
    z.flag Addr.podState F.podState_TB_LOCKED = false ∧ opAt q = some (.port 5, some (.timeReply 100 0 0)) ∧
    opAt t = some (.port 2, some (.timeRequest 1000000)) := by
  decide +kernel

/-- A READY chip with command `req` (words) in progress on channel 1 in phase `p`, with `x` of its data and marks. -/
def busyWith (w : Chip) (p : Nat) (req : List Nat) (x : MbxCmd → MbxCmd := id) : Chip :=
  (w.setMbState 1 2).setCmd 1 (x { req := req, born := 0, stamp := 0, phase := p })

/-- Status and words of the command's result on channel 1. -/
def resultOf (w : Chip) : Option (Nat × List Nat) := (w.cmd? 1).bind fun m => m.result

/-- R461, R475: a GET_INFO with BIN whose input queue is not enabled is BAD_ARGUMENT; without BIN it has no status yet. -/
theorem test_bin_without_queue :
    let go (b : Nat) := after .mailboxCommandStart (st (after (.mailboxDoorbell 1 0)
      (st (up.setReg (Addr.mbReq 1 0) (b * 2 ^ 40 + 0x7 * 2 ^ 16 + 1)))))
    resultOf (go 1) = some (3, []) ∧ resultOf (go 0) = none := by
  decide +kernel

theorem wit_mailbox_channels :
    let post := after (.mailboxDoorbell 1 5) (st (up.setReg (Addr.mbReq 1 0) (0x7 * 2 ^ 16 + 0x99)))
    let go := after .mailboxCommandStart (st post)
    let done := after (.mailboxCommandDone 1) (st go)
    let twice := after .mailboxCommandStart (st (after (.mailboxDoorbell 1 0) (st done)))
    let late := after (.mailboxCommandTimeout 1) (st { busyWith up 0 [0x21] with time := 9000000 })
    let held := after (.mailboxCommandTimeout 1) (st { busyWith (queueHoldSet 5 up) 2 [0x32, 5] with time := 200000000 })
    let image := after (.mailboxCommandTimeout 1) (st { busyWith up 2 [0x10] (fun m => { m with mark := 64 }) with time := 2000000000 })
    post.mbState 1 = 1 ∧ post.fld (Addr.mbState 1) F.mbState_ORIGIN = 2 ∧ go.mbState 1 = 2 ∧ resultOf go = some (2, []) ∧
    done.mbState 1 = 3 ∧ done.fld (Addr.mbState 1) F.mbState_LAST_SEQ = 7 ∧ bits (done.rd (Addr.mbRsp 1 0)) 47 40 = 2 ∧
    bit (twice.rd (Addr.mbRsp 1 0)) 48 = true ∧ resultOf late = some (8, []) ∧ resultOf held = some (8, []) ∧
    held.flag (Addr.qCtrl 5) F.qCtrl_HOLD = false ∧ ((resultOf image).map fun r => r.1) = some 8 ∧
    (after (.mailboxDoorbell 1 0) (st {})).rd Addr.earlyDrop = 1 ∧
    (after (.mailboxDoorbell 1 0) (st post)).flag (Addr.mbState 1) F.mbState_DB_LOST = true ∧
    (after (.stewardException 3 false [1]) (st up)).phase = 5 := by
  decide +kernel

theorem wit_chip_commands :
    let mc := after (.monitorConfig 1) (st (busyWith up 0 [0xA0, 3 + 2 ^ 8, 5]))
    let mr := after (.monitorRead 1) (st (busyWith up 0 [0xA1, 8]))
    let me := after (.monitorRead 1) (st (busyWith up 2 [0xA1, 8]))
    let fl := after (.faultLogClear 1) (st (busyWith up 0 [0xC1]))
    let fe := after (.faultLogClear 1) (st fl)
    let wd := after (.watchdogSet 1) (st (busyWith up 0 [0xF0, 500 + 2 ^ 33]))
    let fu := after (.firmwareUpdate 1) (st (busyWith up 2 [0xE0, 4 * 2 ^ 32] (fun m => { m with data := [1, 2, 3, 4] })))
    mc.cfgPending .iris = true ∧ mc.rd (Addr.irisSelect 3) = 5 ∧ mr.flag Addr.irisSnap F.irisSnap_BUSY = true ∧
    ((resultOf me).map fun r => r.1) = some 0 ∧ fl.jrnl.erasing = some [] ∧ resultOf fe = some (0, [0]) ∧ resultOf wd = some (0, [500]) ∧
    resultOf fu = some (0, [4 + 2 ^ 32]) ∧ (after (.resetChip 1) (st (busyWith up 0 [0x03]))).phase = 3 ∧
    resultOf (after (.firmwareUpdate 1) (st (busyWith up 0 [0xE0, 64]))) = some (3, []) ∧
    resultOf (after (.faultLogRead 1) (st (busyWith up 3 [0xC0] (fun m => { m with data := [1], aux := [9] })))) = some (0, [9]) := by
  decide +kernel

theorem wit_audio_config :
    let a := after (.audioConfig 1) (st (busyWith up 1 [0xD0, 2 + 2 ^ 8, 0, 0, 0]))
    a.cfgPending .host = true ∧
    ((resultOf (after (.audioConfig 1) (st (busyWith up 2 [0xD0, 2, 0, 0, 0])))).map fun r => r.1) = some 0 := by
  decide +kernel

theorem wit_image_and_context_commands :
    let set (m : MbxCmd) : MbxCmd := { m with obj := 0xFFFFFFFF }
    let ld := after (.loadImage 1) (st (busyWith up 3 [0x10, 5, 4] (fun m => { set m with data := [1, 2, 3, 4] })))
    let vf := after (.verifyImage 1) (st (busyWith up 0 [0x11, 5, 32] set))
    let go (i : Instr) (code p : Nat) : Chip := after i (st (busyWith up p [code, 5 + 2 ^ 8]))
    let cs := go (.contextStart 1) 0x21 0
    let cr := go (.contextCreate 1) 0x20 0
    let cq := go (.contextQuery 1) 0x25 0
    let dp := go (.deadlinePolicy 1) 0xB0 0
    ((resultOf ld).map fun r => (r.1, r.2.map fun x => x % 2 ^ 32)) = some (0, [4]) ∧ (vf.acc 1).len = 32 ∧
    ((cs.cmd? 1).map fun m => m.phase) = some 1 ∧ (cr.acc 1).len = 512 ∧ ((resultOf cq).map fun r => r.2.length) = some 5 ∧
    resultOf dp = some (0, [1]) ∧ ((resultOf (go (.contextStop 1) 0x22 1)).map fun r => r.1) = some 0 ∧
    ((resultOf (go (.contextSave 1) 0x23 3)).map fun r => r.1) = some 0 ∧
    ((go (.contextRestore 1) 0x24 0).cmd? 1).map (fun m => m.phase) = some 4 := by
  decide +kernel

theorem wit_object_commands :
    let qc := after (.queueCreate 1) (st (busyWith up 1 [0x30, 5, 128, 5 + 4 * 2 ^ 8]))
    let qd := after (.queueDestroy 1) (st (busyWith up 1 [0x31, 5]))
    let qr := after (.queueResize 1) (st (busyWith up 1 [0x32, 5, 128, 4]))
    let mc := after (.memConfig 1) (st (busyWith up 0 [0x40, 5 + 2 ^ 8 + 2 ^ 16]))
    let sl := after (.slotTableSet 1) (st (busyWith up 0 [0x41, 5 + 2 ^ 8, 7]))
    let sy := after (.syncConfig 1) (st (busyWith up 0 [0x50, 3 * 2 ^ 16 + 5 * 2 ^ 8 + 2 ^ 32, 9]))
    let sc := after (.syncConfig 1) (st (busyWith up 0 [0x50, 1 + 3 * 2 ^ 16 + 2 ^ 32, 9]))
    let bc := after (.barrierConfig 1 []) (st (busyWith up 0 [0x51, 2 * 2 ^ 8, 7]))
    let er := after (.eventRoute 1) (st (busyWith up 2 [0x60, 5 + 2 ^ 24, 0]))
    let em := after (.eventModerate 1) (st (busyWith up 0 [0x61, 5 + 2 ^ 12, 3]))
    qc.cfgPending (.queue 5) = true ∧ qd.flag (Addr.qCtrl 5) F.qCtrl_HOLD = true ∧ qr.flag (Addr.qCtrl 5) F.qCtrl_HOLD = true ∧
    mc.rd (Addr.bgMode 5 0) = 1 ∧ mc.cfgPending (.bank 5) = true ∧ sl.rd (Addr.bgWheel 5 0) = 7 ∧
    resultOf sy = some (0, [9, 0]) ∧ ((resultOf sc).map fun r => r.2.headD 0) = some 9 ∧
    ((resultOf bc).map fun r => r.2.headD 0) = some 7 ∧ ((resultOf er).map fun r => r.1) = some 0 ∧
    em.rd (Addr.tgtCfg 5) = 3 := by
  decide +kernel

theorem wit_host_pod_and_link_commands :
    let hm := after (.hostMap 1) (st (busyWith up 2 [0x70, 1 + 2 ^ 16, 0x10000, 0, 1]))
    let hu := after (.hostUnmap 1) (st (busyWith up 0 [0x71, 0, 1]))
    let ps := after (.podStatus 1) (st (busyWith up 0 [0x80, 0]))
    let pj := after (.podJoin 1) (st (busyWith up 0 [0x81, 0]))
    let pl := after (.podLeave 1) (st (busyWith up 2 [0x82, 0]))
    let lc := after (.linkConfig 1) (st (busyWith up 0 [0x83, 3 + 2 ^ 8, 1]))
    resultOf hm = some (0, [1]) ∧ hm.flag Addr.htRoot F.htRoot_SPACE = true ∧ resultOf hu = some (0, [0]) ∧
    ((resultOf ps).map fun r => r.2.length) = some 7 ∧ ((resultOf pj).map fun r => r.1) = some 0 ∧
    ((resultOf pl).map fun r => r.1) = some 0 ∧ lc.cfgPending (.link 3) = true := by
  decide +kernel

theorem wit_power_control :
    let vs (req ceil : Nat) (w : Chip) : Chip := w.setReg Addr.vcoreStatus (req + ceil * 2 ^ 16 + 2 ^ 28 + 50 * 2 ^ 32 + 600 * 2 ^ 48)
    let sx := after (.speedIndexUpdate (List.replicate 16 90) [80, 70] 700) (st up)
    let ad := after .adaptiveStep (st { vs 700 900 up with time := 2000000 })
    let ru := after .regulatorUpdate (st { vs 700 900 up with pwr := { up.pwr with sentVcore := 650, sentVsepal := 600 } })
    let ps := after (.powerSet 1) (st (busyWith up 0 [0x90, 650]))
    let rl := after .refclkLoss (st up)
    sx.fld Addr.spx F.spx_CORE = 90 ∧ sx.fld Addr.spx F.spx_SEPAL = 70 ∧ ad.fld Addr.vcoreStatus F.vcoreStatus_REQ_MV = 705 ∧
    up.live = true ∧ up.stewardRuns = true ∧ ru.pwr.sentVcore = 700 ∧
    ps.fld Addr.vcoreStatus F.vcoreStatus_REQ_MV = 650 ∧ rl.flag Addr.tbStatus F.tbStatus_HOLDOVER = true ∧
    (after .holdoverEnd (st rl)).flag Addr.tbStatus F.tbStatus_LOCKED = true ∧
    (after .spxFloorRearm (st sx)).rd Addr.spxFloor = 0xFFFF ∧ (after .tjPeakRearm (st up)).rd Addr.tjPeak = 0x8000 := by
  decide +kernel

theorem wit_sleep_and_wake :
    let ps (n : Nat) (w : Chip) : Chip := w.setPstate n
    let wa := after .wakeAccept (st { ps 2 up with evt := { up.evt with wakeReq := true } })
    let vo := after .vcoreOk (st wa)
    let pg := after .powerGateStage (st vo)
    let late := after .vcoreOkTimeout (st { wa.setFld Addr.pwrState F.pwrState_VCORE_OK 0 with time := 20000 })
    let wr := after .wakeRestoreComplete (st { ps 3 up with pwr := { up.pwr with zeroed := true } })
    let z := memAfter .wakeLmZeroComplete { st { ps 3 up with pwr := { up.pwr with stages := 9 } } with mem := [(0x10, 1), (0x100000, 2)] }
    let tr := after .thermalTrip (st ((ps 2 up).setFld Addr.tj F.tj_MAX 120))
    let bo := after .brownout (st { ps 3 up with pwr := { up.pwr with stages := 1 } })
    let sd := after .sleepDrainTimeout (st { ps 1 up with time := 100000, pwr := { up.pwr with drainAt := some 0 } })
    let se := after (.sleepEnter 1) (st (busyWith (ps 2 up) 0 [0x91]))
    let cp := after (.corePower 1) (st (busyWith (up.setReg Addr.corePwr 1) 0 [0x92, 4, 1]))
    let cd := after (.corePower 1) (st (busyWith up 0 [0x92, 4, 0]))
    wa.pstate = 3 ∧ vo.fld Addr.pwrState F.pwrState_VCORE_OK = 1 ∧ pg.pwr.stages = 1 ∧ late.pstate = 2 ∧ wr.pstate = 0 ∧
    z = [(0x10, 1)] ∧ tr.pwr.tripHold = true ∧ bo.pstate = 2 ∧ sd.pwr.drained = true ∧ resultOf se = some (0, [0]) ∧
    resultOf cp = some (0, [5]) ∧ cd.goingDown = [2] := by
  decide +kernel

theorem wit_endpoint :
    let host (w : Chip) : Chip := { w with pcie := { w.pcie with linkUp := true, mse := true, bme := true, msixEn := true } }
    let lm := after (.lmApertureAccess false 0x300010 [0, 0, 0, 0] []) (st (host up))
    let lw := after (.lmApertureAccess true 0x300010 [1, 2] [true, true]) (st (host up))
    let off := after (.lmApertureAccess false 0x300010 [0] []) (st (host (up.setReg Addr.corePwr 1)))
    let pa := after (.podApertureAccess true 0x300010 [1, 2]) (st (host (up.setFld Addr.apt F.apt_CHIP 255)))
    let rs := after (.podApertureAccess false 0x9000000 [0]) (st (host up))
    let vt := after (.window0Access true 0x8004 4 7) (st (host up))
    let mu := after (.msiXUnmask 2) (st (let w := host (up.setFlag (Addr.tgtStatus 67) F.tgtStatus_INT true)
      { w with pcie := { w.pcie with pba := [(2, true)] } }))
    let pr := after .perstNAssert (st (host up))
    (lm.acc 2).len = 4 ∧ (lm.acc 2).home = 3 ∧ (lw.acc 2).data = [1, 2] ∧ off.pcie.tx = [.abort 4 0x300010] ∧
    (pa.acc 2).addr = 0x300010 ∧ rs.pcie.tx = [.completion 4 0x109000000 [0]] ∧ vt.pcie.vectors = [(1, 7)] ∧
    mu.pcie.tx = [.msix 2] ∧ pr.pins.perstN = false ∧ pr.pcie.linkUp = false ∧
    (after .pcieLinkDown (st (host up))).flag Addr.hostStatus F.hostStatus_LINK_DOWN = true ∧
    (after (.pcieLinkUp 5 8) (st up)).pcie.width = 8 ∧ (after (.pcieConfigWrite 1 1) (st (host up))).pcie.mse = true ∧
    (after .pcieD3hotEntry (st (host up))).pcie.d3 = true ∧
    (after (.window0Access false 0 4 0) (st { host up with pcie := { (host up).pcie with mse := false } })).pcie.tx =
      [.unsupported 0 0] := by
  decide +kernel

theorem wit_qspi :
    let m : State := { st up with mem := [(0x300010, 5), (0x300011, 6)] }
    let q := after (.qspiRead 0x300010 2 []) m
    let r := q.hostPart 1 2 { q.acc 2 with done := true, data := [5, 6] }
    let l := after (.qspiRead 0x9000000 2 [0]) m
    let o := after (.qspiRead 0x300010 2 []) { m with w := up.setReg Addr.corePwr 1 }
    let w := after (.qspiWrite 0x300010 [1, 2]) m
    (q.acc 2).len = 2 ∧ (q.acc 2).reqr = 7 ∧ r.io.qtOut = [5, 6] ∧ r.io.hostReqs = [] ∧ l.flag Addr.qtStatus F.qtStatus_UNDERRUN = true ∧
    o.io.qtOut = [0xFF, 0xFF] ∧ (w.acc 2).data = [1, 2] ∧
    (after (.qspiRead 0x9000000 2 []) m).flag Addr.qtStatus F.qtStatus_ERR = true ∧
    (after (.qspiWrite 0x9000000 [1]) m).flag Addr.qtStatus F.qtStatus_ERR = true ∧
    (after .qspiReadStatus m).io.qtOut = [16] ∧ (after (.qspiSetLines 4) m).fld Addr.qtCfg F.qtCfg_LINES = 4 ∧
    (after (.qspiSetLines 3) m).flag Addr.qtStatus F.qtStatus_CMD_ERR = true ∧
    (after (.qspiInvalidCommand 0x99) m).flag Addr.qtStatus F.qtStatus_CMD_ERR = true := by
  decide +kernel

theorem wit_audio_and_board :
    let w := (((up.setFlag (Addr.audStatus 0) F.audStatus_RUNNING true).setCommitted (Addr.audCfg1Tdm 0)
      (2 + 16 + 3 * 2 ^ 32)).setCommitted (Addr.audCfg0 0) (4 * 2 ^ 32 + 2 * 2 ^ 24)).setAud 0 { line := [9], lineAt := 0, frame := 0 }
    let go (w : Chip) (n : Nat) : Chip := after (.audioFrame 0 n [1, 2] false) (st w)
    let line := w.setAud 0 { acc := some 7, lines := [(0, [])], ends := [(1, 5)] }
    let done := after (.audioLineWriteComplete 0) (st (line.setAcc 7 { home := 1, done := true }))
    let q (t : PmbTxn) : State := st { up with io := { up.io with pmbQ := [t] } }
    let pe := after (.pmbusTransactionEnd .pec) (q { rail := 1, cmd := 0x8B, retries := 3 })
    let i2 := up.setCommitted Addr.i2ct 0x80
    (go w 5).flag (Addr.audStatus 0) F.audStatus_FRAMING = true ∧ ((go w 32).aud 0).frame = 1 ∧
    done.fld (Addr.audBlocks 0) F.audBlocks_COUNT = 1 ∧ (done.aud 0).lines = [] ∧
    (after .pmbusPoll (st { up with time := 1000000 })).io.pmbQ.length = 6 ∧
    (after (.pmbusTransactionEnd (.done 77)) (q { rail := 0, cmd := 0x8B })).fld (Addr.pmb 0) F.pmb_VOUT = 77 ∧
    pe.flag Addr.pmbStatus F.pmbStatus_PEC = true ∧ pe.rd Addr.pmbErrs = 1 ∧
    bit ((after (.gpioPinChange 3 true) (st up)).rd Addr.gpioIn) 3 = true ∧
    (after (.gpioFilterExpiry 3) (st { up with io := { up.io with gpioLevel := 8 } })).rd Addr.gpioIn = 8 ∧
    (after (.jtagBypass 0xFF) (st up)).io.jtagIr = 0xFF ∧ i2.i2cOn = true ∧
    (after (.i2cTargetWrite [0x45]) (st i2)).io.i2cPtr = 5 ∧ (after (.i2cTargetRead 7) (st i2)).io.i2cOut.length = 7 := by
  decide +kernel

/-- R177: an interpolated correction at a tie between an odd and an even value is the even one. -/
theorem test_lns_tie : (lnsAdd 0x0000 0x7F3C).v = 0x01A4 := by decide +kernel

/-- The general clauses: a staged register written whole, two 32-bit registers written and read as one access, a private
address read. -/
theorem wit_register_accesses :
    let a := byStw (Addr.tgtCfg 128) 8 true (3 + 2 ^ 32)
    let v := after (.registerWrite a) (st up)
    let g := byStw (Addr.gpioCfg 14) 8 true (1 + 4 * 2 ^ 32)
    let u := after (.registerWrite g) (st up)
    let p := after (.readToClearRead ⟨.qspi, 0x6000000, 8, false, 0⟩) (st up)
    let q := after (.readToClearRead ⟨.qspi, Addr.gpioCfg 14, 8, false, 0⟩) (st u)
    up.devAcc? a = some a ∧ (regAt? a.addr).isSome = true ∧ plainReg a.addr = true ∧ v.rd (Addr.tgtCfg 128) = 3 + 2 ^ 32 ∧
    v.flag Addr.evtCfgState F.bgCfgState_DIRTY = true ∧ kept up v [Addr.tgtCfg 128, Addr.evtCfgState] = true ∧
    Chip.asOne (Addr.gpioCfg 14) 8 = false ∧ u.rd (Addr.gpioCfg 14) = 1 ∧ u.rd (Addr.gpioCfg 15) = 4 ∧
    p.io.qtOut = List.replicate 8 0 ∧ q.io.qtOut = [1, 0, 0, 0, 4, 0, 0, 0] := by decide +kernel

/-- While the journal's sector is erased an entry is kept behind it, and the 17th is counted. -/
theorem wit_journal_erasing :
    let w (es : List (Occ × Nat)) : Chip := { up with jrnl := { up.jrnl with seen := [{ kind := 5 }], erasing := some es } }
    let v := after .journalEntryWrite (st (w []))
    let o := after .journalEntryWrite (st (w (List.replicate 16 ({ kind := 1 }, 255))))
    v.jrnl.erasing = some [({ kind := 5 }, 255)] ∧ v.jrnl.entries = [] ∧ o.stw.overwritten = 1 ∧
    (o.jrnl.erasing.map fun es => es.length) = some 16 := by decide +kernel

/-- A partial write to an uncorrectable quarter owes nothing, and a read takes the corrected bytes of a wrong bit. -/
theorem wit_bank_grant_errors :
    let w := (oneAcc .wr 0xFFFFD [9, 8, 7]).setEcc (lmAddr 63 0xFFFF8 / 8) 3
    let r := (oneAcc .rd 0 [0, 0]).setEcc (lmAddr 63 0 / 8) 1
    (eccRead 3).1 = .uncorrectable ∧ ((after (.bankGrant 63 3) (st w)).group 63 3).merges = [] ∧ (eccRead 1).1 = .corrected ∧
    ((after (.bankGrant 63 0) { st r with mem := memWrite [] (lmAddr 63 0) [6, 5] }).acc 1).data = [6, 5] ∧
    (((after (.bankGrant 63 0) (st r)).group 63 0).flying.map fun f => f.errs) = [[⟨1, 7, 0, 1, true⟩]] := by decide +kernel

/-- A scrub stores the corrected quarter of the LM's last quarter. -/
theorem wit_scrub_stores :
    let w := up.setGroup 63 3 { scrub := some 0xFFFF8, scrubXor := 0x80, arbitrated := true }
    let m := memAfter (.scrubWrite 63 3) { st w with mem := memWrite [] (lmAddr 63 0xFFFF8) [1, 2] }
    memRead m (lmAddr 63 0xFFFF8) 8 = [0x81, 2, 0, 0, 0, 0, 0, 0] ∧ m.length = 2 := by decide +kernel

/-- A link port hands out the next flit of the source that follows the last one granted. -/
theorem wit_link_grant :
    let m (k : Nat) (src : Place) (w : Chip) : Chip := w.setMsg k { msg := { op := .read, len := 64 }, src := src, dst := .port 2, cls := 0, stage := .linkQ, total := 1, arrived := 1 }
    let w := (up.setLState 2 3).setReg (Addr.partnerOffer 2) 0x0020002000600060
    let w := m 5 (.port 0) (m 6 (.port 3) (w.setArb 130 { source := [(0, 1)] }))
    let v := after (.arbiterGrant 130) (st w)
    (w.linkNext 2 0).map (fun t => (t.1, t.2.1)) = some (3, 6) ∧ w.portLive 2 = true ∧ (v.lp 2).txq.isSome = true ∧
    v.msgRec? 6 = none ∧ tget (v.arb 130).source 0 = 4 := by decide +kernel

/-- A read of a group that is Private at its home is served uncached; a stale EVICT_NOTE counts as late. -/
theorem wit_uncached_and_stale :
    let m : Msg := { op := .read, addr := 0x1FFFC0, len := 64 }
    let v := after (.remoteReadAtHome 5) (st (placed up 5 (.core 1) .admitted m))
    let w := up.setCoh 1 { sf := [(0, [{ line := 0, sharers := [⟨255, 3, 9⟩] }])] }
    let e := after (.evictNote 5) (st (placed w 5 (.core 1) .admitted { op := .evictNote, addr := 0x100000, srcCore := 3, fillTag := 8 }))
    up.shared 1 3 = false ∧ (v.msgRec? 5).map (fun r => r.msg.uncached) = some true ∧ v.coh = up.coh ∧
    e.coh = w.coh ∧ e.rd (Addr.sfLateCount 1) = 1 := by decide +kernel

/-- YIELD where every ready slot is held, a miss of a stopped slot under ABORT, and an operation behind a pending fault. -/
theorem wit_yield_miss_and_deferral :
    let op (k : Nat) : Nat := k * 2 ^ 56
    let w := running 63 2 [0] (cmd (op 7))
    let w := (w.setSlot 63 2 { w.slot 63 2 with yieldFor := some [3] }).setSlot 63 3 { w.slot 63 3 with yieldFor := some [2] }
    let y := after (.yield 63 3) (st (w.setFld (Addr.seqStatus 63) F.seqStatus_LAST 2))
    let m := (({ (up.setSlotState 63 3 slStopped).setMx 63 { queue := [{ mxBlank with slot := 3, id := 9 }] } with time := 106 } : Chip).setReg
      (Addr.ctxDeadline 63 3) 105).setReg (Addr.ctxSched 63 3) 6
    let v := after (.deadlineMiss 63 3) (st m)
    let f := (up.setSlotState 63 3 slStopped).setSlot 63 3 { faults := [{ code := 9, unit := 1 }] }
    let d := after (.seqOpStart 63 3) (st f)
    (y.slot 63 3).yieldFor = some [2] ∧ v.dlMissed 63 3 = true ∧ (v.slot 63 3).quiesce = .abort ∧ (v.mxOf 63).queue = [] ∧
    (v.slot 63 3).missAt = some 106 ∧ f.faultPends 63 3 = true ∧ (d.slot 63 3).deferred = 1 ∧
    d.flag (Addr.seqOp 63) F.seqOp_BUSY = true := by decide +kernel

/-- A wait on a slot whose image is being written is held; an owed cancellation leaves in the place of a registration, to
another chip too; a registration is sent there again. -/
theorem wit_waits_held_and_cancelled :
    let far (w : Chip) : Chip := (w.setBoth Addr.podState (2 + 4 + 3 * 2 ^ 16)).setBoth (Addr.member 0) 16
    let op (k : Nat) : Nat := k * 2 ^ 56
    let w := cmd (op 0x11 + 255 * 2 ^ 40 + 63 * 2 ^ 32) 5
    let w := (w.setSlotState 63 0 slSaving).setSlot 63 0 { quiesce := .write }
    let h := after (.wait 63 3) (st w)
    let c0 := far (cmd (op 0x11 + 4 * 2 ^ 40 + 2 ^ 39) 5)
    let c := after (.wait 63 3) (st c0)
    let x := after (.waitCancel 63 3) (st (c.setSlot 63 3 { c.slot 63 3 with cancel := some (2 ^ 39 + 4 * 2 ^ 40) }))
    let r := after (.registrationResend 63 3) (st (c.setSlot 63 3 { c.slot 63 3 with resend := some 0 }))
    (h.slot 63 3).heldWait = true ∧ h.slotState 63 3 = slWaiting ∧ (h.slot 63 3).notified = false ∧
    (x.slot 63 3).cancel = none ∧ (x.slot 63 3).waitId = 1 ∧
    (spFind? x.pod.outReqs 4).map (fun q => (q.msg.dstChip, q.msg.arg)) = some (4, 2) ∧
    (r.slot 63 3).resend = none ∧ (spFind? r.pod.outReqs 5).map (fun q => (q.msg.dstChip, q.msg.arg)) = some (4, 0) := by
  decide +kernel
/-- A signal to a local counter of a slot whose image is being written is held, and refused afterwards; a Bloom line with a
core of its MASK unpowered waits; an arrival that asks records PHASE when it counts. -/
theorem wit_held_signals_and_stalled_lines :
    let m : Msg := { op := .atomicAdd, arg := 2, addr := Addr.lcntSignal 63 15, data := toLE 8 2 }
    let put (m : Msg) (d : Place) (g : Stage) (w : Chip) : State := st (w.setMsg 40 { msg := m, src := .core 63, dst := d, cls := 3, stage := g })
    let saving := (up.setSlotState 63 3 slSaving).setSlot 63 3 { quiesce := .write }
    let h := after (.localCounterAdd 40) (put m (.core 63) .localOp saving)
    let r := after (.localCounterAdd 40) (st (h.setSlotState 63 3 slEmpty))
    let two := (up.setReg (Addr.bloomMask 7) 3).setReg Addr.corePwr 1
    let full := two.setReg (Addr.bloomArrived 7) 2
    let arr : Msg := { op := .barrierArrive, arg := 1, srcCore := 0, addr := 7, pos := 4, acc := 30 }
    let b := after (.bloomArrivalApply 40) (put arr .hub .hub full)
    let one := (up.setReg (Addr.bloomMask 7) 1).setSlot 0 0 { outs := [{ id := 30, chip := 255, own := false, srcCp := 0, word0 := 0, word1 := 0 }] }
    let c := after (.bloomArrivalApply 40) (put arr .hub .hub (one.setReg (Addr.bloomState 7) 1))
    (h.msgRec? 40).map (fun r => r.msg.status) = some Chip.heldStatus ∧ r.rd (Addr.seqSigRefused 63) = 1 ∧
    full.bloomStalled 7 = true ∧ b.rd (Addr.bloomArrived 7) = 3 ∧ b.rd (Addr.bloomCompletions 7) = 0 ∧
    c.rd (Addr.bloomCompletions 7) = 1 ∧ c.scratch 0 0 3 = 1 := by decide +kernel

/-- A push of a queue this chip does not have, a failed take, a wrong offset taken, and a descriptor with FENCE behind
another. -/
theorem wit_queue_failures :
    let put (a : Nat) (w : Chip) : State := st (w.setMsg 40 { msg := { op := .queuePush, addr := a, srcCore := 63, srcSlot := 3, acc := 30 }, src := .core 63, dst := .hub, cls := 1, stage := .hub })
    let n := after (.queuePushPerform 40 0) (put 0xFFFFFFF up)
    let bound (t : Nat) : Chip := let w := queue5 t 1 (running 63 3 [0])
      w.setCommitted (Addr.qQcfg 5) (putBits (w.cfgRd (Addr.qQcfg 5)) F.qQcfg_BIND.hi F.qQcfg_BIND.lo (63 + 3 * 64))
    let take (t f : Nat) (d : List Byte) : Chip :=
      let w := ((bound t).setReg (Addr.ctxQbind 63 3) 5).setFlag (Addr.ctxQbind 63 3) F.ctxQbind_BOUND true
      let w := after (.contextTake 63 3) (st (w.setFlag (Addr.ctxQbind 63 3) F.ctxQbind_TAKE true))
      after (.queuePopDelivered 5) (st (w.setAcc 1 { w.acc 1 with done := true, fault := f, data := d }))
    let f := take 1 10 []
    let o := take 1 0 (toLE 8 4 ++ toLE 8 0)
    let cur : Desc := { uid := 1, words := [0, 0, 0], started := true, issued := true }
    let g := after (.dmaDescriptorFetch 63 3) (st (((bound 2).setChan 63 3 { cur := some cur }).setChState 63 3 1))
    let two := toLE 8 0 ++ toLE 8 0 ++ toLE 8 (2 ^ 52) ++ List.replicate 40 0
    let d := after (.queuePopDelivered 5) (st (g.setAcc 1 { g.acc 1 with done := true, data := two }))
    (n.msgRec? 1).map (fun r => (r.msg.status, r.msg.addr)) = some (9, 0x303) ∧ f.rd (Addr.ctxFaultCount 63 3) = 1 ∧
    f.qCons 5 = 0 ∧ f.flag (Addr.qStatus 5) F.qStatus_RING_ERR = true ∧ o.rd (Addr.ctxFaultCount 63 3) = 1 ∧ o.qCons 5 = 1 ∧
    (g.chan 63 3).fetching = true ∧ (d.chan 63 3).fenceHold = true ∧ d.qCons 5 = 0 := by decide +kernel

/-- A doorbell behind an earlier LM write of its port waits; a withdrawn record is spurious; the steward's timer expires. -/
theorem wit_doorbell_turn_and_spurious :
    let w := up.openReq { qspi := false, window := 4, off := 0, addr := 0, write := true, left := 1 }
    let q := (queue5 3 0).setCommitted (Addr.qQcfg 5)
      (putBits ((queue5 3 0).cfgRd (Addr.qQcfg 5)) F.qQcfg_BIND.hi F.qQcfg_BIND.lo 7)
    let q := ((q.setCommitted (Addr.srcRoute 0xAC0) (2 ^ 15 + 7)).setReg (Addr.evtMask 43) 0).setReg Addr.corePwr 255
    let a := after .eventSelect (st (q.edgeEvent 0xAC0 3))
    let a := a.setAcc 2 { a.acc 2 with done := true }
    let x := after (.pendClr 0xAC0) (st a)
    let c := after (.recordClaim 5 0) (st x)
    let c := after (.recordClaim 5 0) (st (c.setAcc 5 { c.acc 5 with done := true }))
    w.doorbellTurn .pcie = false ∧ w.doorbellTurn .steward = true ∧ (x.evSrc 0xAC0).withdrawn = true ∧ c.qProd 5 = 1 ∧
    (c.evSrc 0xAC0).state = 0 ∧ c.fld Addr.evtSpurious ⟨31, 0⟩ = 1 ∧
    (after (.coalesceTimerExpiry 64) (st (up.setEvTgt 64 { timer := some 0 }))).tgtInt 64 = true := by decide +kernel

/-- A second descriptor starts behind one all issued; a write behind an earlier overlapping one waits; an action to an
unreachable or unpowered place fails; a descriptor of a context that is gone counts nothing; a failed fetch halts. -/
theorem wit_dma_further :
    let cur : Desc := { desc64 with started := true, issued := true }
    let w := (up.setChan 63 3 { cur := some cur, next := some { desc64 with uid := 10 } }).setChState 63 3 1
    let a := after (.dmaDescriptorStart 63 3) (st w)
    let act (w5 : Nat) : Chip := (up.setChan 63 3 { cur := some { cur with words := [0, 0, 2 ^ 50, 0, 0, w5, 0, 0] } }).setChState 63 3 1
    let far := after (.dmaCompletionAction 63 3) (st (act (4 * 2 ^ 16 + 2 ^ 9)))
    let off := after (.dmaCompletionAction 63 3) (st ((act (255 * 2 ^ 16 + 5 * 2 ^ 10)).setReg Addr.corePwr (2 ^ 63)))
    let tag : QTag := ⟨2, 7, 30⟩
    let t := after (.dmaCompletionAction 63 3) (st ((up.setChan 63 3 { cur := some { cur with tag := some tag } }).setChState 63 3 1))
    let f := after (.dmaHalt 63 3) (st ((up.setChan 63 3 { fetchFault := some (10, 0x44) }).setChState 63 3 2))
    let wr : Txn := { id := 4, acc := 4, desc := 9, x := 0, y := 0, z := 0, len := 64, writing := true }
    let h := up.setChan 63 3 { cur := some cur, txns := [wr, { wr with id := 5, acc := 5, writing := false }] }
    let free := up.setChan 63 3 { cur := some cur, txns := [{ wr with x := 64 }, { wr with id := 5, acc := 5, writing := false }] }
    (a.chan 63 3).next.map (fun d => (d.uid, d.started)) = some (10, true) ∧ (far.acc 1).fault = 0x0B ∧ (off.acc 1).fault = 0x0A ∧
    t.chState 63 3 = 0 ∧ f.chState 63 3 = 3 ∧ f.fld (Addr.chErrInfo 63 3) F.chErrInfo_DETAIL = 0x44 ∧
    h.txnHeld 63 3 { wr with id := 5, acc := 5, writing := false } = true ∧
    free.txnHeld 63 3 { wr with id := 5, acc := 5, writing := false } = false := by decide +kernel

/-- With BYPASS written the accesses that wait for a page are made untranslated; a walk whose read is under way waits; a page of
the last number is walked to a fault. -/
theorem wit_translation_further :
    let a : Acc := { owner := .dma 63 3 9, remote := true, kind := .rd, chip := 256, addr := 0x5010, len := 64, parts := 1 }
    let w := up.setAcc 7 a
    let w := { w with ht := { w.ht with xl := [(7, ⟨5, false, true⟩)] }, pcie := { w.pcie with linkUp := true, bme := true }, nextId := 8 }
    let b := after (.translationWalk 5) (st (w.setFlag Addr.htCtrl F.htCtrl_BYPASS true))
    let big := { w with ht := { w.ht with xl := [(7, ⟨2 ^ 27, false, true⟩)] } }
    let f := after (.translationWalk (2 ^ 27)) (st big)
    let walk : Walk := { page := 5, lm := false, lvl := 1, rdAcc := some 9 }
    (spFind? b.pcie.reads 8).map (fun r => r.acc) = some 7 ∧ b.xlWaiting 5 = [] ∧
    ((f.walkOf? (2 ^ 27)).map fun k => k.fault) = some (some (0x0C, 0x404)) ∧
    (after (.translationWalk 5) (st { w with ht := { w.ht with walks := [walk] } })).ht.walks = [walk] := by decide +kernel

/-- Two flits go out as one codeword, and the partner's receiver decodes it into both; one lane cut to zeros is uncorrectable. -/
theorem wit_codeword :
    let z := portIn 3 { rxScr := Chip.loadScr 255, txScr := Chip.loadScr 255 }
    let a := after (.flitTransmit 2) (st (after (.flitTransmit 2) (st z)))
    let u := (a.lp 2).wire
    let v := after (.codewordReceive 2 u) (st z)
    let b := after (.codewordReceive 2 (u.map fun l => l.map fun _ => 0)) (st z)
    (v.lp 2).rxIn.map flitGood = [true, true] ∧ (v.lp 2).good = 1 ∧ b.rd (Addr.lnkFecUncorr 2) = 1 ∧
    (b.lp 2).nakDue = true := by decide +kernel

/-- A write of two flits is begun at its HEAD and performed at its last flit; a CONT of another transaction is dropped; a
status above 0x0F sets PROTO; an own request without a route leaves by port 8. -/
theorem wit_bursts :
    let wr : Msg := { op := .write, filt := true, srcChip := 4, addr := 0x300000, tid := 9, data := List.replicate 160 1 }
    let flit (m : Msg) (k : Nat) (d : List Byte) : Nat × List Byte := (flitHdr (k + 1) 0 0 0 (16 + d.length) 3,
      toLE 8 (hdrWord0 m 4 0 k 2) ++ toLE 8 (hdrWord1 m k) ++ d)
    let head := flit wr 0 (List.replicate 128 1)
    let w (fs : List (Nat × List Byte)) : Chip := member (portIn 3 { held := [(0, fs)] })
    let go (x : Chip) : Chip := after (.transactionArrival 2 0 0 0) (st x)
    let a := go (w [head, flit wr 1 (List.replicate 32 1)])
    let b := go a
    let other := go (go (w [head, flit { wr with tid := 8 } 1 (List.replicate 32 1)]))
    let bad := after (.responseArrival 2 1 false 0) (st (member (podIn 3 1 3 { op := .writeAck, srcChip := 4, tid := 9, status := 0x10, len := 1 })))
    let far := (member up).setMsg 5 { msg := { op := .read, dstChip := 6, len := 64 }, src := .hub, dst := .port 8, cls := 0, stage := .linkQ, total := 1, arrived := 1 }
    let own := after (.flitForward 8 0) (st far)
    a.pod.performing = [(4, 9)] ∧ a.net.msgs = [] ∧ (b.msgRec? 1).map (fun r => r.msg.data.length) = some 160 ∧
    (b.lp 2).asm = [] ∧ other.net.msgs = [] ∧ (other.lp 2).asm.length = 1 ∧ bad.flag Addr.podErr F.podErr_PROTO = true ∧
    own.net.msgs = [] ∧ own.rd Addr.podRouteErr = 1 := by decide +kernel

/-- Two messages of a port wait: each command takes the first of its kind; a candidate is lost with its port; a report comes to a
root that has declared; an event at a chip with no parent. -/
theorem wit_pod_further :
    let msg (code : Nat) : Msg := { op := .podMgmt, loc := true, data := [BitVec.ofNat 8 code] }
    let holds (w : Chip) (l : List Nat) : State := st { w.setFlag Addr.podCtrl F.podCtrl_MGMT_OPEN true with
      pod := { w.pod with mgmtIn := l.map fun k => (2, msg k) } }
    let r := after (.report 2 []) (holds up [5, 2])
    let n := after (.linkEvent 2 1 3 77) (holds up [2, 5])
    let gone := after .candidatePeriodicSend (st { up.setFlag Addr.podCtrl F.podCtrl_MGMT_OPEN true with
      time := 1000000, pod := { up.pod with cand := some ⟨3, 1, 1⟩, candPort := some 5 } })
    r.pod.mgmtIn = [(2, msg 5)] ∧ r.pod.reports = [(2, [])] ∧ n.pod.mgmtIn = [(2, msg 2)] ∧ n.pod.linkEvs = up.pod.linkEvs ∧
    gone.pod.candPort = none ∧ gone.pod.candSince = 1000000 := by decide +kernel

/-- A command that needs the others done waits for them, the time of a status command is that of its response, a timed-out
RESIZE takes its pending commit back, a timed-out FAULT_LOG_CLEAR ends its erase, an exception with a right stack is journalled. -/
theorem wit_mailbox_further :
    let post (w : Chip) : Chip := after (.mailboxDoorbell 2 0) (st (w.setReg (Addr.mbReq 2 0) 0x03))
    let w := post (busyWith up 0 [0x21])
    let go := after .mailboxCommandStart (st w)
    let gi := after (.mailboxCommandDone 1) (st { busyWith up 0 [2] (fun m => { m with result := some (0, [7, 0]) }) with time := 55 })
    let q := after (.cfgCommit (.queue 5)) (st (queueHoldSet 5 up))
    let rs := after (.mailboxCommandTimeout 1) (st { busyWith q 7 [0x32, 5] with time := 200000000 })
    let er := { up with jrnl := { up.jrnl with erasing := some [] } }
    let fc := after (.mailboxCommandTimeout 1) (st { busyWith er 1 [0xC1] with time := 3000000000 })
    let ex := after (.stewardException 3 true [1]) (st up)
    w.mbState 2 = 1 ∧ go.mbState 2 = 1 ∧ gi.rd (Addr.mbRsp 1 2) = 55 ∧ q.cfgPending (.queue 5) = true ∧
    rs.cfgPending (.queue 5) = false ∧ rs.qHeld 5 = false ∧ fc.jrnl.erasing = none ∧ ex.jrnl.entries.length = 1 ∧
    ex.stw.emerg = none := by decide +kernel

/-- RESET_CHIP in Sleep, MONITOR_READ to a bulk queue, a queue not bound to the new context, a local counter's MODE, a route that
is wrong, one committed in its turn, and a policy recorded for the wake. -/
theorem wit_steward_further :
    let rc := after (.resetChip 1) (st (busyWith (up.setPstate 2) 0 [0x03]))
    let mr := after (.monitorRead 1) (st (busyWith up 2 [0xA1 + 2 ^ 41, 3, 400]))
    let me := after (.monitorRead 1) (st (busyWith up 4 [0xA1 + 2 ^ 41, 3, 400] (fun m => { m with data := [1], mark := 64, obj := 9 })))
    let cc := after (.contextCreate 1) (st (busyWith up 0 [0x20, 5 + 2 * 2 ^ 8 + 2 ^ 34]))
    let sl := after (.syncConfig 1) (st (busyWith up 0 [0x50, 3 * 2 ^ 16 + 5 * 2 ^ 8 + 2 ^ 33, 9, 1]))
    let er := after (.eventRoute 1) (st (busyWith up 0 [0x60, 5 + 2 ^ 25, 2 ^ 15]))
    let e2 := after (.eventRoute 1) (st (busyWith up 1 [0x60, 5 + 2 ^ 25, 2 ^ 15 + 64]))
    let dp := after (.deadlinePolicy 1) (st (busyWith up 0 [0xB0, 5 + 2 ^ 8 + 2 ^ 16 + 2 ^ 17 + 7 * 2 ^ 32]))
    rc.pstate = 3 ∧ (mr.cmd? 1).map (fun m => (m.phase, m.data.length)) = some (4, 336) ∧
    resultOf me = some (0, [65, 0, 0, 0, 9]) ∧ resultOf cc = some (3, [2]) ∧
    sl.fld (Addr.ctxLc 5 0 3) F.ctxLc_MODE = 1 ∧ sl.stw.record.length = 1 ∧ resultOf er = some (3, []) ∧
    (e2.cmd? 1).map (fun m => m.phase) = some 2 ∧ resultOf dp = some (0, [1]) ∧ dp.stw.record.length = 2 := by decide +kernel

/-- HOST_MAP builds the tables of a page and writes its last entry, HOST_UNMAP invalidates, and the pod and link commands go on. -/
theorem wit_pages_and_ports :
    let area : Chip := { up with stw := { up.stw with area := some { lm := true, base := 0x10000, pages := 4, tables := [(0, 1, 0)] } } }
    let mapped : Chip := { area with stw := { area.stw with maps := [⟨5, 9, true, true⟩] } }
    let step (w : Chip) : Option (Nat × Nat × Nat) := (w.cmd? 1).map fun m => (m.phase, m.mark, m.aux.length)
    let status (w : Chip) : Option Nat := (resultOf w).map fun r => r.1
    let hu := after (.hostUnmap 1) (st (busyWith mapped 3 [0x71, 0x5000, 1]))
    step (after (.hostMap 1) (st (busyWith area 0 [0x70, 2 ^ 8 + 2 ^ 9, 0x5000, 0x9000, 1]))) = some (3, 0, 4) ∧
    step (after (.hostMap 1) (st (busyWith area 3 [0x70, 0, 0x5000, 0x9000, 1] fun m => { m with aux := [0x10000, 7] }))) = some (3, 0, 0) ∧
    step hu = some (3, 1, 0) ∧ hu.flag Addr.htInv F.htInv_BUSY = true ∧
    status (after (.podStatus 1) (st (busyWith up 3 [0x80 + 2 ^ 41, 99] fun m => { m with data := [1] }))) = some 0 ∧
    step (after (.podJoin 1) (st (busyWith up 0 [0x81, 1 + 2 ^ 8]))) = some (1, 0, 0) ∧
    status (after (.podLeave 1) (st (busyWith up 1 [0x82, 0]))) = some 0 ∧
    status (after (.linkConfig 1) (st (busyWith up 1 [0x83, 3 + 2 ^ 8 + 2 ^ 9 + 2 ^ 10, 1]))) = some 0 := by decide +kernel

/-- Sleep waits for the accesses that a core serves; MSI-X entries of 8 bytes; a partial line at each side of a 64-byte boundary; a register of
another chip; a write to a core that is off. -/
theorem wit_sleep_and_windows :
    let wait := after (.sleepEnter 1) (st (busyWith (placed (up.setPstate 1) 5 (.core 1) .admitted { op := .read, addr := 0x100000, len := 64 }) 3 [0x91]))
    let host (w : Chip) : Chip := { w with pcie := { w.pcie with linkUp := true, mse := true, bme := true, msixEn := true } }
    let vt := after (.window0Access true 0x8008 8 (7 + 2 ^ 32)) (st (host up))
    let vr := after (.window0Access false 0x8008 8 0) (st vt)
    let pb := after (.window0Access false 0x9000 4 0) (st { host up with pcie := { (host up).pcie with pba := [(2, true)] } })
    let pa := after (.podApertureAccess true 0x30003E [1, 2, 3, 4]) (st (host (up.setFld Addr.apt F.apt_CHIP 255)))
    let four := (member (up.setFld Addr.apt F.apt_CHIP 4)).setBoth (Addr.member 0) 16
    let pd := after (.podApertureAccess false 0x4000000 [0, 0, 0, 0]) (st (host four))
    let lw := after (.lmApertureAccess true 0x300010 [1] [true]) (st (host (up.setReg Addr.corePwr 1)))
    (up.setPstate 1).allServed cores1 = true ∧ wait.pstate = 1 ∧ vt.pcie.vectors = [(2, 7)] ∧ vr.pcie.tx = [.completion 0 0x8008 [7, 0, 0, 0, 1, 0, 0, 0]] ∧
    pb.pcie.tx = [.completion 0 0x9000 [4, 0, 0, 0]] ∧ pa.accs.map (fun p => (p.2.addr, p.2.len)) = [(0x30003E, 2), (0x300040, 2)] ∧
    pd.net.msgs.length = 1 ∧ lw.flag Addr.hostStatus F.hostStatus_ACCESS_ERR = true := by decide +kernel

/-- A transmit frame sends what its LM access read, or zeros with OVERRUN; a driven pin keeps its level. -/
theorem wit_transmit_and_drive :
    let cfg := putBits (2 + 16 + 3 * 2 ^ 32) F.audCfg1Tdm_TX_SLOTS.hi F.audCfg1Tdm_TX_SLOTS.lo 3
    let w := ((up.setFlag (Addr.audStatus 0) F.audStatus_RUNNING true).setCommitted (Addr.audCfg1Tdm 0) cfg).setCommitted
      (Addr.audCfg0 0) (4 * 2 ^ 32 + 2 * 2 ^ 24)
    let w := (w.setAud 0 { txAccs := [7] }).setAcc 7 { owner := .audio 0, done := true, data := [1, 2, 3, 4] }
    let go (late : Bool) : Chip := after (.audioFrame 0 32 [1, 2] late) (st w)
    let pin := (up.setReg Addr.gpioOe 8).setReg Addr.gpioOut 8
    w.audTx 0 = [0, 1] ∧ ((go false).aud 0).tx = [0x0201, 0x0403] ∧ ((go true).aud 0).tx = [0, 0] ∧
    (go true).flag (Addr.audStatus 0) F.audStatus_OVERRUN = true ∧ pin.pinDriven 3 = true ∧
    (after (.gpioPinChange 3 true) (st pin)).rd Addr.gpioIn = pin.rd Addr.gpioIn := by decide +kernel

end Sys2Proof.Tests
end

/-! PROOFS of O29: the compute array of the matrix engine (06_matrix_engine.md, R147 to R153, R246, R248). First the
terms of MX_BIN and MX_SER as numbers of positions, then the accumulators of a set after a whole command, then what the
end of a compute command leaves in the engine and in its counters. -/

namespace Sys2Proof

/-! ## Bits and two's complement -/

theorem bit_mod_two_pow (x : Nat) {n i : Nat} (h : i < n) : bit (x % 2 ^ n) i = bit x i := by
  simp [bit_eq_testBit, Nat.testBit_mod_two_pow, h]

theorem bit_xor (x y i : Nat) : bit (Nat.xor x y) i = (bit x i != bit y i) := by
  simp only [bit_eq_testBit]
  exact Nat.testBit_xor x y i

theorem bit_land (x y i : Nat) : bit (Nat.land x y) i = (bit x i && bit y i) := by
  simp only [bit_eq_testBit]
  exact Nat.testBit_and x y i

/-- Of the low `v` positions, those that hold equal bits in `x` and `y` are the ones the XOR does not count. -/
theorem countP_equal_add_popCount_xor (x y v : Nat) :
    (List.range v).countP (fun i => bit x i == bit y i) + popCount v (Nat.xor x y % 2 ^ v) = v := by
  have hxor : popCount v (Nat.xor x y % 2 ^ v) = (List.range v).countP fun i => !(bit x i == bit y i) := by
    rw [popCount_eq_countP]
    refine List.countP_congr fun i hi => ?_
    rw [bit_mod_two_pow _ (List.mem_range.1 hi), bit_xor, bne]
  have hall := List.length_eq_countP_add_countP (fun i => bit x i == bit y i) (l := List.range v)
  rw [hxor]
  simpa only [List.length_range, decide_not, Bool.decide_eq_true] using hall.symm

theorem wrapInt_cast (n : Nat) (x : Int) : ((wrapInt n x : Nat) : Int) = x % 2 ^ n := by
  have hpos : ((2 ^ n : Nat) : Int) ≠ 0 := by exact_mod_cast (Nat.two_pow_pos n).ne'
  rw [wrapInt, Int.toNat_of_nonneg (Int.emod_nonneg _ hpos)]
  push_cast
  rfl

end Sys2Proof

namespace Sys2Proof.Machine

/-! ## The terms of one chunk and of one pair of planes -/

theorem binTerm_eq (a b : List Byte) (v r k : Nat) :
    binTerm a b v r k =
      2 * (((List.range v).countP fun i => bit (blockRow a r) i == bit (blockRow b k) i : Nat) : Int) - (v : Int) := by
  have h := countP_equal_add_popCount_xor (blockRow a r) (blockRow b k) v
  unfold binTerm
  dsimp only
  omega

theorem serTerm_eq (a b : List Byte) (neg : Bool) (sh r k : Nat) :
    serTerm a b neg sh r k = (if neg then (-1 : Int) else 1) * 2 ^ sh *
      (((List.range 256).countP fun i => bit (blockRow a r) i && bit (blockRow b k) i : Nat) : Int) := by
  unfold serTerm
  simp only [popCount_eq_countP, bit_land]
  cases neg <;> push_cast <;> simp <;> ring

/-! ## The pairs of planes of MX_SER -/

theorem mem_serPairs (q : MxCmd) (c i j : Nat) : (c, i, j) ∈ serPairs q ↔ c < q.chunks ∧ i < q.ba ∧ j < q.bw := by
  simp [serPairs]

/-- No pair of planes is listed twice: the chunk tells the lists of two chunks apart, the activation plane those of two
planes of a chunk. -/
theorem nodup_serPairs (q : MxCmd) : (serPairs q).Nodup := by
  refine List.nodup_flatMap.2 ⟨fun c _ => List.nodup_flatMap.2 ⟨fun i _ => ?_, ?_⟩, ?_⟩
  · exact List.nodup_range.map fun j j' h => by simpa using h
  · refine List.nodup_range.imp fun {i i'} hne p hp hp' => ?_
    simp only [List.mem_map] at hp hp'
    grind
  · refine List.nodup_range.imp fun {c c'} hne p hp hp' => ?_
    simp only [List.mem_flatMap, List.mem_map] at hp hp'
    grind

theorem length_serPairs (q : MxCmd) : (serPairs q).length = q.chunks * q.ba * q.bw := by
  simp [serPairs, List.length_flatMap, Nat.mul_assoc]

theorem mem_serActive (x : Mx) (q : MxCmd) (c i j : Nat) :
    (c, i, j) ∈ serActive x q ↔ c < q.chunks ∧ i < q.ba ∧ j < q.bw ∧
      zeroFlag x.aset (q.ablk + c * q.ba + i) = false ∧ zeroFlag x.wset (q.wblk + c * q.bw + j) = false := by
  simp [serActive, mem_serPairs, and_assoc]

theorem nodup_serActive (x : Mx) (q : MxCmd) : (serActive x q).Nodup := (nodup_serPairs q).filter _

/-! ## Adding terms to a set of accumulators -/

@[simp] theorem length_addTerms (acc : List Nat) (t : Nat → Nat → Int) : (addTerms acc t).length = acc.length := by
  simp [addTerms]

theorem getD_addTerms (acc : List Nat) (t : Nat → Nat → Int) {i : Nat} (h : i < acc.length) :
    (((addTerms acc t).getD i 0 : Nat) : Int) = (acc.getD i 0 + t (i / 16) (i % 16)) % 2 ^ 32 := by
  rw [← wrapInt_cast]
  simp [addTerms, h]

/-- Terms added one after the other add up, modulo 2^32 (R150). -/
theorem getD_foldl_addTerms {α : Type} (t : α → Nat → Nat → Int) (l : List α) (acc : List Nat) {i : Nat}
    (h : i < acc.length) :
    (((l.foldl (fun acc a => addTerms acc (t a)) acc).getD i 0 : Nat) : Int) % 2 ^ 32 =
      (acc.getD i 0 + (l.map fun a => t a (i / 16) (i % 16)).sum) % 2 ^ 32 := by
  induction l generalizing acc with
  | nil => simp
  | cons a l ih =>
    rw [List.foldl_cons, ih _ (by simpa using h), getD_addTerms _ _ h, List.map_cons, List.sum_cons, Int.emod_add_emod,
      Int.add_assoc]

/-! ## The set after a compute command -/

/-- The set a compute command starts from: zeros with INIT, else the named set (R246). -/
def startSet (x : Mx) (q : MxCmd) : List Nat :=
  if q.init then zeroSet else (List.range 256).map fun i => (spGet (fun _ => zeroSet) x.accs q.set).getD i 0

/-- The terms of chunk `c` of MX_BIN (R147, R148). -/
def chunkTerm (x : Mx) (q : MxCmd) (c : Nat) : Nat → Nat → Int :=
  binTerm (mxBlock x.abuf (q.ablk + c)) (mxBlock x.wbuf (q.wblk + c)) (if c + 1 = q.chunks then q.klast else 256)

/-- The terms of a pair of planes (chunk, activation plane, weight plane) of MX_SER (R149). -/
def pairTerm (x : Mx) (q : MxCmd) (p : Nat × Nat × Nat) : Nat → Nat → Int :=
  serTerm (mxBlock x.abuf (q.ablk + p.1 * q.ba + p.2.1)) (mxBlock x.wbuf (q.wblk + p.1 * q.bw + p.2.2))
    ((p.2.1 + 1 == q.ba && q.signA) != (p.2.2 + 1 == q.bw && q.signW)) (p.2.1 + p.2.2)

@[simp] theorem length_startSet (x : Mx) (q : MxCmd) : (startSet x q).length = 256 := by
  unfold startSet
  split
  · exact List.length_replicate
  · rw [List.length_map, List.length_range]

theorem getD_startSet (x : Mx) (q : MxCmd) {i : Nat} (h : i < 256) :
    (startSet x q).getD i 0 = if q.init then 0 else (spGet (fun _ => zeroSet) x.accs q.set).getD i 0 := by
  unfold startSet
  split
  · exact List.getD_replicate _ h
  · rw [List.getD_eq_getElem _ _ (by rwa [List.length_map, List.length_range]), List.getElem_map, List.getElem_range]

theorem mxCompute_clear (x : Mx) (q : MxCmd) (h : q.op = 0x25) : mxCompute x q = zeroSet := by
  simp [mxCompute, h]

theorem mxCompute_bin (x : Mx) (q : MxCmd) (h : q.op = 0x22) :
    mxCompute x q = (List.range q.chunks).foldl (fun acc c => addTerms acc (chunkTerm x q c)) (startSet x q) := by
  simp only [mxCompute, h, beq_iff_eq, Bool.or_eq_true, Nat.reduceEqDiff, or_false, if_false, if_true]
  rfl

theorem mxCompute_ser (x : Mx) (q : MxCmd) (h : q.op = 0x23) :
    mxCompute x q = (serActive x q).foldl (fun acc p => addTerms acc (pairTerm x q p)) (startSet x q) := by
  simp only [mxCompute, h, beq_iff_eq, Bool.or_eq_true, Nat.reduceEqDiff, or_false, if_false]
  rfl

/-- Accumulator (r, k) after adding the terms of a list to the starting set. -/
theorem getD_foldl_startSet {α : Type} (x : Mx) (q : MxCmd) (t : α → Nat → Nat → Int) (l : List α) {r k : Nat}
    (hr : r < 16) (hk : k < 16) :
    (((l.foldl (fun acc a => addTerms acc (t a)) (startSet x q)).getD (16 * r + k) 0 : Nat) : Int) % 2 ^ 32 =
      (((if q.init then 0 else (spGet (fun _ => zeroSet) x.accs q.set).getD (16 * r + k) 0 : Nat) : Int) +
        (l.map fun a => t a r k).sum) % 2 ^ 32 := by
  have hi : 16 * r + k < 256 := by omega
  have hrow : (16 * r + k) / 16 = r := by omega
  have hcol : (16 * r + k) % 16 = k := by omega
  rw [getD_foldl_addTerms t l _ (by simpa using hi), getD_startSet x q hi, hrow, hcol]

theorem getD_mxCompute_bin (x : Mx) (q : MxCmd) {r k : Nat} (hr : r < 16) (hk : k < 16) (h : q.op = 0x22) :
    ((mxCompute x q).getD (16 * r + k) 0 : Int) % 2 ^ 32 =
      (((if q.init then 0 else (spGet (fun _ => zeroSet) x.accs q.set).getD (16 * r + k) 0 : Nat) : Int) +
        ((List.range q.chunks).map fun c => chunkTerm x q c r k).sum) % 2 ^ 32 := by
  rw [mxCompute_bin x q h]
  exact getD_foldl_startSet x q (chunkTerm x q) _ hr hk

theorem getD_mxCompute_ser (x : Mx) (q : MxCmd) {r k : Nat} (hr : r < 16) (hk : k < 16) (h : q.op = 0x23) :
    ((mxCompute x q).getD (16 * r + k) 0 : Int) % 2 ^ 32 =
      (((if q.init then 0 else (spGet (fun _ => zeroSet) x.accs q.set).getD (16 * r + k) 0 : Nat) : Int) +
        ((serActive x q).map fun p => pairTerm x q p r k).sum) % 2 ^ 32 := by
  rw [mxCompute_ser x q h]
  exact getD_foldl_startSet x q (pairTerm x q) _ hr hk

/-! ## The counters of the engine -/

/-- The counters of a core's matrix engine are registers of their own. -/
theorem mxCounters_nodup (n c : Nat) :
    [Addr.mxSteps n, Addr.mxCtxSteps n c, Addr.mxSkipped n, Addr.mxLast n, Addr.mxCmdCount n].Nodup := by
  simp [Addr.mxSteps, Addr.mxCtxSteps, Addr.mxSkipped, Addr.mxLast, Addr.mxCmdCount]
  omega

namespace Chip

/-- A counter of 64 bits takes the sum modulo 2^64. -/
theorem rd_addWrap_word (w : Chip) (a k : Nat) : (w.addWrap a ⟨63, 0⟩ k).rd a = (w.rd a + k) % 2 ^ 64 := by
  have h := w.rd_lt a
  simp only [addWrap, setFld, rd_setReg_self, fld, bits, putBits]
  omega

/-- `k` steps of a command of slot `c` are counted for the engine and for the slot (R153). -/
def addMxSteps (w : Chip) (n c k : Nat) : Chip :=
  (w.addWrap (Addr.mxSteps n) F.mxSteps_COUNT k).addWrap (Addr.mxCtxSteps n c) F.mxCtxSteps_COUNT k

/-- The pairs of planes that an MX_SER skipped are counted (R152). -/
def addMxSkipped (w : Chip) (n : Nat) (q : MxCmd) (k : Nat) : Chip :=
  if q.op = 0x23 then w.addWrap (Addr.mxSkipped n) F.mxSkipped_COUNT k else w

/-- A command of slot `c` that took `k` steps is the last one and is counted. -/
def logMxCommand (w : Chip) (n c k : Nat) : Chip :=
  ((w.setFld (Addr.mxLast n) F.mxLast_STEPS k).setFld (Addr.mxLast n) F.mxLast_CTX c).addSat (Addr.mxCmdCount n)
    F.mxCmdCount_COUNT 1

/-- The set of a compute command takes its new values. -/
def storeMxSet (w : Chip) (n : Nat) (q : MxCmd) : Chip :=
  w.setMx n { w.mxOf n with accs := spPut (fun _ => zeroSet) (w.mxOf n).accs q.set (mxCompute (w.mxOf n) q) }

@[simp] theorem storeMxSet_rd (w : Chip) (n : Nat) (q : MxCmd) (a : Nat) : (w.storeMxSet n q).rd a = w.rd a := rfl

theorem rd_addMxSteps_ne (w : Chip) {n c a : Nat} (k : Nat) (hs : a ≠ Addr.mxSteps n) (hc : a ≠ Addr.mxCtxSteps n c) :
    (w.addMxSteps n c k).rd a = w.rd a := by
  rw [addMxSteps, rd_addWrap_ne _ _ _ hc, rd_addWrap_ne _ _ _ hs]

theorem rd_addMxSteps_steps (w : Chip) (n c k : Nat) :
    (w.addMxSteps n c k).rd (Addr.mxSteps n) = (w.rd (Addr.mxSteps n) + k) % 2 ^ 64 := by
  rw [addMxSteps, rd_addWrap_ne _ _ _ (by grind [mxCounters_nodup n c])]
  exact rd_addWrap_word _ _ _

theorem rd_addMxSteps_ctxSteps (w : Chip) (n c k : Nat) :
    (w.addMxSteps n c k).rd (Addr.mxCtxSteps n c) = (w.rd (Addr.mxCtxSteps n c) + k) % 2 ^ 64 := by
  have hne : Addr.mxCtxSteps n c ≠ Addr.mxSteps n := by grind [mxCounters_nodup n c]
  rw [← rd_addWrap_ne w F.mxSteps_COUNT k hne]
  exact rd_addWrap_word _ _ _

theorem rd_addMxSkipped_ne (w : Chip) {n a : Nat} (q : MxCmd) (k : Nat) (h : a ≠ Addr.mxSkipped n) :
    (w.addMxSkipped n q k).rd a = w.rd a := by
  unfold addMxSkipped
  split
  · exact rd_addWrap_ne _ _ _ h
  · rfl

theorem rd_addMxSkipped_ser (w : Chip) (n : Nat) {q : MxCmd} (k : Nat) (h : q.op = 0x23) :
    (w.addMxSkipped n q k).rd (Addr.mxSkipped n) = (w.rd (Addr.mxSkipped n) + k) % 2 ^ 64 := by
  rw [addMxSkipped, if_pos h]
  exact rd_addWrap_word _ _ _

theorem rd_addMxSkipped_bin (w : Chip) (n a : Nat) {q : MxCmd} (k : Nat) (h : q.op = 0x22) :
    (w.addMxSkipped n q k).rd a = w.rd a := by simp [addMxSkipped, h]

theorem rd_logMxCommand_ne (w : Chip) {n a : Nat} (c k : Nat) (hl : a ≠ Addr.mxLast n) (hc : a ≠ Addr.mxCmdCount n) :
    (w.logMxCommand n c k).rd a = w.rd a := by
  rw [logMxCommand, rd_addSat_ne _ _ _ hc, rd_setFld_ne _ _ _ hl, rd_setFld_ne _ _ _ hl]

theorem mxLast_ne_mxCmdCount (n : Nat) : Addr.mxLast n ≠ Addr.mxCmdCount n := by
  grind [mxCounters_nodup n 0]

theorem fld_logMxCommand_steps (w : Chip) (n c k : Nat) :
    (w.logMxCommand n c k).fld (Addr.mxLast n) F.mxLast_STEPS = k % 2 ^ 24 := by
  rw [logMxCommand, fld_addSat_ne _ _ _ _ (mxLast_ne_mxCmdCount n),
    fld_setFld_apart _ _ _ _ _ (by decide) (by decide) (by decide), fld_setFld_self _ _ _ _ (by decide) (by decide)]
  rfl

theorem fld_logMxCommand_ctx (w : Chip) (n k : Nat) {c : Nat} (h : c < 4) :
    (w.logMxCommand n c k).fld (Addr.mxLast n) F.mxLast_CTX = c := by
  rw [logMxCommand, fld_addSat_ne _ _ _ _ (mxLast_ne_mxCmdCount n), fld_setFld_self _ _ _ _ (by decide) (by decide)]
  exact Nat.mod_eq_of_lt h

theorem fld_logMxCommand_count (w : Chip) (n c k : Nat) :
    (w.logMxCommand n c k).fld (Addr.mxCmdCount n) F.mxCmdCount_COUNT =
      min (w.fld (Addr.mxCmdCount n) F.mxCmdCount_COUNT + 1) (2 ^ 32 - 1) := by
  have hne := (mxLast_ne_mxCmdCount n).symm
  rw [logMxCommand, fld_addSat_self _ _ _ _ (by decide) (by decide), fld_setFld_ne _ _ _ _ hne, fld_setFld_ne _ _ _ _ hne]
  rfl

/-! ## The end of a compute command -/

theorem mxComputeDone_clear (w : Chip) (n : Nat) {q : MxCmd} (h : q.op = 0x25) :
    w.mxComputeDone n q = (w.storeMxSet n q).addMxSteps n q.slot (mxSteps (w.mxOf n) q) := by
  rw [mxComputeDone, if_pos h]
  rfl

/-- The pairs of planes that a command skips. -/
def mxSkips (w : Chip) (n : Nat) (q : MxCmd) : Nat := q.chunks * q.ba * q.bw - (serActive (w.mxOf n) q).length

theorem mxComputeDone_tile (w : Chip) (n : Nat) {q : MxCmd} (h : q.op ≠ 0x25) :
    w.mxComputeDone n q = (((w.storeMxSet n q).addMxSteps n q.slot (mxSteps (w.mxOf n) q)).addMxSkipped n q
      (w.mxSkips n q)).logMxCommand n q.slot (mxSteps (w.mxOf n) q) := by
  rw [mxComputeDone, if_neg h, mxSkips, ← length_serPairs]
  rfl

/-! ### Which parts of the chip change -/

theorem addMxSteps_only (w : Chip) (n c k : Nat) :
    w.addMxSteps n c k = { w with regs := (w.addMxSteps n c k).regs } :=
  only_trans (addWrap_only w _ _ _) (addWrap_only _ _ _ _)

theorem addMxSkipped_only (w : Chip) (n : Nat) (q : MxCmd) (k : Nat) :
    w.addMxSkipped n q k = { w with regs := (w.addMxSkipped n q k).regs } := only_ite _ (addWrap_only w _ _ _)

theorem logMxCommand_only (w : Chip) (n c k : Nat) :
    w.logMxCommand n c k = { w with regs := (w.logMxCommand n c k).regs } :=
  only_trans (only_trans (setFld_only w _ _ _) (setFld_only _ _ _ _)) (addSat_only _ _ _ _)

/-- Of the chip, a completed compute command changes its set and registers alone. -/
theorem mxComputeDone_only (w : Chip) (n : Nat) (q : MxCmd) :
    w.mxComputeDone n q = { w.storeMxSet n q with regs := (w.mxComputeDone n q).regs } := by
  by_cases h : q.op = 0x25
  · rw [mxComputeDone_clear w n h]
    exact addMxSteps_only _ _ _ _
  · rw [mxComputeDone_tile w n h]
    exact only_trans (only_trans (addMxSteps_only _ _ _ _) (addMxSkipped_only _ _ _ _)) (logMxCommand_only _ _ _ _)

/-! ### What the counters read as -/

/-- A register apart from MX_SKIPPED, MX_LAST and MX_CMD_COUNT reads as it does once the steps are counted. -/
theorem rd_mxComputeDone_apart (w : Chip) {n a : Nat} (q : MxCmd)
    (ha : a ∉ [Addr.mxSkipped n, Addr.mxLast n, Addr.mxCmdCount n]) :
    (w.mxComputeDone n q).rd a = (w.addMxSteps n q.slot (mxSteps (w.mxOf n) q)).rd a := by
  simp only [List.mem_cons, List.not_mem_nil, or_false, not_or] at ha
  obtain ⟨hskip, hlast, hcount⟩ := ha
  by_cases h : q.op = 0x25
  · rw [mxComputeDone_clear w n h]
    rfl
  · rw [mxComputeDone_tile w n h, rd_logMxCommand_ne _ _ _ hlast hcount, rd_addMxSkipped_ne _ _ _ hskip]
    rfl

theorem rd_mxComputeDone_steps (w : Chip) (n : Nat) (q : MxCmd) :
    (w.mxComputeDone n q).rd (Addr.mxSteps n) = (w.rd (Addr.mxSteps n) + mxSteps (w.mxOf n) q) % 2 ^ 64 := by
  have hne := mxCounters_nodup n q.slot
  rw [rd_mxComputeDone_apart w q (by grind), rd_addMxSteps_steps]

theorem rd_mxComputeDone_ctxSteps (w : Chip) (n : Nat) (q : MxCmd) :
    (w.mxComputeDone n q).rd (Addr.mxCtxSteps n q.slot) =
      (w.rd (Addr.mxCtxSteps n q.slot) + mxSteps (w.mxOf n) q) % 2 ^ 64 := by
  have hne := mxCounters_nodup n q.slot
  rw [rd_mxComputeDone_apart w q (by grind), rd_addMxSteps_ctxSteps]

theorem rd_mxComputeDone_skipped_ser (w : Chip) (n : Nat) {q : MxCmd} (h : q.op = 0x23) :
    (w.mxComputeDone n q).rd (Addr.mxSkipped n) = (w.rd (Addr.mxSkipped n) + w.mxSkips n q) % 2 ^ 64 := by
  have hne := mxCounters_nodup n q.slot
  rw [mxComputeDone_tile w n (by omega), rd_logMxCommand_ne _ _ _ (by grind) (by grind), rd_addMxSkipped_ser _ _ _ h,
    rd_addMxSteps_ne _ _ (by grind) (by grind), storeMxSet_rd]

theorem rd_mxComputeDone_skipped_bin (w : Chip) (n : Nat) {q : MxCmd} (h : q.op = 0x22) :
    (w.mxComputeDone n q).rd (Addr.mxSkipped n) = w.rd (Addr.mxSkipped n) := by
  have hne := mxCounters_nodup n q.slot
  rw [mxComputeDone_tile w n (by omega), rd_logMxCommand_ne _ _ _ (by grind) (by grind), rd_addMxSkipped_bin _ _ _ _ h,
    rd_addMxSteps_ne _ _ (by grind) (by grind), storeMxSet_rd]

theorem fld_mxComputeDone_lastSteps (w : Chip) (n : Nat) {q : MxCmd} (h : q.op ≠ 0x25) :
    (w.mxComputeDone n q).fld (Addr.mxLast n) F.mxLast_STEPS = mxSteps (w.mxOf n) q % 2 ^ 24 := by
  rw [mxComputeDone_tile w n h, fld_logMxCommand_steps]

theorem fld_mxComputeDone_lastCtx (w : Chip) (n : Nat) {q : MxCmd} (h : q.op ≠ 0x25) (hc : q.slot < 4) :
    (w.mxComputeDone n q).fld (Addr.mxLast n) F.mxLast_CTX = q.slot := by
  rw [mxComputeDone_tile w n h, fld_logMxCommand_ctx _ _ _ hc]

theorem fld_mxComputeDone_count (w : Chip) (n : Nat) {q : MxCmd} (h : q.op ≠ 0x25) :
    (w.mxComputeDone n q).fld (Addr.mxCmdCount n) F.mxCmdCount_COUNT =
      min (w.fld (Addr.mxCmdCount n) F.mxCmdCount_COUNT + 1) (2 ^ 32 - 1) := by
  have hne := mxCounters_nodup n q.slot
  rw [mxComputeDone_tile w n h, fld_logMxCommand_count, fld, rd_addMxSkipped_ne _ _ _ (by grind),
    rd_addMxSteps_ne _ _ (by grind) (by grind)]
  rfl

theorem mxComputeDone_clear_keeps (w : Chip) (n : Nat) {q : MxCmd} (h : q.op = 0x25) :
    w.keeps (w.mxComputeDone n q) [Addr.mxSteps n, Addr.mxCtxSteps n q.slot] := by
  intro a ha
  rw [mxComputeDone_clear w n h, rd_addMxSteps_ne _ _ (by grind) (by grind), storeMxSet_rd]

theorem mxComputeDone_keeps (w : Chip) (n : Nat) (q : MxCmd) :
    w.keeps (w.mxComputeDone n q)
      [Addr.mxSteps n, Addr.mxCtxSteps n q.slot, Addr.mxLast n, Addr.mxCmdCount n, Addr.mxSkipped n] := by
  intro a ha
  rw [rd_mxComputeDone_apart w q (by grind), rd_addMxSteps_ne _ _ (by grind) (by grind)]

/-! ### MX_COMMAND_COMPLETE of the compute array -/

/-- The chip after the compute array has finished command `q` of core `n`. -/
def computeEnd (w : Chip) (n : Nat) (q : MxCmd) : Chip :=
  ((w.dropAccs (.mx n q.id)).mxComputeDone n q).mxFinish n q

/-- Freeing the unit changes no register further. -/
theorem computeEnd_keeps {w : Chip} {n : Nat} {q : MxCmd} {as : List Nat}
    (h : (w.dropAccs (.mx n q.id)).keeps ((w.dropAccs (.mx n q.id)).mxComputeDone n q) as) :
    w.keeps (w.computeEnd n q) as := h

theorem computeEnd_mxOf (w : Chip) (n : Nat) (q : MxCmd) :
    (w.computeEnd n q).mxOf n =
      { w.mxOf n with
        accs := spPut (fun _ => zeroSet) (w.mxOf n).accs q.set (mxCompute (w.mxOf n) q)
        runs := (w.mxOf n).runs.filter fun r => r.cmd.id != q.id } := by
  have hset : ((w.dropAccs (.mx n q.id)).mxComputeDone n q).mxOf n =
      { w.mxOf n with accs := spPut (fun _ => zeroSet) (w.mxOf n).accs q.set (mxCompute (w.mxOf n) q) } := by
    rw [mxComputeDone_only]
    exact mxOf_setMx_self _ n _
  rw [computeEnd, mxFinish, mxOf_setMx_self, hset]

theorem computeEnd_only (w : Chip) (n : Nat) (q : MxCmd) :
    w.computeEnd n q = { w with
      regs := (w.computeEnd n q).regs, mx := (w.computeEnd n q).mx, accs := (w.computeEnd n q).accs } := by
  unfold computeEnd mxFinish
  rw [mxComputeDone_only]
  rfl

end Chip

/-- With no access of its own to wait for, a compute command ends in one step (R153). -/
theorem mxCommandComplete_compute (mem : List Host.Cell) (w : Chip) (n : Nat) (q : MxCmd) (hrun : w.runs n = true)
    (hacc : w.accsOf (.mx n q.id) = []) (hfind : (w.mxOf n).runs.find? (fun r => r.unit == 2) = some ⟨2, q, []⟩) :
    mxCommandComplete n 2 (mem, w) = (mem, w.computeEnd n q) := by
  simp [mxCommandComplete, hfind, hrun, hacc, Chip.accsDone, Chip.computeEnd]

theorem makes_mxCommandComplete_compute {s : State} {n : Nat} {q : MxCmd} {P : Chip → Prop} (hrun : s.w.runs n = true)
    (hacc : s.w.accsOf (.mx n q.id) = [])
    (hfind : (s.w.mxOf n).runs.find? (fun r => r.unit == 2) = some ⟨2, q, []⟩) (h : P (s.w.computeEnd n q)) :
    Makes (.mxCommandComplete n 2) s P := by
  refine ⟨_, ?_, h⟩
  have hexec : exec (.mxCommandComplete n 2) s = execMxCommandComplete n 2 s := rfl
  rw [hexec, execMxCommandComplete, mxCommandComplete_compute s.mem s.w n q hrun hacc hfind]

/-- The set stored and the steps counted at the end of any compute command, in the words of the statement. -/
theorem computeEnd_counts (w : Chip) (n : Nat) (q : MxCmd) :
    let steps := if q.op = 0x25 then 1 else if q.op = 0x22 then 4 + q.chunks else 4 + (serActive (w.mxOf n) q).length
    let v := w.computeEnd n q
    v.rd (Addr.mxSteps n) = (w.rd (Addr.mxSteps n) + steps) % 2 ^ 64 ∧
      v.rd (Addr.mxCtxSteps n q.slot) = (w.rd (Addr.mxCtxSteps n q.slot) + steps) % 2 ^ 64 ∧
      v.mxOf n = { w.mxOf n with
        accs := spPut (fun _ => zeroSet) (w.mxOf n).accs q.set (if q.op = 0x25 then zeroSet else mxCompute (w.mxOf n) q)
        runs := (w.mxOf n).runs.filter fun r => r.cmd.id != q.id } ∧
      v = { w with regs := v.regs, mx := v.mx, accs := v.accs } := by
  have hset : (if q.op = 0x25 then zeroSet else mxCompute (w.mxOf n) q) = mxCompute (w.mxOf n) q := by
    split
    · next h => exact (mxCompute_clear _ q h).symm
    · rfl
  dsimp only
  rw [hset]
  exact ⟨Chip.rd_mxComputeDone_steps _ n q, Chip.rd_mxComputeDone_ctxSteps _ n q, w.computeEnd_mxOf n q,
    w.computeEnd_only n q⟩

/-- Settles O29: the terms are counts of positions, the pairs taken are those whose blocks both have a zero flag of 0, a
fold of the terms adds them up modulo 2^32, and the end of the command stores that set and counts the steps. -/
theorem computeCommandsAddEveryTermToTheirAccumulators :
    Obligations.ComputeCommandsAddEveryTermToTheirAccumulators := by
  unfold Obligations.ComputeCommandsAddEveryTermToTheirAccumulators
  refine ⟨binTerm_eq, serTerm_eq, fun x q => ⟨nodup_serActive x q, mem_serActive x q⟩, ?_, ?_⟩
  · intro x q r k hr hk hop
    rcases hop with h | h
    · dsimp only
      rw [if_pos h]
      exact getD_mxCompute_bin x q hr hk h
    · dsimp only
      have hbin : q.op ≠ 0x22 := by omega
      rw [if_neg hbin]
      exact getD_mxCompute_ser x q hr hk h
  · intro s n q hrun hslot hacc hfind
    refine ⟨fun h => ?_, fun hop => ?_⟩
    · exact makes_mxCommandComplete_compute hrun hacc hfind
        ⟨computeEnd_counts s.w n q, Chip.computeEnd_keeps (Chip.mxComputeDone_clear_keeps _ n h)⟩
    · have h : q.op ≠ 0x25 := by omega
      exact makes_mxCommandComplete_compute hrun hacc hfind
        ⟨computeEnd_counts s.w n q, Chip.fld_mxComputeDone_lastSteps _ n h, Chip.fld_mxComputeDone_lastCtx _ n h hslot,
          Chip.fld_mxComputeDone_count _ n h, fun hser => Chip.rd_mxComputeDone_skipped_ser _ n hser,
          fun hbin => Chip.rd_mxComputeDone_skipped_bin _ n hbin,
          Chip.computeEnd_keeps (Chip.mxComputeDone_keeps _ n q)⟩

end Sys2Proof.Machine

/-! PROOFS of O36 and O37: adds to counters and the waits on them (10_synchronisation.md, R258 to R263). First the sum that
an add stores and what the registers read as after it, then the commands that add, then the tests of the waits. -/

namespace Sys2Proof.Machine

/-- A command that acts on the block alone makes what its action brings about. -/
theorem makes_of_onChip {i : Instr} {s : State} {f : Chip → Chip} {P : Chip → Prop} (h : exec i s = s.onChip f)
    (hP : P (f s.w)) : Makes i s P := ⟨f s.w, h, hP⟩

/-! ## The rule of an add (R259) -/

/-- An add of `a` takes VALUE from `x` to `x'` and the SAT flag from `sat` to `sat'`. -/
def AddTaken (wrap : Bool) (x a x' : Nat) (sat sat' : Bool) : Prop :=
  (wrap = false → 2 ^ 48 - 1 < x + a → x' = 2 ^ 48 - 1 ∧ sat' = true) ∧
  (wrap = false → x + a ≤ 2 ^ 48 - 1 → x' = x + a ∧ sat' = sat) ∧
  (wrap = true → x' = (x + a) % 2 ^ 48 ∧ sat' = sat)

theorem addTaken_addCount (wrap : Bool) (x a : Nat) (sat : Bool) :
    AddTaken wrap x a (addCount wrap x a).1 sat ((addCount wrap x a).2 || sat) := by
  rw [addCount_fst, addCount_snd]
  refine ⟨?_, ?_, ?_⟩
  · rintro rfl hover
    have hsat : 2 ^ 48 ≤ x + a := by omega
    exact ⟨Nat.min_eq_right (by omega), by rw [decide_eq_true hsat]; rfl⟩
  · rintro rfl hfits
    have hsat : ¬ 2 ^ 48 ≤ x + a := by omega
    exact ⟨Nat.min_eq_left hfits, by rw [decide_eq_false hsat]; rfl⟩
  · rintro rfl
    simp

namespace Chip

/-! ## The sum in its registers -/

/-- The outcome `s` of an add is stored: the sum in field `f` of register `a`, the flag `g` of register `b` where the add
saturated. -/
def storeSum (w : Chip) (a : Nat) (f : Fld) (b : Nat) (g : Fld) (s : Nat × Bool) : Chip :=
  if s.2 then (w.setFld a f s.1).setFlag b g true else w.setFld a f s.1

theorem storeSum_only (w : Chip) (a : Nat) (f : Fld) (b : Nat) (g : Fld) (s : Nat × Bool) :
    w.storeSum a f b g s = { w with regs := (w.storeSum a f b g s).regs } := by
  unfold storeSum
  split
  · exact only_trans (setFld_only w a f s.1) (setFlag_only _ b g true)
  · exact setFld_only w a f s.1

theorem rd_storeSum_ne (w : Chip) {a b x : Nat} (f g : Fld) (s : Nat × Bool) (ha : x ≠ a) (hb : x ≠ b) :
    (w.storeSum a f b g s).rd x = w.rd x := by
  unfold storeSum
  split
  · rw [rd_setFlag_ne _ g true hb, rd_setFld_ne _ f s.1 ha]
  · exact rd_setFld_ne _ f s.1 ha

/-- A field that shares no bit with a flag stored reads as before. -/
theorem fld_setFlag_disjoint (w : Chip) {a b : Nat} {f g : Fld} (v : Bool) (hf : f.hi < 64) (hg : g.lo = g.hi)
    (hd : a ≠ b ∨ f.hi < g.lo) : (w.setFlag b g v).fld a f = w.fld a f := by
  by_cases h : a = b
  · subst h
    exact fld_setFlag_apart w a g f v hf (by omega) (.inl (by tauto))
  · exact fld_setFlag_ne w g f v h

theorem fld_storeSum_value (w : Chip) {a b : Nat} {g : Fld} {s : Nat × Bool} (hs : s.1 < 2 ^ 48) (hg : g.lo = g.hi)
    (hd : a ≠ b ∨ 47 < g.lo) : (w.storeSum a ⟨47, 0⟩ b g s).fld a ⟨47, 0⟩ = s.1 := by
  have hstored : (w.setFld a ⟨47, 0⟩ s.1).fld a ⟨47, 0⟩ = s.1 := by
    rw [fld_setFld_self w a _ _ (by decide) (by decide)]
    exact Nat.mod_eq_of_lt hs
  unfold storeSum
  split
  · rw [fld_setFlag_disjoint _ true (by decide) hg hd, hstored]
  · exact hstored

theorem flag_storeSum_sat (w : Chip) {a b : Nat} {g : Fld} (s : Nat × Bool) (h64 : g.hi < 64) (hg : g.lo = g.hi)
    (hd : a ≠ b ∨ 47 < g.lo) : (w.storeSum a ⟨47, 0⟩ b g s).flag b g = (s.2 || w.flag b g) := by
  unfold storeSum
  by_cases hsat : s.2 = true
  · rw [if_pos hsat, flag_setFlag_self _ b g true h64 hg, hsat, Bool.true_or]
  · have hkept : (w.setFld a ⟨47, 0⟩ s.1).flag b g = w.flag b g := by
      by_cases h : a = b
      · subst h
        exact flag_setFld_apart w a _ g _ h64 (by decide) (.inr (by tauto))
      · exact flag_setFld_ne w _ g _ (Ne.symm h)
    rw [if_neg hsat, hkept, Bool.eq_false_iff.2 hsat, Bool.false_or]

/-- An add stored in a field of 48 bits beside its flag follows R259. -/
theorem addTaken_storeSum (w : Chip) {a b : Nat} {f g : Fld} (wrap : Bool) (n : Nat) (hf : f = ⟨47, 0⟩) (h64 : g.hi < 64)
    (hg : g.lo = g.hi) (hd : a ≠ b ∨ 47 < g.lo) :
    let v := w.storeSum a f b g (addCount wrap (w.fld a f) n)
    AddTaken wrap (w.fld a f) n (v.fld a f) (w.flag b g) (v.flag b g) := by
  subst hf
  dsimp only
  rw [fld_storeSum_value w (addCount_lt _ _ _) hg hd, flag_storeSum_sat w _ h64 hg hd]
  exact addTaken_addCount _ _ _ _

/-! ## Adds to a chip counter -/

/-- Chip counter `k` after an add of `a`, its waits not yet tested. -/
def ccStoreSum (w : Chip) (k a : Nat) : Chip :=
  w.storeSum (Addr.ccValue k) F.ccValue_VALUE (Addr.ccStatus k) F.ccStatus_SAT
    (addCount (w.flag (Addr.ccCfg k) F.ccCfg_MODE) (w.fld (Addr.ccValue k) F.ccValue_VALUE) a)

theorem ccAdd_eq_ccStoreSum (w : Chip) {k a : Nat} (h : w.pairRefusal k a = none) :
    w.ccAdd k a = ((w.ccStoreSum k a).testRegs k, none) := ccAdd_done w k a h

/-- From `w` to `v` chip counter `k` has taken an add of `a` as R259 says. -/
def CounterAdded (w v : Chip) (k a : Nat) : Prop :=
  AddTaken (w.flag (Addr.ccCfg k) F.ccCfg_MODE) (w.fld (Addr.ccValue k) F.ccValue_VALUE) a
    (v.fld (Addr.ccValue k) F.ccValue_VALUE) (w.flag (Addr.ccStatus k) F.ccStatus_SAT)
    (v.flag (Addr.ccStatus k) F.ccStatus_SAT) ∧
  (w.flag (Addr.ccCfg k) F.ccCfg_MODE = true → v.rd (Addr.ccStatus k) = w.rd (Addr.ccStatus k)) ∧
  v.rd (Addr.ccRefusedCount k) = w.rd (Addr.ccRefusedCount k)

theorem CounterAdded.of_rd {w u v : Chip} {k a : Nat} (h : CounterAdded w u k a) (hrd : ∀ x, v.rd x = u.rd x) :
    CounterAdded w v k a := by
  simpa only [CounterAdded, flag, fld, hrd] using h

/-- In WRAP mode an add leaves STATUS as it was. -/
theorem rd_ccStoreSum_status_of_wrap (w : Chip) {k : Nat} (a : Nat) (h : w.flag (Addr.ccCfg k) F.ccCfg_MODE = true) :
    (w.ccStoreSum k a).rd (Addr.ccStatus k) = w.rd (Addr.ccStatus k) := by
  have hsat : (addCount (w.flag (Addr.ccCfg k) F.ccCfg_MODE) (w.fld (Addr.ccValue k) F.ccValue_VALUE) a).2 = false := by
    rw [addCount_snd, h, Bool.not_true, Bool.false_and]
  rw [ccStoreSum, storeSum, hsat]
  exact rd_setFld_ne w _ _ (by simp [Addr.ccStatus, Addr.ccValue])

theorem counterAdded_ccStoreSum (w : Chip) (k a : Nat) : CounterAdded w (w.ccStoreSum k a) k a := by
  refine ⟨addTaken_storeSum w _ a rfl (by decide) rfl (.inl ?_), rd_ccStoreSum_status_of_wrap w a,
    rd_storeSum_ne w _ _ _ ?_ ?_⟩
  · simp [Addr.ccValue, Addr.ccStatus]
  · simp [Addr.ccRefusedCount, Addr.ccValue]
  · simp [Addr.ccRefusedCount, Addr.ccStatus]

theorem counterAdded_testRegs (w : Chip) (k a : Nat) : CounterAdded w ((w.ccStoreSum k a).testRegs k) k a :=
  (counterAdded_ccStoreSum w k a).of_rd (testRegs_rd _ k)

/-! ## Adds to a local counter -/

/-- Local counter `k` of core `n` after an add of `a`, the core's waits not yet tested. -/
def lcStoreSum (w : Chip) (n k a : Nat) : Chip :=
  w.storeSum (Addr.ctxLc n (k / 4) (k % 4)) F.ctxLc_VALUE (Addr.ctxLc n (k / 4) (k % 4)) F.ctxLc_SAT
    (addCount (w.flag (Addr.ctxLc n (k / 4) (k % 4)) F.ctxLc_MODE) (w.fld (Addr.ctxLc n (k / 4) (k % 4)) F.ctxLc_VALUE) a)

theorem lcAdd_eq_done (w : Chip) {n k : Nat} (a : Nat) (he : w.slotState n (k / 4) ≠ slEmpty)
    (hs : w.slotState n (k / 4) ≠ slSaving) : w.lcAdd n k a = .done ((w.lcStoreSum n k a).retestCore n) := by
  rcases lcAdd_cases w n k a with ⟨h, -⟩ | ⟨h, -⟩ | ⟨-, -, h⟩
  · exact absurd h he
  · exact absurd h hs
  · exact h

/-- From `w` to `v` local counter `k` of core `n` has taken an add of `a` as R259 says. -/
def LocalCounterAdded (w v : Chip) (n k a : Nat) : Prop :=
  AddTaken (w.flag (Addr.ctxLc n (k / 4) (k % 4)) F.ctxLc_MODE) (w.fld (Addr.ctxLc n (k / 4) (k % 4)) F.ctxLc_VALUE) a
    (v.fld (Addr.ctxLc n (k / 4) (k % 4)) F.ctxLc_VALUE) (w.flag (Addr.ctxLc n (k / 4) (k % 4)) F.ctxLc_SAT)
    (v.flag (Addr.ctxLc n (k / 4) (k % 4)) F.ctxLc_SAT) ∧
  v.rd (Addr.seqSigRefused n) = w.rd (Addr.seqSigRefused n)

theorem LocalCounterAdded.of_rd {w u v : Chip} {n k a : Nat} (h : LocalCounterAdded w u n k a)
    (hrd : ∀ x, v.rd x = u.rd x) : LocalCounterAdded w v n k a := by
  simpa only [LocalCounterAdded, flag, fld, hrd] using h

theorem rd_lcStoreSum_ne (w : Chip) {n k x : Nat} (a : Nat) (h : x ≠ Addr.ctxLc n (k / 4) (k % 4)) :
    (w.lcStoreSum n k a).rd x = w.rd x := rd_storeSum_ne w _ _ _ h h

theorem localCounterAdded_lcStoreSum (w : Chip) (n k a : Nat) : LocalCounterAdded w (w.lcStoreSum n k a) n k a := by
  refine ⟨addTaken_storeSum w _ a rfl (by decide) rfl (.inr (by decide)), rd_lcStoreSum_ne w a ?_⟩
  simp [Addr.seqSigRefused, Addr.ctxLc]
  omega

theorem localCounterAdded_retestCore (w : Chip) (n k a : Nat) :
    LocalCounterAdded w ((w.lcStoreSum n k a).retestCore n) n k a :=
  (localCounterAdded_lcStoreSum w n k a).of_rd (retestCore_rd _ n)

/-- A request answered and dropped leaves every register as it was. -/
theorem dropMsg_answer_rd (w : Chip) (id : Nat) (src : Place) (m : Msg) (op : Op) (st d : Nat) (data : List Byte) (x : Nat) :
    ((w.dropMsg id).answer src m op st d data).rd x = w.rd x :=
  (sameButMessages_rd (answer_same _ src m op st d data false 0) x).trans (dropMsg_rd w id x)

end Chip

open Chip

/-! ## The commands that add -/

/-- Message `m` has its acknowledgement of a performed add on its way. -/
def AddAcked (v : Chip) (m : Msg) : Prop :=
  ∃ j r, v.msgRec? j = some r ∧ r.msg.op = .writeAck ∧ r.msg.status = 0 ∧ r.msg.acc = m.acc

theorem addAcked_answer (w : Chip) (src : Place) {m : Msg} (h : m.srcChip = 255) :
    AddAcked (w.answer src m .writeAck 0 0 []) m := by
  obtain ⟨j, r, hr, hop, hst, -, hacc⟩ := answer_msg w src m .writeAck 0 0 [] h
  exact ⟨j, r, hr, hop, hst, hacc⟩

/-- A message of operation `op` at the hub is taken in its turn. -/
theorem atHub_turn {w : Chip} {id : Nat} {r : MsgRec} (go : MsgRec → Chip) (hr : w.msgRec? id = some r)
    (hturn : w.hubTurn r = true) : w.atHub id r.msg.op go = go r := by
  simp [atHub, hr, hturn]

theorem counterAdd_performed {w : Chip} {id : Nat} {r : MsgRec} (hr : w.msgRec? id = some r) (hop : r.msg.op = .atomicAdd)
    (hturn : w.hubTurn r = true) (hok : w.pairRefusal (ccIndex r.msg.addr) (leNat r.msg.data) = none) :
    counterAdd id 0 w = ((((w.ccStoreSum (ccIndex r.msg.addr) (leNat r.msg.data)).testRegs (ccIndex r.msg.addr)).dropMsg
      id).answer .hub r.msg .writeAck 0 0 []) := by
  rw [counterAdd, ← hop, atHub_turn _ hr hturn]
  simp [chipEcc, ccAdd_eq_ccStoreSum w hok]

theorem counterSignalWrite_performed {w : Chip} {k a : Nat} (hlive : w.live = true) (hk : k < 512) (ha : 0 < a)
    (ha' : a < 2 ^ 32) (hok : w.pairRefusal k a = none) :
    counterSignalWrite k a w = (w.ccStoreSum k a).testRegs k := by
  have hne : a ≠ 0 := by omega
  have hmod : a % 4294967296 = a := Nat.mod_eq_of_lt ha'
  simp [counterSignalWrite, hlive, hk, hne, hmod, ccAdd_eq_ccStoreSum w hok]

theorem localCounterAdd_performed {w : Chip} {id h : Nat} {r : MsgRec} (hr : w.msgRec? id = some r) (hdst : r.dst = .core h)
    (hstage : r.stage = .localOp) (hrun : w.runs h = true) (hheld : r.msg.status ≠ heldStatus)
    (he : w.slotState h (lcIndex r.msg.addr / 4) ≠ slEmpty) (hs : w.slotState h (lcIndex r.msg.addr / 4) ≠ slSaving) :
    localCounterAdd id w = ((((w.lcStoreSum h (lcIndex r.msg.addr) (leNat r.msg.data)).retestCore h).dropMsg id).answer
      (.core h) r.msg .writeAck 0 0 []) := by
  simp [localCounterAdd, hr, hstage, hdst, hrun, lcAdd_eq_done w _ he hs, hheld]

theorem lcntSignalWrite_performed {w : Chip} {n k a : Nat} (hrun : w.runs n = true) (hk : k < 16) (ha : 0 < a)
    (ha' : a < 2 ^ 32) (he : w.slotState n (k / 4) ≠ slEmpty) (hs : w.slotState n (k / 4) ≠ slSaving) :
    lcntSignalWrite n k a w = (w.lcStoreSum n k a).retestCore n := by
  have hne : a ≠ 0 := by omega
  have hmod : a % 4294967296 = a := Nat.mod_eq_of_lt ha'
  simp [lcntSignalWrite, hrun, hk, hne, hmod, lcAdd_eq_done w a he hs]

/-- Settles O36: each of the four commands stores the outcome of `addCount`, and neither the tests of the waits nor the
answer to a message touches a register. -/
theorem addsSaturateInSatModeAndWrapInWrapMode : Obligations.AddsSaturateInSatModeAndWrapInWrapMode := by
  unfold Obligations.AddsSaturateInSatModeAndWrapInWrapMode
  intro _ _ _ _ s hlive
  refine ⟨?_, ?_, ?_, ?_⟩
  · intro id r hr hop hturn hsrc hok
    refine makes_of_onChip rfl ?_
    rw [counterAdd_performed hr hop hturn hok]
    exact ⟨(counterAdded_testRegs _ _ _).of_rd (dropMsg_answer_rd _ id _ _ _ _ _ _), addAcked_answer _ _ hsrc⟩
  · intro k a hk ha ha' hok
    refine makes_of_onChip rfl ?_
    rw [counterSignalWrite_performed hlive hk ha ha' hok]
    exact counterAdded_testRegs _ _ _
  · intro id r h hr _ _ hdst hsrc hstage hrun hheld he hs
    refine makes_of_onChip rfl ?_
    rw [localCounterAdd_performed hr hdst hstage hrun hheld he hs]
    exact ⟨(localCounterAdded_retestCore _ _ _ _).of_rd (dropMsg_answer_rd _ id _ _ _ _ _ _), addAcked_answer _ _ hsrc⟩
  · intro h k a hrun hk ha ha' he hs
    refine makes_of_onChip rfl ?_
    rw [lcntSignalWrite_performed hrun hk ha ha' he hs]
    exact localCounterAdded_retestCore _ _ _ _

/-! ## The rule of a wait (R260) -/

/-- Value `v` satisfies target `t` under the counter's mode. -/
def Meets (wrap : Bool) (v t : Nat) : Prop :=
  (wrap = false ∧ t ≤ v) ∨ (wrap = true ∧ ((v : Int) - (t : Int)) % 2 ^ 48 < 2 ^ 47)

theorem satisfied_iff_meets (wrap : Bool) {v t : Nat} (ht : t < 2 ^ 48) : satisfied wrap v t = true ↔ Meets wrap v t := by
  rw [satisfied_iff wrap ht]
  cases wrap <;> simp [Meets]

namespace Chip

/-- Chip counter `k` satisfies target `t`. -/
def CounterMeets (w : Chip) (k t : Nat) : Prop :=
  Meets (w.flag (Addr.ccCfg k) F.ccCfg_MODE) (w.fld (Addr.ccValue k) F.ccValue_VALUE) t

theorem ccSat_iff_counterMeets (w : Chip) (k : Nat) {t : Nat} (ht : t < 2 ^ 48) :
    w.ccSat k t = true ↔ w.CounterMeets k t := satisfied_iff_meets _ ht

/-! ## The registrations of a chip counter -/

/-- Of the registrations that `w` holds on counter `k`, `v` holds those whose condition is false in `v`. -/
def KeepsUnmet (w v : Chip) (k : Nat) : Prop :=
  ∀ p, p ∈ w.sync.regsHeld → p.2.counter = k → p.2.target < 2 ^ 48 →
    (p ∈ v.sync.regsHeld ↔ ¬ v.CounterMeets k p.2.target)

theorem testRegs_ccSat (w : Chip) (k j t : Nat) : (w.testRegs k).ccSat j t = w.ccSat j t := by simp [ccSat]

/-- Testing the registrations of a counter whose registers alone have changed keeps those not satisfied. -/
theorem keepsUnmet_testRegs {w u : Chip} (k : Nat) (h : u = { w with regs := u.regs }) : KeepsUnmet w (u.testRegs k) k := by
  intro p hp hk ht
  have hu : p ∈ u.sync.regsHeld := by rw [h]; exact hp
  rw [← ccSat_iff_counterMeets _ k ht, testRegs_ccSat, testRegs_held, List.mem_filter]
  simp [hu, hk]

theorem ccStoreSum_only (w : Chip) (k a : Nat) : w.ccStoreSum k a = { w with regs := (w.ccStoreSum k a).regs } :=
  storeSum_only w _ _ _ _ _

end Chip

theorem counterValueWrite_live {w : Chip} {k : Nat} (cfg : Bool) (x : Nat) (hlive : w.live = true) (hk : k < 512) :
    counterValueWrite k cfg x w =
      (if cfg then w.setReg (Addr.ccCfg k) (maskReg (Addr.ccCfg k) x)
        else w.setFld (Addr.ccValue k) F.ccValue_VALUE x).testRegs k := by
  simp [counterValueWrite, hlive, hk]

theorem keepsUnmet_counterValueWrite {w : Chip} {k : Nat} (cfg : Bool) (x : Nat) (hlive : w.live = true) (hk : k < 512) :
    KeepsUnmet w (counterValueWrite k cfg x w) k := by
  rw [counterValueWrite_live cfg x hlive hk]
  apply keepsUnmet_testRegs
  cases cfg
  · exact setFld_only w _ _ _
  · exact setReg_only w _ _

/-! ## Registering a wait -/

namespace Chip

/-- Message `id`, a registration or a cancellation of the slot with key `k`, has been taken, and with it the registration
held for that slot. -/
def takeRegistration (w : Chip) (id k : Nat) : Chip :=
  { w.dropMsg id with sync := { w.sync with regsHeld := spErase w.sync.regsHeld k } }

/-- The registrations held are `others`, and the answer `arg` to a registration is on its way. -/
def Replied (v : Chip) (others : List (Nat × Reg)) (id arg : Nat) : Prop :=
  v.sync.regsHeld = others ∧ ∃ a, v.msgRec? id = some a ∧ a.msg.op = .waitNotify ∧ a.msg.arg = arg

theorem replied_notify (w : Chip) (m : Msg) (arg : Nat) : (w.notify m arg).Replied w.sync.regsHeld w.nextId arg := by
  obtain ⟨r, hr, hm⟩ := inject_msg w .hub (w.towards m.srcChip (.core m.srcCore)) 0
    { m with op := .waitNotify, arg := arg, dstChip := m.srcChip, srcChip := 255, data := [] }
  refine ⟨?_, r, hr, ?_, ?_⟩
  · rw [notify_same w m arg]
  · rw [hm]
  · rw [hm]

end Chip

/-- What a registration whose turn has come does (R266 to R268). -/
theorem waitRegister_turn {w : Chip} {id : Nat} {r : MsgRec} (hr : w.msgRec? id = some r) (hop : r.msg.op = .waitNotify)
    (hturn : w.hubTurn r = true) (harg : r.msg.arg ≠ 2) :
    let u := w.takeRegistration id (regKey r.msg)
    let k := ccIndex r.msg.addr
    let t := leNat r.msg.data
    waitRegister id w =
      if w.ccSat k t then u.notify r.msg 1
      else if u.sync.regsHeld.length < 4096 then
        { u with sync := { u.sync with regsHeld := spInsert u.sync.regsHeld (regKey r.msg) ⟨k, t, r.msg⟩ } }
      else (u.bump Addr.syncWtFullCount).notify r.msg 3 := by
  dsimp only
  rw [waitRegister, ← hop, atHub_turn _ hr hturn]
  dsimp only
  rw [if_neg harg]
  rfl

/-- A registration whose condition holds is answered NOTIFY. -/
theorem waitRegister_met {w : Chip} {id : Nat} {r : MsgRec} (hr : w.msgRec? id = some r) (hop : r.msg.op = .waitNotify)
    (hturn : w.hubTurn r = true) (harg : r.msg.arg ≠ 2) (hsat : w.ccSat (ccIndex r.msg.addr) (leNat r.msg.data) = true) :
    (waitRegister id w).Replied (spErase w.sync.regsHeld (regKey r.msg)) w.nextId 1 := by
  rw [waitRegister_turn hr hop hturn harg, if_pos hsat]
  exact replied_notify (w.takeRegistration id (regKey r.msg)) r.msg 1

/-- A registration whose condition does not hold is held, or answered FULL. -/
theorem waitRegister_unmet {w : Chip} {id : Nat} {r : MsgRec} (hr : w.msgRec? id = some r) (hop : r.msg.op = .waitNotify)
    (hturn : w.hubTurn r = true) (harg : r.msg.arg ≠ 2)
    (hsat : ¬ w.ccSat (ccIndex r.msg.addr) (leNat r.msg.data) = true) :
    spFind? (waitRegister id w).sync.regsHeld (regKey r.msg) = some ⟨ccIndex r.msg.addr, leNat r.msg.data, r.msg⟩ ∨
      (waitRegister id w).Replied (spErase w.sync.regsHeld (regKey r.msg)) w.nextId 3 := by
  rw [waitRegister_turn hr hop hturn harg, if_neg hsat]
  split
  · exact .inl (spFind?_spInsert_self _ _ _)
  · have h := replied_notify ((w.takeRegistration id (regKey r.msg)).bump Addr.syncWtFullCount) r.msg 3
    rw [bump_sync, bump_nextId] at h
    exact .inr h

/-! ## The waits of a core on its own counters -/

namespace Chip

/-- Testing the wait of one slot leaves the other slots as they were. -/
theorem slot_retest_ne (w : Chip) {n c d : Nat} (h : c ≠ d) : (w.retest n d).slot n c = w.slot n c := by
  unfold retest condTrue
  dsimp only
  split
  · split
    · rfl
    · exact slot_setSlot_ne w _ (by omega)
  · rfl

/-- What the test of a slot's wait makes of that slot depends on no other slot. -/
theorem slot_retest_congr {w u : Chip} {n c : Nat} (h : u = { w with slots := u.slots }) (hs : u.slot n c = w.slot n c) :
    (u.retest n c).slot n c = (w.retest n c).slot n c := by
  have hstate : u.slotState n c = w.slotState n c := by rw [h]; rfl
  have hdue : u.takeDue n c = w.takeDue n c := by rw [h]; rfl
  have hlimit : u.pastLimit n c u.time = w.pastLimit n c w.time := by
    unfold pastLimit
    rw [hs, h]
    rfl
  have hwait : u.waitTrue n c = w.waitTrue n c := by
    unfold waitTrue
    rw [hs, hdue, h]
    rfl
  have hkind : u.fld (Addr.ctxSched n c) F.ctxSched_WAIT_KIND = w.fld (Addr.ctxSched n c) F.ctxSched_WAIT_KIND := by
    rw [h]
    rfl
  unfold retest condTrue
  rw [hstate, hs, hwait, hlimit, hkind]
  dsimp only
  split
  · split
    · exact hs
    · rw [slot_setSlot_self, slot_setSlot_self]
  · exact hs

/-- Testing the waits of a list of slots one after the other makes of slot `c` in the list what its own test makes of it. -/
theorem slot_foldl_retest (n c : Nat) (l : List Nat) (w : Chip) (hl : l.Nodup) :
    (l.foldl (fun w d => w.retest n d) w).slot n c = if c ∈ l then (w.retest n c).slot n c else w.slot n c := by
  induction l generalizing w with
  | nil => rfl
  | cons d l ih =>
    obtain ⟨hd, hl⟩ := List.nodup_cons.1 hl
    rw [List.foldl_cons, ih _ hl]
    by_cases h : c = d
    · subst h
      simp [hd]
    · have hs := slot_retest_ne w (n := n) h
      simp [h, hs, slot_retest_congr (retest_slots w n d) hs]

theorem slot_retestCore (w : Chip) (n : Nat) {c : Nat} (hc : c < 4) :
    (w.retestCore n).slot n c = (w.retest n c).slot n c := by
  have hmem : c ∈ [0, 1, 2, 3] := by
    simp
    omega
  rw [retestCore, slot_foldl_retest n c _ w (by decide), if_pos hmem]

/-- Slot `c` of core `n` waits on a local counter, in time and not held by an image write. -/
structure LocalWait (w : Chip) (n c : Nat) : Prop where
  waiting : w.slotState n c = slWaiting
  kind : w.waitKind n c = 1
  ownCounter : bit (w.rd (Addr.ctxWaitArg n c)) 39 = false
  notHeld : (w.slot n c).heldWait = false
  inTime : w.pastLimit n c w.time = false

/-- The local counter that the wait of slot `c` names. -/
def waitCounter (w : Chip) (n c : Nat) : Nat := bits (w.rd (Addr.ctxWaitArg n c)) 3 0

theorem LocalWait.waitTrue_eq {w : Chip} {n c : Nat} (h : w.LocalWait n c) :
    w.waitTrue n c = w.localSat n (w.waitCounter n c) (w.rd (Addr.ctxWaitTarget n c)) := by
  have hkind : w.fld (Addr.ctxSched n c) F.ctxSched_WAIT_KIND = 1 := h.kind
  simp [waitTrue, hkind, h.ownCounter, h.notHeld, waitCounter]

/-- The test of a wait on a local counter notes it exactly when the counter satisfies its target. -/
theorem LocalWait.notified_retest {w : Chip} {n c : Nat} (h : w.LocalWait n c) (hn : (w.slot n c).notified = false) :
    ((w.retest n c).slot n c).notified = w.localSat n (w.waitCounter n c) (w.rd (Addr.ctxWaitTarget n c)) := by
  rw [← h.waitTrue_eq]
  unfold retest condTrue
  cases hw : w.waitTrue n c
  · simp [hn]
  · simp [h.waiting, hn, h.inTime]

/-- A local counter satisfies target `t` as its mode says. -/
theorem localSat_iff_meets (w : Chip) (n k : Nat) {t : Nat} (ht : t < 2 ^ 48) :
    w.localSat n k t = true ↔
      Meets (w.flag (Addr.ctxLc n (k / 4) (k % 4)) F.ctxLc_MODE) (w.fld (Addr.ctxLc n (k / 4) (k % 4)) F.ctxLc_VALUE) t :=
  satisfied_iff_meets _ ht

/-! ### A wait over an add to a local counter -/

theorem lcStoreSum_only (w : Chip) (n k a : Nat) : w.lcStoreSum n k a = { w with regs := (w.lcStoreSum n k a).regs } :=
  storeSum_only w _ _ _ _ _

theorem lcStoreSum_slot (w : Chip) (n k a m c : Nat) : (w.lcStoreSum n k a).slot m c = w.slot m c := by
  rw [lcStoreSum_only]
  rfl

theorem lcStoreSum_time (w : Chip) (n k a : Nat) : (w.lcStoreSum n k a).time = w.time := by rw [lcStoreSum_only]

/-- An add to a local counter changes none of the registers that say what a slot waits for and until when. -/
theorem rd_lcStoreSum_wait (w : Chip) (n k a c : Nat) {x : Nat} (hx : x ∈
    [Addr.ctxHdr n c, Addr.ctxSched n c, Addr.ctxWaitArg n c, Addr.ctxWaitTarget n c, Addr.ctxWdLimit n c]) :
    (w.lcStoreSum n k a).rd x = w.rd x := by
  apply rd_lcStoreSum_ne
  rintro rfl
  simp [Addr.ctxHdr, Addr.ctxSched, Addr.ctxWaitArg, Addr.ctxWaitTarget, Addr.ctxWdLimit, Addr.ctxLc] at hx
  omega

theorem LocalWait.lcStoreSum {w : Chip} {n c : Nat} (h : w.LocalWait n c) (k a : Nat) :
    (w.lcStoreSum n k a).LocalWait n c := by
  have hrd := @rd_lcStoreSum_wait w n k a c
  refine ⟨?_, ?_, ?_, ?_, ?_⟩
  · rw [slotState, fld, hrd (by simp)]
    exact h.waiting
  · rw [waitKind, fld, hrd (by simp)]
    exact h.kind
  · rw [hrd (by simp)]
    exact h.ownCounter
  · rw [lcStoreSum_slot]
    exact h.notHeld
  · rw [pastLimit, fld, hrd (by simp), lcStoreSum_slot, lcStoreSum_time]
    exact h.inTime

/-- A signal to a local counter notes a wait of the core exactly when the counter it names satisfies its target. -/
theorem LocalWait.notified_lcStoreSum {w : Chip} {n c : Nat} (h : w.LocalWait n c) (k a : Nat) (hc : c < 4)
    (hn : (w.slot n c).notified = false) :
    (((w.lcStoreSum n k a).retestCore n).slot n c).notified =
      ((w.lcStoreSum n k a).retestCore n).localSat n (w.waitCounter n c) (w.rd (Addr.ctxWaitTarget n c)) := by
  have hu : ((w.lcStoreSum n k a).slot n c).notified = false := by rw [lcStoreSum_slot, hn]
  rw [slot_retestCore _ n hc, (h.lcStoreSum k a).notified_retest hu, waitCounter, rd_lcStoreSum_wait w n k a c (by simp),
    rd_lcStoreSum_wait w n k a c (by simp), ← waitCounter]
  simp only [localSat, retestCore_flag, retestCore_fld]

end Chip

/-- Settles O37: every test asks `satisfied` of the counter's mode and value, which is the rule's condition; a test of
registrations keeps those not satisfied, and a core's test of its slots notes each wait on its own. -/
theorem waitsAreSatisfiedAsTheCountersModeSays : Obligations.WaitsAreSatisfiedAsTheCountersModeSays := by
  unfold Obligations.WaitsAreSatisfiedAsTheCountersModeSays
  intro _ _ _ s hlive
  refine ⟨?_, ?_, ?_, ?_⟩
  · intro id r hr hop hturn harg ht
    refine ⟨fun hmeets => ?_, fun hunmet => ?_⟩
    · exact makes_of_onChip rfl (waitRegister_met hr hop hturn harg ((ccSat_iff_counterMeets s.w _ ht).2 hmeets))
    · exact makes_of_onChip rfl
        (waitRegister_unmet hr hop hturn harg fun hsat => hunmet ((ccSat_iff_counterMeets s.w _ ht).1 hsat))
  · intro k a hk ha ha' hok
    refine makes_of_onChip rfl ?_
    rw [counterSignalWrite_performed hlive hk ha ha' hok]
    exact keepsUnmet_testRegs k (ccStoreSum_only s.w k a)
  · intro k cfg x hk
    exact makes_of_onChip rfl (keepsUnmet_counterValueWrite cfg x hlive hk)
  · intro n c k a hrun hc hk ha ha' he hs hwaiting hkind hown ht hn hheld hlimit
    have hwait : s.w.LocalWait n c := ⟨hwaiting, hkind, hown, hheld, hlimit⟩
    refine makes_of_onChip rfl ?_
    rw [lcntSignalWrite_performed hrun hk ha ha' he hs, hwait.notified_lcStoreSum k a hc hn]
    exact localSat_iff_meets _ n _ ht

end Sys2Proof.Machine
